-- ==== Sys2Proof/Word.lean ====
section
/-! DEFINITION. The plain value types of the block: bytes, the index types of Table 00-1 (R2), and sparse tables. -/

namespace Sys2Proof

/-- One byte. -/
abbrev Byte := BitVec 8

/-- A bay number b (Table 00-1). -/
abbrev BayId := Fin 8

/-- A global head number g = 2b + h (Table 00-1). -/
abbrev HeadId := Fin 16

/-- A beam or emitter number k of one head (Table 00-1). -/
abbrev BeamId := Fin 4

/-- An engine slot e of one head (Table 00-1). -/
abbrev EngId := Fin 7

/-- A function: 0 is the PF, v is VF v (R305, R323). -/
abbrev FuncId := Fin 2049

/-- A buffer-pool requester (R355). -/
abbrev ReqId := Fin 2052

/-- A sparse table: pairs of a key and a value, keys strictly rising. What an unlisted key reads as is the
reader's to say, and a value equal to that is not listed. -/
abbrev Tab (α : Type) := List (Nat × α)

end Sys2Proof
end

