-- ==== Sys2Proof/Syntax.lean ====
section
/-! DEFINITION. The commands of the block: one constructor of `Instr` per row of spec/opcode_table.json, in the
table's order, with the operands that the outside world gives each. Where the row is an event, its operands carry
what the environment observed: the sampled inputs, the bytes read from host memory or from a disc, the outcome of a test. -/

namespace Sys2Proof

/-- The six loops of a head, which are also the home engine slots 0–5 (R3, Table 04-1). -/
inductive Loop | focus | tracking | tilt | skew | sa | sled
deriving DecidableEq, Repr

/-- The four coils of a head (Table 03-3). -/
inductive Coil | focus | tracking | tilt | skew
deriving DecidableEq, Repr

/-- A stepper axis: a head's sled, a head's SA axis, or a transport axis (Table 08-1). -/
inductive AxisId | sled (g : HeadId) | sa (g : HeadId) | transport (n : Fin 4)
deriving DecidableEq, Repr

/-- A chain port: CU or CD (R425). -/
inductive Port | cu | cd
deriving DecidableEq, Repr

/-- A DRAM channel (R384). -/
inductive DramChan | a | b
deriving DecidableEq, Repr

/-- The interfaces that reach the register map, each with latches of its own (R506). -/
inductive Iface | pcie | coreA | coreB
deriving DecidableEq, Repr

/-- The management paths (R485, R486). -/
inductive MgmtPath | mailbox | sideband
deriving DecidableEq, Repr

/-- A resource under targeted self-test (Table 20-12). The DRAM channel's test is DIAGNOSE, a row of its own. -/
inductive Resource
  | engine (g : HeadId) (e : EngId)
  | decoder (i : Fin 20)
  | cipherCore (i : Fin 8)
  | spindle (b : BayId)
  | axis (a : AxisId)
  | sram (source : BitVec 16)
deriving DecidableEq, Repr

/-- What a head's strobe samples: 12-bit servo codes (Table 03-2), the elapsed fraction of the wedge period (R154),
the mean commanded main-spot power in µW while a write stream is open (R16, R118), and the slack in ns that each of the
head's engines measured for the sample that ends at this strobe (R107). -/
structure StrobeIn where
  fe : BitVec 12
  sum : BitVec 12
  te : Vector (BitVec 12) 4
  wedgeFrac : BitVec 16
  pMean : BitVec 16
  slack : Vector (BitVec 12) 7
deriving DecidableEq, Repr

/-- A wedge header as a beam's header reader sees it (R237): fields, biphase and parity checks, burst amplitudes,
mark position relative to the prediction in channel bits, the sign of the stream error in channel bits, and the mean of
the four corrected TE inputs over the picot window (Q0.17). -/
structure HeaderIn where
  wedge : BitVec 10
  sideLayer : BitVec 5
  gray : BitVec 18
  biphaseOk : Bool
  parityOk : Bool
  burstA : BitVec 8
  burstB : BitVec 8
  burstC : BitVec 8
  burstD : BitVec 8
  markOffset : BitVec 8
  ppWindow : BitVec 18
  ratePeriod : BitVec 28
deriving DecidableEq, Repr

/-- The measurements of one PWM period (R165): d-q currents in mA, terminal vector magnitude, VIN in mV, electrical angle
and speed of the observer, and whether the EMF and the angle rate have agreed within emf_tol long enough in COAST (R182). -/
structure PwmIn where
  id : Int
  iq : Int
  vinMv : Nat
  speed : Int          -- 0.1 rpm, signed; the observer's, or the estimate's in COAST
  pElec : Int          -- mW, the drive's own power estimate of R170
  estimateValid : Bool
deriving DecidableEq, Repr

/-- What the speed loop takes at its period (R168, R181): mean EMF magnitude and the model's EMF, in µV, and the
observer's agreement with the ramp over the ten periods. -/
structure SpeedIn where
  speed : Int          -- 0.1 rpm
  emfMean : Nat
  emfModel : Nat
  vMagMv : Nat
  vMaxMv : Nat
deriving DecidableEq, Repr

/-- What SENSE found (R173). -/
structure SenseIn where
  speed : Nat                  -- magnitude, 0.1 rpm
  direction : Option Bool      -- resolved sense: true is the direction of R35
  shuntOk : Bool               -- the zero-current reading lies within ±5 % of range (Table 07-6, cause 7)
deriving DecidableEq, Repr

/-- The adaptive values of a beam: digital gain (Q4.12), baseline (1/256 ADC LSB), asymmetry (Q0.15) and equaliser taps (Q2.13), and the
timing loop's frequency offset from its preset (0.1 ppm). -/
structure LoopIn where
  gain : BitVec 16
  offset : BitVec 16
  asym : BitVec 16
  freq : BitVec 24
  taps : Vector (BitVec 16) 29
deriving DecidableEq, Repr

/-- The result of one sync search (R240): the best candidate's offset from the ordinary prediction, its sync type and the expected
one; whether the envelope stayed below drop_thr over the whole frame; the detector's channel-bit LLRs (R229) from 280 bits before
the prediction on; and the values to which the samples have adapted the beam's loops (R233). -/
structure SyncIn where
  candidate : Option (Int × Fin 4)
  expected : Fin 4
  blankEnvelope : Bool
  llr : List (BitVec 8)
  loops : LoopIn
deriving DecidableEq, Repr

/-- One data-plane read of a frame's header or record frames by a verify channel (R264, R265). -/
structure RsRead where
  decodes : Bool
  symbols : BitVec 8
deriving DecidableEq, Repr

/-- One copy of a couching or anchor record as verified (R265). -/
structure CopyRead where
  frames : Vector RsRead 4
  crcOk : Bool
deriving DecidableEq, Repr

/-- One power step of a calibration run read back on one emitter (R260): bit errors among the bits compared, and β in 1/65,536. -/
structure OpcStep where
  errors : Nat
  bits : Nat
  beta : Int
deriving DecidableEq, Repr

/-- A run of a couching record or checkpoint entry: namespace, first block, block count. -/
structure RunIn where
  first : BitVec 64
  count : BitVec 16
deriving DecidableEq, Repr

/-- A valid couching record read from a disc (Table 02-9). -/
structure RecordIn where
  sl : BitVec 5
  frame : BitVec 32
  seq : BitVec 64
  nsid : BitVec 32
  keyTag : BitVec 32
  start : BitVec 32
  clusters : BitVec 8
  length : BitVec 32
  timestamp : BitVec 64
  prevSl : BitVec 8
  prevFrame : BitVec 32
  runs : List RunIn
  relocs : List (BitVec 8 × BitVec 32)
deriving DecidableEq, Repr

/-- A valid anchor-record copy (Table 02-11), by its content less the beam byte. -/
structure AnchorIn where
  area : Fin 3
  flags : BitVec 16
  generation : BitVec 64
  highestSeq : BitVec 64
  layers : Vector (BitVec 32 × BitVec 32) 24     -- high-water frame, last couching record frame
  ckptSl : BitVec 5
  ckptFrame : BitVec 32
deriving DecidableEq, Repr

/-- One entry of a map checkpoint (Table 11-7), with the lead frame, cluster count and relocation table of the couching record that it
names. -/
structure CkptEntryIn where
  nsid : BitVec 32
  first : BitVec 64
  count : BitVec 16
  sl : BitVec 5
  recordFrame : BitVec 32
  blockOffset : BitVec 16
  keyTag : BitVec 32
  seq : BitVec 64
  start : BitVec 32
  clusters : BitVec 8
  relocs : List (BitVec 8 × BitVec 32)
deriving DecidableEq, Repr

/-- What a mount stage read (Table 11-4). -/
inductive MountRead
  | discId (id : BitVec 128)
  | anchors (blank : Bool) (copies : List AnchorIn)
  | decided
  | checkpoint (readable : Bool) (covered : BitVec 64) (highWater : Vector (BitVec 32) 24) (entries : List CkptEntryIn)
  | chain (broken : Bool) (records : List RecordIn)
  | forward (records : List RecordIn) (highWater : Vector (BitVec 32) 24)
  | applied
  | appended
deriving DecidableEq, Repr

/-- The 64-byte command entry that a fetch reads from a ring (Table 13-4), with its descriptor list (R334) and, for the
commands that read a data buffer at once, those bytes. -/
structure EntryIn where
  opcode : Byte
  flags : Byte
  cid : BitVec 16
  nsid : BitVec 32
  slba : BitVec 64
  nlbM1 : BitVec 32
  reserved : BitVec 32
  dataAddr : BitVec 64
  ndesc : BitVec 32
  spec : Vector Byte 28
  descriptors : List (BitVec 64 × BitVec 32)
  buffer : List Byte
deriving DecidableEq, Repr

/-- The attach block's host half (Table 13-2). -/
structure AttachIn where
  sqBase : BitVec 64
  cqBase : BitVec 64
  sqDb : BitVec 64
  cqDb : BitVec 64
  sqSizeM1 : BitVec 16
  cqSizeM1 : BitVec 16
  vector : BitVec 16
deriving DecidableEq, Repr

/-- One named owner of a buffer (R365). -/
inductive Owner | hostDma | cipher | disc | chain
deriving DecidableEq, Repr

/-- A context-cache client (R372). -/
inductive CacheClient | queueEngine | mapManager | keyFetch | coreA | coreB
deriving DecidableEq, Repr

/-- How a DRAM burst read decodes (R395): per device, the number of bytes in error. -/
structure BurstErrors where
  perDevice : List (Fin 10 × BitVec 5)
deriving DecidableEq, Repr

/-- What diagnosis finds (R400): no error, errors confined to one device, or anything else. -/
inductive DiagResult | clean | oneDevice (sub rank : Fin 2) (device : Fin 10) | other
deriving DecidableEq, Repr

/-- The header of a chain packet (Table 17-2), less its type, and its payload. -/
structure PacketIn where
  port : Port
  flags : Byte
  dest : BitVec 16
  source : BitVec 16
  hops : BitVec 16
  tag : BitVec 16
  status : BitVec 16
  seq : BitVec 16
  address : BitVec 64
  payload : List Byte
  crcOk : Bool
deriving DecidableEq, Repr

/-- A chip sensor source of the cipher alarm (R419). -/
inductive AlarmSource | supply | temperature | shield | tamper
deriving DecidableEq, Repr

/-- A margin of Table 19-3. -/
inductive Margin | engine | decoder | cipher | other | spindle (b : BayId)
deriving DecidableEq, Repr

/-- What the delay sensors and the decoders measured over the last second (R467). -/
structure MarginIn where
  enginePrediction : Nat        -- ns of slack that the delay sensors predict for PD0–PD7
  decoderIterPs : Nat           -- mean iteration time over the last second, ps
  decoderSlow : List (Fin 20)   -- decoders whose own mean iteration time exceeds 1.60 µs
  decoderItersX100 : Nat        -- mean iterations per first-pass codeword, hundredths
  cipherUnitNs : Nat
  otherPct : Nat                -- delay-sensor prediction of the other domains, percent of their limit
  reachedRpm : Vector Nat 8     -- the speed that each drive reached
deriving DecidableEq, Repr

/-- A trim of Table 19-1, by its HEAD_SETS code (R476). -/
structure TrimKey where
  code : Fin 16
  inst : BitVec 16
  index : BitVec 16
deriving DecidableEq, Repr

/-- A trend of Table 19-4. -/
inductive Trend
  | laser (g : HeadId) (k : BeamId) (point : Fin 5)
  | coil (g : HeadId) (c : Coil)
  | backEmf (b : BayId)
  | dramCe (c : DramChan)
deriving DecidableEq, Repr

/-- How the environment answers a cold or warm start: for each step of Table 20-5 whether it can complete (R481). -/
structure StartIn where
  flashOk : Bool
  firmwareOk : Bool
  dramMatch : Bool
  dramTrained : Bool
  domainsOk : Bool
  otpOk : Bool
  tamperLow : Bool
  vinOk : Bool
  pwrGood : Bool
deriving DecidableEq, Repr

/-- The commands and events of the block, one per row of spec/opcode_table.json. -/
inductive Instr
  -- bay mailbox (chapter 01)
  | position (b : BayId) (tag : BitVec 16) (h : Fin 2) (sl : BitVec 5) (track : BitVec 18) (k : BeamId)
  | readWindow (b : BayId) (tag : BitVec 16) (h : Fin 2) (track : BitVec 18) (frame count : BitVec 32)
  | writeWindow (b : BayId) (tag : BitVec 16) (h : Fin 2) (track : BitVec 18) (frame count : BitVec 32)
  | cancel (b : BayId) (tag : BitVec 16)
  -- head link (chapter 03)
  | statusFrame (g : HeadId) (lane : BeamId) (w : Vector (BitVec 16) 8)
  | laneTrainTimeout (g : HeadId) (lane : BeamId)
  | laneFrameTimeout (g : HeadId) (lane : BeamId)
  | linkRetrain (g : HeadId)
  | linkClearCounts (g : HeadId)
  | coilFault (g : HeadId) (c : Coil) (shorted : Bool)
  -- control engines (chapter 04)
  | headStrobe (g : HeadId) (i : StrobeIn)
  | sampleMiss (g : HeadId) (e : EngId)
  | targetedTestDone (r : Resource) (pass : Bool)
  | engCommit (g : HeadId) (e : EngId) (action : BitVec 2)
  | engClearStats (g : HeadId) (e : EngId)
  -- focus (chapter 05)
  | focAcqStart (g : HeadId)
  | captureTimeout (g : HeadId)
  | identifyTimeout (g : HeadId)
  | jumpKickEnd (g : HeadId)
  | jumpCoastTimeout (g : HeadId)
  | jumpBrakeEnd (g : HeadId)
  | jumpLockTimeout (g : HeadId)
  | jumpSettleEnd (g : HeadId)
  | defectHoldTimeout (g : HeadId)
  | recaptureTimeout (g : HeadId)
  | focCommit (g : HeadId)
  -- tracking (chapter 06)
  | trkAcqStart (g : HeadId)
  | trkRebuild (g : HeadId)
  | trackPullinTimeout (g : HeadId)
  | acqTimeout (g : HeadId)
  | confirmTimeout (g : HeadId)
  | lensKickTimeout (g : HeadId)
  | lensBrakeTimeout (g : HeadId)
  | lensLockTimeout (g : HeadId)
  | seekStart (g : HeadId)
  | sledSettleEnd (g : HeadId)
  | wedgeTick (b : BayId) (w : BitVec 10) (revNs : BitVec 32)
  | blendEnd (g : HeadId) (l : Fin 3)
  | runoutFetchDone (g : HeadId) (l : Fin 3) (ok : Bool)
  | trkCommit (g : HeadId)
  -- spindle (chapter 07)
  | pwmPeriod (b : BayId) (i : PwmIn)
  | speedLoopPeriod (b : BayId) (i : SpeedIn)
  | spindleStart (b : BayId)
  | driveStart (b : BayId)
  | spindleStop (b : BayId)
  | spindleClearFault (b : BayId)
  | spindleReverseWrite (b : BayId) (v : Bool)
  | targetRpmWrite (b : BayId) (rpm : BitVec 13)
  | senseEnd (b : BayId) (i : SenseIn)
  | brakeTimeout (b : BayId)
  | alignEnd (b : BayId)
  | spindleCoastTimeout (b : BayId)
  | torqueRestored (b : BayId)
  | stopBrakeEnd (b : BayId)
  | fieldWeakenLimit (b : BayId)
  | spindleOvercurrent (b : BayId)
  | bridgeOvertemp (die : Fin 2)
  | spindlePhaseOpen (b : BayId)
  | spindleCommit (b : BayId)
  -- steppers and transport (chapter 08)
  | axisTick (a : AxisId)
  | chopperCycle (a : AxisId) (phase : Fin 2) (reachedNs : BitVec 24)
  | stepperPhaseOpen (a : AxisId) (phase : Fin 2)
  | axisOvercurrent (a : AxisId)
  | holdDelayEnd (a : AxisId)
  | axisEnableWrite (a : AxisId) (v : Bool)
  | axisHome (a : AxisId)
  | homeStopHoldEnd (a : AxisId)
  | axisClearFault (a : AxisId)
  | axisStop (n : Fin 4)
  | runPrick (a : AxisId)
  | axisTargetWrite (n : Fin 4) (target : BitVec 32)
  | axisModeWrite (n : Fin 4) (mode : BitVec 2)
  | gearArm (n : Fin 4)
  | gearArmNow (n : Fin 4)
  | encoderEdge (i : Fin 2) (a b : Bool) (sinceNs : BitVec 32)
  | stepEdge (n : Fin 4) (level dir : Bool) (sinceUs : BitVec 32)
  | axisCommit (a : AxisId)
  -- read channel (chapter 09)
  | beamWindowStart (g : HeadId) (k : BeamId)
  | beamWindowEnd (g : HeadId) (k : BeamId)
  | wedgeHeader (g : HeadId) (k : BeamId) (h : HeaderIn)
  | syncSearch (g : HeadId) (k : BeamId) (i : SyncIn)
  | defectStart (g : HeadId) (k : BeamId) (at_ : BitVec 32)
  | defectEnd (g : HeadId) (k : BeamId) (at_ : BitVec 32) (coastBits : BitVec 16)
  | coastLimit (g : HeadId) (k : BeamId)
  | resliceRequest (g : HeadId) (k : BeamId) (frame : BitVec 32) (offset : BitVec 6)
  | chanCommit (g : HeadId)
  | chanClearStats (g : HeadId)
  -- recording (chapter 10)
  | writingEntry (b : BayId)
  | sessionIdleExpiry (g : HeadId)
  | writeWindowOpen (g : HeadId) (runs : Vector (List (BitVec 4 × BitVec 4)) 4)
  | opcNow (g : HeadId)
  | opcRunStart (g : HeadId) (outer : Bool) (turn : BitVec 10)
  | opcRunDone (g : HeadId) (k : BeamId) (steps : Vector OpcStep 8)
  | codewordVerdict (seq : BitVec 64) (cluster : Fin 72) (cw : Fin 32) (w : BitVec 12) (frameFailed : Bool)
      (headers : Option CopyRead)
  | recordVerdict (seq : BitVec 64) (copies : Vector CopyRead 4)
  | anchorAppend (b : BayId) (copies : Vector (Vector CopyRead 4) 3) (rewrites : Vector (Vector CopyRead 4) 3)
  | mapCheckpoint (b : BayId) (sl : BitVec 5) (frame : BitVec 32)
  | wrCommit (g : HeadId)
  | vchanCommit (g : HeadId)
  | vchanClearStats (g : HeadId)
  -- decoding (chapter 11)
  | decodeStart (i : Fin 20)
  | decodeDone (i : Fin 20) (decoderOk checkerOk : Bool) (iters : BitVec 6) (unsat : BitVec 12) (info : List Byte)
  | ladderAgeExpiry (cw : BitVec 64)
  | ladderStepDone (cw : BitVec 64) (converged : Bool) (info : List Byte)
  | sweepSettleEnd (g : HeadId)
  | mountStart (b : BayId) (disc : BitVec 128)
  | mountStageDone (b : BayId) (r : MountRead)
  | decodeCommit
  | decodeClearStats
  -- host endpoint (chapter 12)
  | flr (f : FuncId)
  | conventionalReset
  | vfEnableWrite (v : Bool)
  | dlActiveLost
  | linkReattach
  | msixEntryWrite (f : FuncId) (entry : Option (BitVec 11)) (word : BitVec 2) (value : BitVec 32)
  -- queues (chapter 13)
  | sqNudge (f : FuncId) (q : BitVec 18)
  | cqNudge (f : FuncId) (q : BitVec 18)
  | attachLo (f : FuncId) (arg : BitVec 29)
  | attachHi (f : FuncId) (arg : BitVec 29) (blk : AttachIn)
  | detach (f : FuncId)
  | nudgeReservedOp (f : FuncId) (op : BitVec 3)
  | detachGraceExpiry (f : FuncId)
  | doorbellPoll (f : FuncId) (sq : Bool) (line : BitVec 12) (slots : Vector (BitVec 32) 64)
  | commandFetch (e : EntryIn)
  | read (cmd : BitVec 64)
  | write (cmd : BitVec 64) (dataOk : Bool)
  | flush (cmd : BitVec 64)
  | fence (cmd : BitVec 64)
  | createCq (cmd : BitVec 64)
  | createSq (cmd : BitVec 64)
  | deleteSq (cmd : BitVec 64)
  | deleteCq (cmd : BitVec 64)
  | selfTestShort (cmd : BitVec 64)
  | selfTestExtended (cmd : BitVec 64)
  | selfTestAbort (cmd : BitVec 64)
  | selfTestResume
  | selfTestMaxSusp
  | selfTestDone (fail : Option (Fin 7))
  | getMetering (cmd : BitVec 64)
  | namespaceCreate (cmd : BitVec 64)
  | namespaceDelete (cmd : BitVec 64)
  | namespaceQuery (cmd : BitVec 64)
  | keyLoad (cmd : BitVec 64)
  | keyErase (cmd : BitVec 64)
  | keyQuery (cmd : BitVec 64)
  | fwActivate (cmd : BitVec 64)
  | fwCoreBReady (selfCheckOk : Bool)
  | fwWatchdogExpiry
  | cqCompletion (cmd : BitVec 64)
  | cqAggTimer (f : FuncId) (q : BitVec 18)
  -- buffer pool and context cache (chapter 14)
  | bufferRelease (p : Fin 16) (buf : BitVec 24) (o : Owner)
  | bufferShare (p : Fin 16) (buf : BitVec 24) (o : Owner)
  | quotaLimitWrite (r : ReqId) (limit : BitVec 24)
  | poolEnableWrite (p : Fin 16) (v : Bool)
  | bufpoolClearStats
  | cacheAccess (c : CacheClient) (store : Bool) (addr : BitVec 37) (data : List Byte)
  | victimWritebackDone (addr : BitVec 37)
  | streamGapTimeout (c : CacheClient) (region : Fin 3)
  | cacheOpPreload (ways : BitVec 16) (lock : Bool)
  | cacheOpClean
  | cacheOpInvalidate
  | cacheOpDone
  | cacheUnlock (ways : BitVec 16)
  | wayPowerWrite (on : BitVec 8)
  | wayDrainDone (way : Fin 16)
  | cacheCleanAll
  | cacheEnableWrite (v : Bool)
  | ccacheClearStats
  -- DRAM (chapter 15)
  | dramTrain (c : DramChan)
  | trainingDone (c : DramChan) (pass matchesConfig : Bool) (imt mmt : BitVec 12)
  | dramSwitch (c : DramChan)
  | switchDone (c : DramChan) (trainOk : Bool)
  | dramBurstRead (addr : BitVec 37) (errs : BurstErrors)
  | deviceAlert (c : DramChan) (clearedByRetry : Bool)
  | diagnoseDone (c : DramChan) (r : DiagResult)
  | resilverDone (c : DramChan)
  | scrubInterval (sram : Bool) (errs : BurstErrors) (sramBits : Fin 3) (source : BitVec 16)
  | trefiWindow (c : DramChan) (bank : BitVec 6) (acts : Vector (BitVec 12) 5)
  | markClear (c : DramChan) (sub rank : Fin 2)
  | ceClearTable
  | dramcClearStats (c : DramChan)
  | memprotClearStats
  -- cipher (chapter 16)
  | cipherRequest (cmd : BitVec 64) (decrypt : Bool) (slot : BitVec 16) (nsid : BitVec 32) (lba : BitVec 64)
      (buffer : BitVec 37) (data : List Byte)
  | cipherUnitDone (core : Fin 8) (isMatch : Bool)
  | slotFetchDone (slot : BitVec 16) (recordOk : Bool)
  | cipherAlarm (src : AlarmSource)
  | cipherRearm
  | keygenDone
  | cipherClearStats
  -- chain port (chapter 17)
  | chainWrite (p : PacketIn)
  | readReq (p : PacketIn) (length : BitVec 16)
  | readResp (p : PacketIn)
  | writeAck (p : PacketIn)
  | mirrorWrite (p : PacketIn)
  | mirrorDone (p : PacketIn)
  | timeSync (p : PacketIn) (t2 : BitVec 64)
  | timeReply (p : PacketIn) (t1 t4 : BitVec 64)
  | hello (p : PacketIn)
  | linkState (p : PacketIn)
  | linkAck (p : PacketIn)
  | keepalive (p : PacketIn)
  | errorResp (p : PacketIn)
  | chainTrainTimeout (p : Port)
  | keepaliveTimeout (p : Port)
  | keepaliveTimer (p : Port)
  | helloTimer (p : Port)
  | reqTimeout (tag : BitVec 16)
  | mirrorTimeout (msg : BitVec 64)
  | timeSyncTimer
  | mirrorMessageSend (m : Fin 64)
  | chainRetrain
  | chainEnableWrite (v : Bool)
  | chainCommit
  | chainClearStats
  -- power and timing (chapter 18)
  | domainWrite (i : Iface) (high : Bool) (value : BitVec 32)
  | domainSwitchDone (d : Fin 20)
  | capWrite (v : BitVec 17)
  | governorScan
  | powerMeasure (mw : BitVec 17) (below98For100ms : Bool)
  | thermalWarn (temp : BitVec 16)
  | pwrGoodDeassert
  | vinUndervolt (vin : BitVec 16)
  | powerFailEnd
  | referenceLost
  | referenceRestored (i : StartIn)
  | timebaseOffsetWrite (i : Iface) (high : Bool) (value : BitVec 32)
  | lowWordRead (i : Iface) (addr : BitVec 26)
  -- calibration (chapter 19)
  | marginEvaluation (i : MarginIn)
  | speedStepApply (b : BayId)
  | trimTempRecompute (g : HeadId) (adc : BitVec 16)
  | trialPhaseEnd (g : HeadId) (fraction : BitVec 16) (syndrome : BitVec 16)
  | headSetNvWrite
  | trendEvaluation (t : Trend) (value : BitVec 32)
  | calibClearStats
  -- start-up and management (chapter 20)
  | coldStart (i : StartIn)
  | startTimeout
  | warmStart (i : StartIn)
  | nvProgramDone (verified : Bool)
  | moduleImageWrite
  | mailboxGo
  | smbBlockWrite (bytes : List Byte) (pecOk : Bool)
  | smbStart
  | smbStatusRead
  | smbBlockRead
  | logRead (p : MgmtPath)
  | meterRead (p : MgmtPath)
  | sensorRead (p : MgmtPath)
  | nvWrite (p : MgmtPath)
  | nvWriteHoldTimeout
  | nvRead (p : MgmtPath)
  | restart (p : MgmtPath) (i : StartIn)
  | events (p : MgmtPath)
  | meterSnapshot
  -- registers (chapter 21)
  | globalCommit (first last : BitVec 16)
  | registerWrite (i : Iface) (addr : BitVec 26) (value : BitVec 32)
  | rstNAssert
  | discUnload (b : BayId)
  | thermalWarnClear
  | fwCoreAStandby
  | completerAbortRead (addr : BitVec 64) (len : BitVec 16)
deriving DecidableEq, Repr

end Sys2Proof
end

