-- ==== Sys2Proof/Machine/Bits.lean ====
section
/-! DEFINITION. Bit, fixed-point, rounding and byte-order helpers that every block uses (R4, R92, R95), and the operations
on sparse tables. -/

namespace Sys2Proof.Machine

/-- A Q0.17 signal (R92). -/
abbrev Q17 := BitVec 18

/-- The two's-complement value of the low `w` bits of n. -/
def signed (w n : Nat) : Int :=
  let m := n % 2 ^ w
  if 2 * m < 2 ^ w then (m : Int) else (m : Int) - 2 ^ w

/-- The low `w` bits of an integer, as a natural number. -/
def unsigned (w : Nat) (i : Int) : Nat := (i % (2 ^ w : Int)).toNat

/-- i brought into lo..hi. -/
def clampI (i lo hi : Int) : Int := if i < lo then lo else if hi < i then hi else i

/-- n/d rounded to the nearest integer, ties to even (R95); d is positive. -/
def roundHE (n d : Int) : Int :=
  let q := n / d
  let r := n % d
  if 2 * r < d then q else if d < 2 * r then q + 1 else if q % 2 = 0 then q else q + 1

/-- n/d rounded to the nearest integer, ties away from zero; d is positive. -/
def roundNear (n d : Int) : Int :=
  if 0 ≤ n then (2 * n + d) / (2 * d) else -((2 * (-n) + d) / (2 * d))

/-- The least integer at or above n/d. -/
def ceilDiv (n d : Nat) : Nat := (n + d - 1) / d

/-- The Q0.17 nearest to an integer count of 2^-17, saturated (R96). -/
def satQ17 (i : Int) : Q17 := BitVec.ofInt 18 (clampI i (-131072) 131071)

/-- A count that saturates at the top of its field. -/
def satInc (w n : Nat) : Nat := if n + 1 < 2 ^ w then n + 1 else 2 ^ w - 1

/-- Bit i of n. -/
def bitOf (n i : Nat) : Bool := n.testBit i

/-- n with bit i set to v. -/
def setBit (n i : Nat) (v : Bool) : Nat :=
  if v then n ||| 2 ^ i else if n.testBit i then n - 2 ^ i else n

/-- n with the bits of m cleared. -/
def clearBits (n m : Nat) : Nat := n - (n &&& m)

/-- A Bool as a one-bit value. -/
def b2n (b : Bool) : Nat := if b then 1 else 0

/-- The little-endian bytes of n, k of them (R4). -/
def leBytes : Nat → Nat → List Byte
  | 0, _ => []
  | k + 1, n => BitVec.ofNat 8 n :: leBytes k (n / 256)

/-- The value of little-endian bytes (R4). -/
def ofLe : List Byte → Nat
  | [] => 0
  | b :: bs => b.toNat + 256 * ofLe bs

/-- The value under a key of a sparse table. -/
def Tab.get? {α : Type} (t : Tab α) (k : Nat) : Option α :=
  match t with
  | [] => none
  | (k', v) :: r => if k' = k then some v else Tab.get? r k

/-- The value under a key, or `d` where none is listed. -/
def Tab.get {α : Type} (d : α) (t : Tab α) (k : Nat) : α := (Tab.get? t k).getD d

/-- The table with `v` under `k`, keys kept rising. -/
def Tab.put {α : Type} (t : Tab α) (k : Nat) (v : α) : Tab α :=
  match t with
  | [] => [(k, v)]
  | (k', v') :: r =>
    if k < k' then (k, v) :: (k', v') :: r
    else if k = k' then (k, v) :: r
    else (k', v') :: Tab.put r k v

/-- The table with nothing under `k`. -/
def Tab.erase {α : Type} (t : Tab α) (k : Nat) : Tab α := t.filter (fun e => e.1 != k)

/-- The table with `v` under `k`, where an entry equal to `d` is not listed. -/
def Tab.set {α : Type} [DecidableEq α] (d : α) (t : Tab α) (k : Nat) (v : α) : Tab α :=
  if v = d then Tab.erase t k else Tab.put t k v

/-- The table without the keys in lo ≤ k < hi. -/
def Tab.dropRange {α : Type} (t : Tab α) (lo hi : Nat) : Tab α :=
  t.filter (fun e => e.1 < lo || hi ≤ e.1)

/-- A vector with one element changed by a function. -/
def vmod {α : Type} {n : Nat} (v : Vector α n) (i : Fin n) (f : α → α) : Vector α n :=
  v.set i.val (f v[i.val])

end Sys2Proof.Machine
end

