-- ==== Sys2Proof/Config.lean ====
section
/-! DEFINITION. What an implementation fixes and what the spec leaves open: every opaque constant here is a free value,
of which nothing can be proved (its log entry names it). -/

namespace Sys2Proof.Config

/-- The optical and environment-independent free bits: the n-th value the machine draws where the spec leaves a value undefined. -/
opaque freeNat : Nat → Nat

/-- The event number [7:0] of an event code, by the model's number of the event (R492 gives only the class). -/
opaque eventNumber : Nat → Byte

/-- The severity 0–4 of an event (R492 gives the scale only). -/
opaque eventSeverity : Nat → Byte

/-- The 18 data bytes of an event-log entry (R492: the address, value or state that the event names; no layout). -/
opaque eventData : Nat → List Nat → List Byte

/-- The version of the firmware in the one-time-programmable memory (R477, R508). -/
opaque otpFirmwareVersion : BitVec 32

/-- The 16 bytes of the factory serial number, which an image without an IDENTITY section leaves in force (R312, R476 give none). -/
opaque otpSerial : Nat → Byte

/-- The lens offset in tracks that sled-follow has not yet removed, by the mean tracking output (R151 names it and gives no
measure of it). -/
opaque lensOffset : Int → Int

/-- The ratio (A − B) / (A + B) of burst amplitudes that are both 0 (R140 states no value). -/
opaque zeroRatio : Int

/-- The trailing-edge shift of a stream's last mark, which no space follows (R256 states none). -/
opaque lastTrail : BitVec 5

/-- The bytes of a logical block that no write has covered, by namespace and block (the spec states none). -/
opaque unwritten : BitVec 32 → Nat → List Byte

/-- The key-encryption keys that the entropy source yields, by the number of the draw (R414). -/
opaque kek : Nat → List Byte

/-- The channel in which the replay store (0) and the runout store (1) lie, true for B: both are in DRAM (R160, R244) and the spec gives
neither a place. -/
opaque storeInB : Nat → Bool

/-- The bay, if any, whose disc's map a 64-byte line of REGION[1] holds, by the line's number in the region (the spec gives map pages
no layout). -/
opaque mapPageBay : Nat → Option (Fin 8)

/-- The SRAM reads of one scrub pass (R403 gives the time of a pass, not the words). -/
opaque sramWords : Nat

/-- The syndrome of a correctable SRAM error, by the model's count of free values (R393 gives no numbering of the check bits). -/
opaque sramSyndrome : Nat → BitVec 5

end Sys2Proof.Config
end

