-- ==== Sys2Proof/Machine/ControlTypes.lean ====
section
/-! DEFINITION. The state of the control plane: engines, focus and tracking sequencers, runout learners, head links,
bay mailboxes, spindle drives, stepper axes, gearing and encoders (chapters 01, 03–08). -/

namespace Sys2Proof.Machine

/-! ### Bay mailbox (R17, R18) -/

/-- The three requests of Table 01-2. -/
inductive ReqKind
  | position (sl : BitVec 5) (track : BitVec 18) (beam : BeamId)
  | readWindow (track : BitVec 18) (frame count : BitVec 32)
  | writeWindow (track : BitVec 18) (frame count : BitVec 32)
deriving DecidableEq, Repr

/-- Where an outstanding request stands. -/
inductive ReqStage
  | held                    -- waits: its head is lost, or a grant, a window or write speed is awaited
  | active                  -- the bay sequencer acts on it
  | ready (wedge : Nat)     -- its READY was generated, for a start wedge that is to come
  | running (began : Nat)   -- its window runs since this wedge boundary
deriving DecidableEq, Repr

/-- An outstanding request of a bay mailbox. -/
structure MailReq where
  tag : BitVec 16
  head : HeadId
  kind : ReqKind
  stage : ReqStage
deriving DecidableEq, Repr

/-- The reports of Table 01-2. -/
inductive Report
  | onTrack (tag : BitVec 16) (head : HeadId) (track : BitVec 18)
  | ready (tag : BitVec 16) (head : HeadId) (wedge : BitVec 10)
  | lost (head : HeadId) (cause : Fin 9)
  | rejected (tag : BitVec 16) (reason : Nat)
deriving DecidableEq, Repr

/-! ### Head link (R76–R88) -/

inductive LaneState | down | train | up | failed
deriving DecidableEq, Repr

/-- One lane of a head link. -/
structure Lane where
  st : LaneState
  attempts : Nat            -- failed training attempts
  valid : Nat               -- consecutive valid frames in TRAIN
  bad : Nat                 -- consecutive missing or invalid frames in UP
  seq : Option Byte         -- sequence number of the previous frame
  stream : Bool             -- a write stream is open (R80)
  flags : BitVec 16         -- word 1 of the last valid status frame
  fifo : BitVec 16
  power : BitVec 16
  drive : BitVec 16
  threshold : BitVec 16
  temp : BitVec 16
  period : BitVec 28        -- channel bit period last sent (RATE)
  levels : Vector (BitVec 16) 4      -- LV0–LV3 last sent (SETPOINT), µW
  latched : Vector (BitVec 16) 4     -- LV0–LV3 that the open stream uses (R82)
  strategy : Vector (BitVec 6) 7     -- first-pulse lengths sent (STRATEGY)
  latchedStrategy : Vector (BitVec 6) 7
  emitterOn : Bool
  sent : List (BitVec 16)   -- the words of the latest window's stream, in the order sent (R257)
deriving DecidableEq, Repr

/-! ### Control engines (chapter 04) -/

/-- Table 04-2. -/
inductive EngState | off | idle | run | hold | override | spare | retired
deriving DecidableEq, Repr

/-- What a sequencer commands of an engine at its next sample boundary (R101). -/
inductive EngCmd
  | idle
  | run (clear : Bool) (prev : Option Q17)
  | hold
  | override (v : Q17)
deriving DecidableEq, Repr

/-- The two states of a biquad, Q3.32 (R95). -/
structure Biquad where
  s1 : BitVec 36
  s2 : BitVec 36
deriving DecidableEq, Repr

/-- A computed sample that waits for its deadline (R90). -/
structure Sample where
  out : Q17
  stages : Vector Biquad 8
  notch : Biquad
  clampDir : Int            -- sign of u - out
  sat : Nat                 -- stages that saturated
  notchSat : Bool
deriving DecidableEq, Repr

/-- A loop and the engine that runs it. -/
structure LoopSt where
  runner : Nat              -- global engine number (STATUS.phys_engine)
  onSpare : Bool
  st : EngState
  stages : Vector Biquad 8
  notch : Biquad
  out : Q17                 -- OUTPUT: driven at the last strobe
  inp : Q17                 -- INPUT: frozen at the last strobe
  prevOut : Q17             -- prev_out of R97
  clampDir : Int            -- clamp direction of the previous sample; 0 none
  sample : Option Sample    -- the sample in progress
  ovr : Q17                 -- the sequencer's override value, less any runout term
  cmd : Option EngCmd       -- commanded for the next sample boundary
  sampleIx : Nat
  misses : List Nat         -- sample indexes of recent misses, newest first
  excess : Bool             -- LOST reported for miss excess (R110)
  excessOver : Bool         -- the excess has ended; cleared by ON_TRACK
  needSpare : Bool          -- third miss detected at this deadline (R109)
  clearOnAdopt : Bool       -- state_action of the pending set (R105)
deriving DecidableEq, Repr

/-- A retired engine (R101). -/
structure RetiredEng where
  phys : Nat
  failed : Bool             -- its targeted self-test failed
deriving DecidableEq, Repr

/-- A move to a spare in progress (Table 04-3). -/
structure Move where
  loop : Fin 6
  fromEng : Nat
  toEng : Nat
  strobes : Nat             -- strobes since step 1
  driving : Bool            -- the original engine drives on until step 4 (R468)
deriving DecidableEq, Repr

/-! ### Focus sequencer (chapter 05) -/

inductive FocState | off | sweep | capture | identify | locked | jump | recapture | failed
deriving DecidableEq, Repr

/-- How far a crossing has come (R122). -/
inductive Crossing | none | sumSeen | feSeen
deriving DecidableEq, Repr

/-- The steps of Table 05-3 in which a layer step can stand. -/
inductive JumpPhase | saMove | kick | coast | brake | brakeBlind | lock | settle
deriving DecidableEq, Repr

/-- A layer jump in progress (R126–R128). -/
structure Jump where
  phase : JumpPhase
  deeper : Bool             -- d = +1
  held : Q17
  next : BitVec 5           -- the layer this step goes to
  saStart : Int
  saEnd : Int
  began : Nat               -- local ns at step 1
deriving DecidableEq, Repr

structure FocSt where
  st : FocState
  sl : Option (BitVec 5)    -- side-layer in focus (STATUS.side_layer; none is 0x1F)
  failCause : BitVec 2
  lossCount : Nat
  attempts : Nat            -- counted since the last entry into LOCKED
  target : Option (BitVec 5)
  corrections : Nat         -- after the jump under way (R128)
  crossing : Crossing
  lockRun : Nat             -- consecutive samples that meet the lock test
  headers : List (Nat × Option (BitVec 5))   -- the last 16 wedges' side-layer codes, newest first
  sumRef : BitVec 12
  sumAcc : Option (Nat × Nat)   -- samples left of 256 and their sum (R117)
  jump : Option Jump
  cancelJump : Bool         -- the request that started the jump was cancelled (Table 05-4)
  holdOn : Bool             -- defect hold (R129)
  holdGood : Nat
  feRun : Nat
  lastGood : Q17            -- last output before the hold or excursion began (R130)
  recapUp : Bool            -- the recapture ramp rises
  lossSl : Option (BitVec 5)    -- layer in focus before the loss (R131)
  lostReported : Bool       -- LOST reported since last LOCKED (R132)
  waitSpindle : Bool        -- the IDENTIFY timeout is paused (Table 05-4)
  began : Nat               -- local ns at which acquisition began
  lastStep : Nat            -- TIMES.last_step, µs
  lastAcq : Nat             -- TIMES.last_acq, 10 µs
  saRef : Int               -- SA_ref of R119
  tiltErrs : List (Option Int)  -- tilt errors of the last wedges, newest first (R133)
  tiltIn : Q17              -- tilt input, held between wedges
  tiltFree : Bool           -- the tilt loop has left its preset (R134)
  wantStart : Bool          -- a start waits for the head's axes to be homed (R199)
deriving DecidableEq, Repr

/-! ### Tracking sequencer and runout (chapter 06) -/

inductive TrkState | off | hold | acquire | confirm | follow | jump | seek | failed
deriving DecidableEq, Repr

/-- The steps of Table 06-2. -/
inductive LensPhase | kick | coast | brake | lock
deriving DecidableEq, Repr

structure LensJump where
  phase : LensPhase
  outward : Bool
  n : Nat
  held : Q17
  crossed : Nat
  began : Nat
  holdJump : Bool
deriving DecidableEq, Repr

/-- A seek in progress (R151, R152). -/
inductive SeekPhase | waitGrant | moving | settling
deriving DecidableEq, Repr

structure TrkSt where
  st : TrkState
  track : BitVec 18         -- last confirmed M0 track; 0x3FFFF none
  failCause : BitVec 2
  bias : Q17
  lockRun : Nat
  running : Bool            -- RUN began in ACQUIRE (R145)
  sinceCross : Nat          -- strobes since the last zero crossing of raw TE0
  lastSign : Option Bool    -- sign of raw TE0 at the last strobe
  expected : Option (BitVec 18) -- M0 track that the head should be on
  request : Option (BitVec 16)  -- tag of the POSITION under way
  beam : BeamId             -- its beam offset
  requested : Nat           -- local ns at which it was posted
  corrections : Nat
  agree : List (Nat × Option Int × BitVec 18)   -- last 16 wedges: usable M0 values (unwrapped over wedge 0), Gray of beam k
  turns : Nat               -- wedge-0 passes, for the unwrapping
  lens : Option LensJump
  seek : Option SeekPhase
  seekFrom : Int            -- sled position from which the seek was computed
  seekTrack : BitVec 18     -- M0 track there
  seekLens : Int            -- lens offset L there, tracks (R151)
  cancelled : Bool          -- the seek's request was cancelled (R152)
  offRun : Nat              -- consecutive samples beyond offtrack_level
  inhibit : Bool            -- HLEN*_N driven high by R149
  ek : Vector (Option Int) 4    -- last sampled error of each beam
  acc : Vector (Int × Nat) 4    -- sums of e_k - e_picot over the revolution, with their count
  beamOff : Vector Int 4    -- BEAM_OFF, /256
  noWrite : Bool            -- out of write service (R143)
  skewFree : Bool           -- the skew loop has left its preset (R142)
  ppWindow : Int            -- mean of pp over the last picot window
  picotNow : List (BeamId × Int)    -- usable e_k of the present wedge
  picotWedge : Nat
  sledMean : List Int       -- tracking output less runout at the last 720 wedges
  lastSeek : Nat
  lastJump : Nat
deriving DecidableEq, Repr

inductive TableState | none | active | learning | blending
deriving DecidableEq, Repr

/-- Per-wedge means kept for the learner: mean out, mean input, and whether the loop was in RUN throughout. -/
structure WedgeMean where
  out : Int
  inp : Int
  ok : Bool
deriving DecidableEq, Repr

/-- A key of the runout store (R160). -/
structure RunoutKey where
  disc : BitVec 128
  head : HeadId
  sl : BitVec 5
  loop : Fin 3
  cls : Bool                -- speed class 1
deriving DecidableEq, Repr

/-- The banks and the learner of one loop (R154–R161). Banks are sparse: an unlisted entry is 0. -/
structure Runout where
  active : Tab Q17
  shadow : Tab Q17
  retiring : Tab Q17
  table : TableState
  learning : Bool           -- a pass is in progress
  rebuild : Bool            -- it is a rebuild pass
  nextRebuild : Bool        -- the next pass is a rebuild pass
  conv : Nat
  updates : Nat
  maxUpdate : Nat
  swapPending : Bool
  blend : Option Nat        -- wedges since the swap
  fetching : Bool           -- a table fetch is pending (R161)
  fetched : Option (Tab Q17 × Option (Tab Q17) × Nat)   -- waits for wedge 0
  sumOut : Int
  sumIn : Int
  count : Nat
  ok : Bool
  means : List WedgeMean    -- newest first
  sqSum : Nat               -- sum of squares of the input in the first full revolution (R159)
  sqCount : Nat
  firstRev : Nat            -- 0 not begun, 1 in it, 2 done
  key : Option RunoutKey    -- the key whose banks are loaded
deriving DecidableEq, Repr

structure RunoutRec where
  key : RunoutKey
  table : Tab Q17
  shadow : Option (Tab Q17)
  conv : Nat
deriving DecidableEq, Repr

/-! ### A head -/

structure Head where
  lanes : Vector Lane 4
  coilOff : Nat             -- bit per coil whose bridge a fault disabled (R74)
  loops : Vector LoopSt 6   -- by Loop
  slot : Nat                -- the slot engine (R112), a global engine number
  slotOff : Bool            -- the slot engine is in OFF
  reserve : List Nat        -- reserve spares in the order in which they passed
  retired : List RetiredEng
  move : Option Move
  foc : FocSt
  trk : TrkSt
  runout : Vector Runout 3
  wedgeFrac : BitVec 16     -- fraction of the wedge period at the last strobe
  lost : Bool               -- the head is lost (R20)
  adopted : Tab Int         -- trims adopted from the calibration store (R21)
  temp : Int                -- last valid head temperature, 1/16 °C (R72)
  sensorFault : Bool
deriving DecidableEq, Repr

/-! ### Spindle drive (chapter 07) -/

inductive SpState | off | idle | sense | brake | align | ramp | run | coast | resync | stop | fault
deriving DecidableEq, Repr

structure Spindle where
  st : SpState
  atSpeed : Bool
  fwActive : Bool
  limited : Bool
  regen : Bool
  faultCause : BitVec 4
  lossCount : Nat
  grantWait : Bool
  speed : Int               -- 0.1 rpm, signed in the sense of R35
  ref : Int                 -- speed reference, 1/400 rpm, in the requested direction
  ramp : Int                -- ramp speed, 1/400 rpm
  rampAgree : Nat           -- consecutive PWM periods in agreement (R176)
  idRef : Int               -- mA
  iqRef : Int
  intD : Int                -- integrators, mA·µs
  intQ : Int
  intS : Int                -- output of the speed loop's integrator, nA
  vq : Int                  -- v_q of the last PWM period, µV
  cut : Bool                -- v_q is cut (R167)
  iErr : Nat                -- consecutive periods beyond ierr_level
  attempts : Nat            -- failed starts of this start
  revGood : Nat             -- revolutions within ±0.1 %
  revArmed : Bool           -- the first wedge 0 after RUN entry has passed
  revCount : Nat            -- PWM periods of the revolution that runs
  revAngle : Nat            -- turned angle since the count began, in 0.1 rpm × 25 µs
  losses : List Nat         -- local ns of losses in the last 60 s
  stopFault : Bool          -- STOP goes on to FAULT with faultCause set aside
  stopNext : Bool           -- STOP goes on to SENSE under the same grant
  started : Nat             -- local ns of the start
  lastStart : Nat
  coastBegan : Nat
  lastCoast : Nat
  iq : Int
  id : Int
  mod : Nat
  vin : Nat
  pIn : Int
  testPass : Option Bool    -- targeted self-test since FAULT: none running, some passed
  wantStart : Bool          -- a start request waits for its grant
deriving DecidableEq, Repr

/-! ### Stepper axes (chapter 08) -/

inductive AxState | off | disabled | hold | moving | homing | fault
deriving DecidableEq, Repr

/-- A pricking segment: its duration in µs, end position and end velocity (R200). -/
structure Seg where
  dur : Nat
  pos : Int
  vel : Int
deriving DecidableEq, Repr

/-- A constant-jerk phase of a transport profile: duration in ns and jerk in microsteps/s³. -/
structure Phase where
  dur : Nat
  jerk : Int
deriving DecidableEq, Repr

/-- A transport move: its start state, its phases and the time run (R206). -/
structure Profile where
  target : Int
  p0 : Int
  v0 : Int
  a0 : Int
  phases : List Phase
  t : Nat                   -- ns since its start
  thenTo : Option Int       -- a target that lies behind, taken up from rest
deriving DecidableEq, Repr

inductive HomeStep | toStop | hold | toLimit
deriving DecidableEq, Repr

/-- Which current of R194 is in force. -/
inductive CurrentSel | run | hold | home
deriving DecidableEq, Repr

/-- One phase's chopper (R195, R196). -/
structure Chop where
  setpoint : Int            -- mA, in force
  prev : Int                -- setpoint in force at the previous cycle's step 3
  fast : Nat                -- f of the cycle that runs, in sixteenths
  onTime : Nat              -- steps 1 to 3 of the cycle, ns
  offTime : Nat             -- t_off of the cycle, ns
  fastTime : Nat            -- f × t_off / 16, ns
deriving DecidableEq, Repr

structure Axis where
  st : AxState
  mode : Nat                -- STATUS.mode
  homed : Bool
  lostHome : Bool           -- unhomed by the loss of its domain (Table 21-3)
  faultCause : BitVec 3
  testPass : Option Bool
  pos : Int                 -- commanded position, microsteps
  frac : Int                -- remainder below a microstep, in 1/400,000 (velocity modes)
  vel : Int
  acc : Int
  prick : List Seg
  seg : Nat
  segT : Nat                -- ns run of the segment
  p0 : Int
  v0 : Int
  next : Option (List Seg)  -- taken at the next tick (R202)
  jumpSeg : Bool            -- the focus jump's segment runs (R205)
  velTarget : Int
  home : Option HomeStep
  cur : CurrentSel
  chop : Vector Chop 2
  profile : Option Profile
  stopping : Bool           -- brakes to rest
deriving DecidableEq, Repr

/-- A transport axis: the axis, its gear and its step input. -/
structure Transport where
  ax : Axis
  armed : Bool
  anchor : Int              -- geared target at the last ratio change, in 1/2^32 microsteps
  master : Int              -- master count at that change
  p : Int                   -- ratio in force, or its target during a blend
  q : Nat
  fromP : Int               -- ratio from which the blend runs
  fromQ : Nat
  blendLen : Nat            -- counts of the blend, 0 when none runs
  remaining : Int           -- step input distance not yet moved
  stepInterval : Nat        -- µs over which it is moved
  stepCount : BitVec 32     -- STEPCNT
  faultHold : Bool          -- refuses moves while another axis is in FAULT (R214)
deriving DecidableEq, Repr

/-- A quadrature encoder (R208). -/
structure Encoder where
  count : BitVec 32
  errors : Nat
  a : Bool
  b : Bool
  recent : Nat              -- errors in the present 1 ms
  recentBegan : Nat
  edgeA : Nat               -- local ns of the last edge of each line
  edgeB : Nat
deriving DecidableEq, Repr

/-! ### A bay -/

/-- Table 10-1. -/
inductive SessState | read | slowing | writing | resuming
deriving DecidableEq, Repr

structure Bay where
  requests : List MailReq
  reports : List Report
  spindle : Spindle
  wedge : Nat               -- the angle counter (R154)
  wedgeAbs : Nat            -- wedge boundaries passed since reset
  missed : Nat              -- marks in a row that are missing
  marks : Bool              -- a head reads wedge marks
  markSeen : Bool           -- a valid mark since the last wedge boundary
  disc : Option (BitVec 128)
  unusable : Bool           -- SEQ.STATUS.disc_unusable (R124)
  sess : SessState
  speedStep : Nat           -- read speed step n in force (R469)
deriving DecidableEq, Repr

end Sys2Proof.Machine
end

