-- ==== Sys2Proof/Machine/DataTypes.lean ====
section
/-! DEFINITION. The state of the data plane's disc side: read channels, write sessions, verification and extents, the decoder
pool and its ladder, mounts, the map and the per-disc store (chapters 09–11, 19). -/

namespace Sys2Proof.Machine

/-! ### Read channels (chapter 09) -/

/-- Table 09-4. -/
inductive BeamState | idle | acquire | track | coast | resync
deriving DecidableEq, Repr

/-- The start and running values of a beam's loops (Table 09-2). -/
structure LoopVals where
  gain : Nat                -- Q4.12
  pga : Nat                 -- 0.1875 dB
  offset : Int              -- 1/256 ADC LSB
  asym : Int                -- Q0.15
  taps : Vector Int 29      -- Q2.13
deriving DecidableEq, Repr

/-- The status of a delivered frame (R245). -/
inductive FrameStatus | synced | inferred | lost | blank | resliced
deriving DecidableEq, Repr

/-- A frame in the replay store (R244): its LLRs from 24 bits before its slicing point to 24 bits after its end. -/
structure Frame where
  head : HeadId
  beam : BeamId
  sl : BitVec 5
  frame : Nat
  status : FrameStatus
  mismatch : Bool
  alt : Option Int          -- recorded alternative slice (R242)
  offset : Int              -- re-slice offset
  marks : List (Nat × Nat)  -- first and last pair of each marked run (R232)
  data : List Int           -- the 1,024 data-bit LLRs delivered (R231)
  raw : List Int
deriving DecidableEq, Repr

/-- A frame that awaits its challenge (R242). -/
structure PendFrame where
  prov : Int                -- offset of the provisional position from the ordinary prediction
  mismatch : Bool
  blank : Bool
  raw : List Int
deriving DecidableEq, Repr

structure Beam where
  st : BeamState
  vals : LoopVals
  gain0 : Nat               -- the start value of the gain loop
  zone : Nat                -- zone of the window; 32 and 33 are the inner and the outer selvage
  freq : Int                -- offset from preset, 0.1 ppm
  warm : Tab LoopVals       -- warm sets by zone
  warmFor : Option (BitVec 128 × BitVec 5)   -- disc and side-layer of the warm sets
  set : Option (List Nat)   -- the CHAN group's values that the beam uses, while a window is open
  trims : Tab Int           -- trims that the beam has adopted
  sl : BitVec 5
  next : Nat                -- the frame whose sync is searched next
  last : Nat                -- the first frame beyond the window
  pred : Int                -- address at which that frame's sync mark is predicted (R239)
  recentre : Option Int     -- centre of its next search, from a header (R238)
  inferRun : Nat
  pend : Option PendFrame
  slips : Nat               -- STATUS.header_slip
  defect : Option Int       -- bit at which a defect was declared
  spans : List (Int × Int)  -- defect spans of the window, newest first
deriving DecidableEq, Repr

/-! ### Recording (chapter 10) -/

/-- A power-calibration result in the per-disc store (R260, R464). -/
structure OpcRes where
  sl : BitVec 5
  beam : BeamId
  outer : Bool
  power : Nat               -- µW
  track : Nat               -- first track of the run's turn
  head : HeadId
deriving DecidableEq, Repr

/-- A power-calibration run in progress (R258–R260). -/
structure OpcRun where
  sl : BitVec 5
  outer : Bool
  turn : Nat
  second : Vector Bool 4    -- the emitter's second run
  base : Vector Nat 4       -- P_k of the run, µW
  done : Vector Bool 4
deriving DecidableEq, Repr

/-- The recording side of a head. -/
structure WrHead where
  run : Option OpcRun
  due : List Bool           -- runs that are due, true for an outer run
  redo : Vector (Option Nat) 4  -- the power of a second run that is due, µW
  used : Tab Nat            -- turns used, by 2 × side-layer + outer
  lastTemp : Option Int     -- head temperature at the last run, 1/16 °C
  writeNs : Nat             -- write time since the last run
  hist : List Bool          -- whether each of the last 256 clusters failed verify, newest first
  lv3 : List (BitVec 5)     -- side-layers out of write service for LV3
  idle : Bool               -- session_idle has passed (Table 10-1)
  lv : Vector (Vector Nat 4) 4  -- levels of the open window, by beam
  stream : Bool             -- the window's streams have started
deriving DecidableEq, Repr

inductive ClusterSt | waiting | written | verified | failed
deriving DecidableEq, Repr

/-- One cluster of an extent in recording (R264, R266). -/
structure Cluster where
  place : Nat               -- its header frame
  reloc : Bool              -- written at a new place
  ok : BitVec 32            -- codewords verified at that place
  hdrOk : Bool
  st : ClusterSt
deriving DecidableEq, Repr

/-- A run of an extent: the write it holds, its blocks and where they lie in that write. -/
structure ExtRun where
  write : Nat
  first : Nat
  count : Nat
deriving DecidableEq, Repr

/-- A couching record in recording (R265, R269, R271). -/
structure RecSt where
  frame : Nat
  start : Nat               -- lead frame of the extent as fixed
  sl : BitVec 5
  relocs : List (Nat × Nat) -- cluster index and place, as fixed
  length : Nat              -- extent length as fixed
  stamp : Nat
  tries : Nat               -- verifications that failed
  verified : Bool
  amends : Bool             -- it amends an earlier record
deriving DecidableEq, Repr

inductive ExtPhase | open | waiting | recording | recordDue | recordOut | done | givenUp
deriving DecidableEq, Repr

/-- An extent from its first packing until it is on the medium or given up (R250–R252). -/
structure Extent where
  key : Nat                 -- the model's number of the extent
  seq : Option Nat          -- its extent sequence number, from its closing
  disc : BitVec 128
  head : HeadId
  sl : BitVec 5
  nsid : BitVec 32
  slot : Nat
  keyTag : BitVec 32
  runs : List ExtRun
  blocks : Nat
  start : Nat               -- lead frame
  area : Nat                -- 0 data band, 1 map checkpoint area
  clusters : List Cluster
  relocWrites : Nat
  retries : Nat
  tail : Nat                -- the first frame not used by the extent
  record : Option RecSt
  stood : Option RecSt      -- the last verified record while the extent is not complete (Table 10-3)
  prev : Option (BitVec 5 × Nat)    -- record before it (R252)
  phase : ExtPhase
  dead : List Nat           -- writes that its outcome fails (R275, chapter 15)
deriving DecidableEq, Repr

/-! ### Decoding (chapter 11) -/

inductive DecState | active | spare | retired | failed
deriving DecidableEq, Repr

structure Decoder where
  st : DecState
  job : Option Nat          -- the codeword it decodes
  count : Nat               -- DEC[i].codewords
deriving DecidableEq, Repr

/-- Where a codeword stands. -/
inductive CwPhase
  | collecting              -- its frames are awaited
  | ready                   -- in the ready queue, first pass
  | decoding (i : Nat)      -- on a decoder
  | ladder                  -- waits for its step's decode or re-read
  | converged
  | failed                  -- step 7
deriving DecidableEq, Repr

/-- A codeword wanted by a read or a mount (R282–R290). -/
structure Codeword where
  id : Nat
  head : HeadId
  disc : BitVec 128
  sl : BitVec 5
  cluster : Nat             -- header frame of its cluster
  c : Nat                   -- codeword of the cluster
  extent : Nat              -- extent sequence number
  index : Nat               -- cluster index
  cmd : Option Nat          -- the command that wants it
  block : Nat               -- block of that command
  half : Nat                -- which half of the block
  phase : CwPhase
  step : Nat                -- ladder step, 0 on the first pass
  at_ : Nat                 -- local ns at which its last frame came, or at which it entered its ladder step
  aged : Bool               -- ladder_age has passed
  set : Option (List Nat)   -- the DECODE set it keeps to the end of its step
  rereads : Nat
  trials : Nat              -- re-slice trials made
  point : Nat               -- sweep point under way
  stop : Bool               -- its read was cancelled (Table 11-8)
  info : List Byte
deriving DecidableEq, Repr

/-- An offset sweep on a head (R288). -/
structure Sweep where
  cw : Nat
  point : Nat
  base : Tab Int            -- the trims before the sweep
  settling : Bool
deriving DecidableEq, Repr

/-- MOUNT.mstate. -/
inductive MountState | none | mounting | mounted | readOnly
deriving DecidableEq, Repr

/-- The mount of a bay's disc (R292–R299) and what it keeps of the disc. -/
structure Mount where
  st : MountState
  stage : Nat
  roCause : Nat
  differ : Bool             -- copies of G differed
  rolled : Bool
  changed : Bool            -- stages 5–7 changed the map or a high-water frame
  lacking : Bool            -- an area lacks a valid copy of G
  copies : List AnchorIn    -- the valid copies found by stage 2
  generation : Nat
  highestSeq : Nat
  covered : Nat
  standing : Option AnchorIn
  lower : List AnchorIn     -- standing contents of lower generations, highest first
  highWater : Vector Nat 24
  lastRec : Vector (Option Nat) 24
  records : List RecordIn   -- found by stages 5 and 6
  entries : List CkptEntryIn
  ckpt : Option (BitVec 5 × Nat)
  prevRec : Option (BitVec 5 × Nat)     -- last couching record in order (R252)
  sinceAnchor : Nat         -- extents
  sinceCkpt : Nat
  anchorDue : Bool
  ckptDue : Bool
  full : List (BitVec 5)    -- side-layers that have reached their reserve
  unloadAsked : Bool        -- during a mount (Table 11-8)
deriving DecidableEq, Repr

/-- A run of the map. -/
structure MapRun where
  nsid : BitVec 32
  first : Nat
  count : Nat
  disc : BitVec 128
  sl : BitVec 5
  recFrame : Nat            -- the standing couching record
  offset : Nat              -- first block within the extent
  keyTag : BitVec 32
  seq : Nat
  start : Nat               -- lead frame
  clusters : Nat
  relocs : List (Nat × Nat)
deriving DecidableEq, Repr

/-- An entry of the per-disc store (R464). -/
structure DiscEntry where
  disc : BitVec 128
  deltas : Tab Int          -- by 4 × side-layer + trim code
  opc : List OpcRes
deriving DecidableEq, Repr

end Sys2Proof.Machine
end

