-- ==== Sys2Proof/Machine/DataReset.lean ====
section
/-! DEFINITION. The state of the data plane's disc side right after reset (Tables 09-7, 10-5, 11-9). -/

namespace Sys2Proof.Machine

/-- The BEAM values after reset: gain 1.0, the centre tap 1.0, all else 0 (Table 09-7). -/
def LoopVals.reset : LoopVals where
  gain := 0x1000
  pga := 0
  offset := 0
  asym := 0
  taps := Vector.ofFn (fun i : Fin 29 => if i.val = 7 then 0x2000 else 0)

def Beam.reset : Beam where
  st := .idle
  vals := LoopVals.reset
  gain0 := 0x1000
  zone := 0
  freq := 0
  warm := []
  warmFor := none
  set := none
  trims := []
  sl := 0
  next := 0
  last := 0
  pred := 0
  recentre := none
  inferRun := 0
  pend := none
  slips := 0
  defect := none
  spans := []

def WrHead.reset : WrHead where
  run := none
  due := []
  redo := Vector.replicate 4 none
  used := []
  lastTemp := none
  writeNs := 0
  hist := []
  lv3 := []
  idle := true
  lv := Vector.replicate 4 (Vector.replicate 4 0)
  stream := false

/-- Decoders 0–17 are active, 18 and 19 are spares (R279). -/
def Decoder.reset (i : Nat) : Decoder := ⟨if i < 18 then .active else .spare, none, 0⟩

def Mount.reset : Mount where
  st := .none
  stage := 0
  roCause := 0
  differ := false
  rolled := false
  changed := false
  lacking := false
  copies := []
  generation := 0
  highestSeq := 0
  covered := 0
  standing := none
  lower := []
  highWater := Vector.replicate 24 0
  lastRec := Vector.replicate 24 none
  records := []
  entries := []
  ckpt := none
  prevRec := none
  sinceAnchor := 0
  sinceCkpt := 0
  anchorDue := false
  ckptDue := false
  full := []
  unloadAsked := false

end Sys2Proof.Machine
end

