-- ==== Sys2Proof/Machine/HostTypes.lean ====
section
/-! DEFINITION. The state of the data plane's host side: the endpoint, queues, doorbell lines and commands, the self-test of a
command, buffers and quotas, and the context cache (chapters 12–14). -/

namespace Sys2Proof.Machine

/-! ### Endpoint (chapter 12) -/

structure Endpoint where
  active : Bool             -- the data link is in DL_Active
  vfEnable : Bool           -- VF Enable of the SR-IOV capability
  edtWrites : Nat           -- EDT writes since the start (R314)
  edt : List Byte           -- the EDT in the expansion ROM; empty where the ROM reads 0 (R310, R481)
deriving DecidableEq, Repr

/-! ### Queues (chapter 13) -/

/-- FUNC.state (Table 13-11). -/
inductive FState | detached | attaching | attached | detaching
deriving DecidableEq, Repr

/-- A function's attachment and its place in the arbitration. -/
structure Func where
  st : FState
  attachLo : Nat            -- address bits of the last ATTACH_LO
  sqDb : Nat
  cqDb : Nat
  credit : Nat              -- commands fetched in the present round (R339)
  lastNormal : Nat          -- local SQ served last in the normal class
  lastUrgent : Nat          -- local SQ served last in the urgent class
  burst : Nat               -- commands fetched from it in its present turn
  grace : Option Nat        -- local ns at which the DETACH grace began
deriving DecidableEq, Repr

structure Sq where
  f : FuncId
  q : Nat
  base : Nat
  size : Nat
  cq : Nat
  urgent : Bool
  head : Nat
  tail : Nat
  seq : Nat
  error : Bool
  deleting : Option Nat     -- the DELETE_SQ command that waits (R349)
  nextWrite : Bool          -- its next command is a WRITE that met the overlap table full (R339)
deriving DecidableEq, Repr

/-- A completion entry as it will be written (Table 13-6), less its phase. -/
structure Entry where
  result : Nat
  sq : Nat
  sqHead : Nat
  cid : Nat
  status : Nat              -- class × 256 + code
  logged : Bool
  time : BitVec 64
  firstFail : Nat
  cmd : Option Nat          -- the command that it ends, none for a doorbell error (R329)
deriving DecidableEq, Repr

structure Cq where
  f : FuncId
  q : Nat
  base : Nat
  size : Nat
  vector : Nat
  aggCount : Nat
  aggTime : Nat
  head : Nat
  tail : Nat
  phase : Bool
  seq : Nat
  error : Bool
  held : List Entry         -- oldest first, while the CQ is full (R336)
  unsig : Nat               -- entries written since the last message
deriving DecidableEq, Repr

/-- A doorbell line of an attached function (R330, R331). -/
structure Line where
  f : FuncId
  sq : Bool
  line : Nat
  interval : Nat            -- in 10 ns
  idle : Nat                -- polls at poll_max that found nothing
  parking : Bool            -- wake is written; the re-read is awaited
  parked : Bool
deriving DecidableEq, Repr

/-- Where a block of a READ comes from (R342). -/
inductive Src
  | buffer (write : Nat)    -- the buffer of an outstanding write
  | disc (b : BitVec 128) (sl : BitVec 5) (cluster index blk seq : Nat) (keyTag : BitVec 32)
  | none                    -- no write covers it
deriving DecidableEq, Repr

/-- A block of a READ. -/
structure RBlock where
  src : Src
  mapSrc : Src              -- what the map named at the fetch (R342)
  lo : Option (List Byte)   -- first half of the ciphertext as decoded
  hi : Option (List Byte)
  tag : BitVec 32           -- key tag of that ciphertext (R412)
  alt : Option (Nat × BitVec 32 × List Byte)    -- an earlier write that ended since the fetch: its number, tag and data (R342)
  asked : Bool              -- its codewords are posted
  posted : Bool             -- its cipher request is posted
  data : Option (List Byte) -- plaintext
  failed : Nat              -- status, 0 for none
deriving DecidableEq, Repr

/-- A buffer that a command holds: pool and index. -/
structure BufRef where
  pool : Fin 16
  index : Nat
deriving DecidableEq, Repr

/-- The stages of Table 13-8. -/
inductive Stage
  | held                    -- waits on a quota, a pool, a fence, a mount or a table
  | running                 -- fetched; its data are not all in DRAM
  | dataIn                  -- a write whose data are all in DRAM
  | ended                   -- its entry is not yet written
deriving DecidableEq, Repr

/-- A unit of a write: `gone` once it is given up (R267). -/
inductive UnitSt | todo | posted | done | gone
deriving DecidableEq, Repr

/-- A fetched command, until its entry is written or it is dropped and its extents are done. -/
structure Cmd where
  id : Nat
  req : Nat                 -- the requester of its buffers (R355)
  f : FuncId
  sq : Nat
  sqHead : Nat
  admin : Bool
  e : EntryIn
  stage : Stage
  noPost : Bool             -- never posted (Table 13-8)
  status : Nat
  result : Nat
  firstFail : Nat
  logged : Bool
  endTime : BitVec 64
  endNo : Nat               -- its place in the order in which commands ended (R336)
  fence : List Nat          -- fences that it waits under, and detached writes that it overlaps (R321, R344)
  parts : List (Fin 16)     -- pools of its parts, in order (R360)
  charge : Nat              -- quota charge in 4 KiB
  charged : Bool
  bufs : List BufRef        -- taken so far
  blocks : List RBlock      -- of a READ
  units : List UnitSt       -- of a WRITE
  keyTag : BitVec 32        -- tag of the key that enciphered its units
  detached : Bool           -- recorded on after a surprise removal (R318)
  placed : Bool             -- the WRITE's parts are placed in extents
  extentsLeft : Nat         -- extents of a WRITE not yet on the medium
  discs : List (BitVec 128) -- discs that a WRITE touched
  mirrorLeft : Nat          -- messages without MIRROR_DONE
  mirrorStatus : Nat        -- first outcome of Table 17-4 that is not success
  waitFor : List Nat        -- earlier commands that a FLUSH or FENCE waits for
  anchors : List (BitVec 128)   -- discs whose generation a FLUSH waits for
  chain : Option Nat        -- a mirror message recorded for a peer (R437)
deriving DecidableEq, Repr

/-- Arbitration between functions (R339). -/
structure Arb where
  urgentRun : Nat
  lastUrgent : Nat          -- function served last
  lastNormal : Nat
  paused : Bool             -- stopped for firmware activation (R348)
  ended : Nat               -- commands ended (the model's count)
deriving DecidableEq, Repr

/-- The self-test of SELF_TEST (R351, R352). -/
structure SelfTest where
  cmd : Nat
  extended : Bool
  suspended : Bool
  began : Nat               -- local ns of the last start or resume
  ran : Nat                 -- ns of test time before it
deriving DecidableEq, Repr

/-! ### Buffers (chapter 14) -/

/-- An allocated buffer (R365). -/
structure Buf where
  ref : BufRef
  requester : Nat
  owners : List Owner       -- release mode 0
  count : Nat               -- release mode 1
  cmd : Option Nat
deriving DecidableEq, Repr

/-- A part that waits on a pool (R362). -/
structure PoolWait where
  pool : Fin 16
  cmd : Nat
  requester : Nat
deriving DecidableEq, Repr

/-- What a chain message or an internal user holds of a quota is in `held`; waits are the commands held on it. -/
structure Quota where
  held : Nat
  peak : Nat
deriving DecidableEq, Repr

/-! ### Context cache (chapter 14) -/

structure CLine where
  line : Nat                -- DRAM address / 64
  dirty : Bool
  data : List Byte
deriving DecidableEq, Repr

structure Victim where
  line : Nat
  data : List Byte
  issued : Bool             -- its DRAM write has been issued
  dropped : Bool            -- it does not serve requests any more (R371, Table 14-3)
deriving DecidableEq, Repr

structure Stream where
  client : CacheClient
  region : Nat
  last : Nat                -- its last stored line
  run : Nat
  bypass : Bool
deriving DecidableEq, Repr

/-- The operation that runs (R373, R375, R381). -/
inductive CacheOp
  | preload (base lines : Nat) (ways : Nat) (lock : Bool)
  | clean (base lines : Nat)
  | invalidate (base lines : Nat)
  | cleanAll
deriving DecidableEq, Repr

structure Cache where
  lines : Tab CLine         -- by 16 × set + way
  lru : Tab Nat             -- 15 tree bits by set
  victims : List Victim
  streams : List Stream     -- most recently used first
  locked : Nat              -- way mask
  powered : Nat             -- ways on
  draining : Nat
  op : Option CacheOp
deriving DecidableEq, Repr

end Sys2Proof.Machine
end

