-- ==== Sys2Proof/Machine/PlatformTypes.lean ====
section
/-! DEFINITION. The state of memory, cipher engine, chain port, calibration, NV image and management (chapters 15–17, 19, 20). -/

namespace Sys2Proof.Machine

/-! ### DRAM (chapter 15) -/

/-- Table 15-2. -/
inductive DramState | off | training | active | switching | frozen | diagnose | resilver | failed
deriving DecidableEq, Repr

/-- A throttled class of a bank (R392). -/
structure Throttle where
  bank : Nat
  cls : Nat
  windows : Nat             -- tREFI windows left
deriving DecidableEq, Repr

structure DramCh where
  st : DramState
  set : Nat                 -- active_set
  mismatch : Bool
  imt : Nat
  mmt : Nat
  attempts : Nat            -- failed training attempts
  freezes : List Nat        -- local ns of entries into FROZEN in the last 24 h
  rejoin : Bool             -- its next training is followed by RESILVER (Table 15-6)
  fresh : List Nat          -- bursts written since RESILVER began (R401)
  raa : Tab Nat             -- rolling accumulated activation count by bank (R390)
  throttles : List Throttle
  scrubPos : Nat            -- the scrubber's next burst
deriving DecidableEq, Repr

/-- An entry of the CE table (Table 15-8). -/
structure CeEntry where
  addr : Nat
  sram : Bool
  source : BitVec 16
  devices : Nat
  bytes : Nat
  count : Nat
  time : BitVec 64
deriving DecidableEq, Repr

/-- A correctable error attributed to a device (R405). -/
structure DevErr where
  chan : DramChan
  rank : Nat                -- 2 × subchannel + rank
  device : Nat
  burst : Nat
  at_ : Nat
deriving DecidableEq, Repr

/-! ### Cipher engine (chapter 16) -/

inductive CipherState | off | keygen | ready | alarm
deriving DecidableEq, Repr

/-- A key-slot record (Table 16-1), less its reserved bytes and CRC. -/
structure SlotRec where
  state : Nat               -- 0 EMPTY, 1 LOADED, 2 LOST
  owner : Nat
  bound : Nat
  tag : BitVec 32
  epoch : Nat
  wrapped : List Byte       -- 72 bytes
  time : BitVec 64
deriving DecidableEq, Repr

/-- A cipher request (R417). -/
structure CipherReq where
  id : Nat
  cmd : Nat
  decrypt : Bool
  slot : Nat
  nsid : BitVec 32
  lba : Nat
  buffer : Nat
  data : List Byte
  fences : Nat              -- cores that it has fenced
deriving DecidableEq, Repr

inductive CoreState | active | testing | fenced
deriving DecidableEq, Repr

structure CipherCore where
  st : CoreState
  job : Option CipherReq
  again : Bool              -- it computes the unit a second time (R418)
  units : Nat
deriving DecidableEq, Repr

/-- A KEY operation that waits (R422, Table 16-4). -/
structure KeyOp where
  cmd : Nat
  slot : Nat
  load : Option (List Byte × Nat)   -- key and owner of a LOAD, none for an ERASE
  from_ : Nat               -- requests of the slot from this number on are held
deriving DecidableEq, Repr

structure Cipher where
  st : CipherState
  cause : BitVec 4
  active : BitVec 4
  alarmHeld : Bool          -- ALARM stood at a switch-off of PD16 (R415)
  kek : Option (List Byte)
  epoch : Nat
  queue : List CipherReq    -- oldest first; those beyond 4,096 are held outside
  cache : List (Nat × List Byte)    -- slot and key, most recently used first
  fetching : List Nat       -- slots whose records are being fetched
  cores : Vector CipherCore 8
  nextId : Nat
  ops : List KeyOp
deriving DecidableEq, Repr

/-- A namespace (R422). -/
structure Ns where
  nsid : BitVec 32
  owner : Nat
  slot : Nat
  limit : Nat
  floor : Nat
deriving DecidableEq, Repr

/-! ### Chain port (chapter 17) -/

/-- The port states of R426 are those of Table 03-7. -/
inductive PortState | down | train | up | failed
deriving DecidableEq, Repr

/-- A sent packet that can be replayed (R432). -/
structure Sent where
  seq : Nat
  bytes : List Byte
  replays : Nat
deriving DecidableEq, Repr

structure PortSt where
  st : PortState
  attempts : Nat
  lanes : Nat
  good : Nat                -- valid keepalives in a row, in TRAIN
  txSeq : Nat               -- next link sequence
  rxSeq : Nat               -- next link sequence expected
  sent : List Sent          -- newest first, at most 256
  seen : Tab Nat            -- hops by module ID
deriving DecidableEq, Repr

/-- An outstanding request of the module (R430). -/
structure ChainReq where
  tag : Nat
  type : Nat
  cmd : Option Nat
deriving DecidableEq, Repr

/-- A mirror message at its origin (R436–R438). -/
structure MirrorMsg where
  num : Nat
  entry : Nat               -- MIRROR[m]
  peer : Nat                -- the entry as it stood at the fetch of the write (Table 17-6)
  base : Nat
  slots : Nat
  slot : Option Nat         -- the peer slot, once sent
  cmd : Nat
  part : Nat                -- which part of the write
  buf : Option Nat          -- DRAM address of the buffer in which its data rest, once sent (R367)
  done : Bool               -- its outcome is decided, and its slot is not yet free (R438)
deriving DecidableEq, Repr

/-- A mirror message at the peer (R437). -/
structure PeerMsg where
  origin : Nat
  num : Nat
  slot : Nat
  nsid : BitVec 32
  keyTag : BitVec 32
  first : Nat
  count : Nat
  need : Nat                -- data bytes announced
  got : List Byte
  whole : Bool
  cmd : Option Nat          -- the internal write that records it
  answer : Option Nat       -- status of the MIRROR_DONE that was sent
deriving DecidableEq, Repr

structure Chain where
  ports : Vector PortSt 2
  nonces : List Nat         -- nonces of the module's own HELLOs
  ring : Bool               -- its own HELLO has returned through the other port
  downLinks : List (Nat × Nat)      -- links of the ring that are reported down, by the IDs of their ends
  dupId : Bool
  epoch : Nat
  reqs : List ChainReq
  nextTag : Nat
  msgs : List MirrorMsg     -- outstanding, in message order
  nextMsg : Nat
  peers : List PeerMsg
  locked : Nat              -- exchanges in a row within ±20 ns, up to 8
  masters : List Nat        -- other modules known as time masters
  offset : Int              -- TIME_ERR
deriving DecidableEq, Repr

/-! ### Calibration and ageing (chapter 19) -/

/-- A trial of a trim on a head (R466). -/
inductive TrialPhase | plus | minus | judge
deriving DecidableEq, Repr

structure Trial where
  key : Nat                 -- trim key
  phase : TrialPhase
  base : Int                -- value before the trial
  dither : Int
  fraction : Nat            -- low-margin fraction of the + phase
  before : Nat              -- mean syndrome weight before the change
deriving DecidableEq, Repr

structure CalibSt where
  sets : Tab (Vector Int 5) -- head sets by trim key (R462)
  trials : Tab Trial        -- by head
  temps : Tab Int           -- head temperature at the last trim commit, 1/16 °C
  changed : Bool            -- head sets changed since the last NV write
  lastSetWrite : Option Nat -- local ns
  limits : Vector Nat 8     -- read speed step that speed_limited set for each bay (R469)
  waits : Tab Nat           -- by margin: local ns before which it is not evaluated
  good : Tab Nat            -- by margin: local ns since which it is at or above its recover level
  vcore : Nat               -- steps of the core voltage
  decoderSteps : Nat        -- speed steps taken for decoder capacity
  bases : Tab Nat           -- trend baselines by trend number
  trends : Tab Nat          -- 1 warn, 2 limit, by trend number
deriving DecidableEq, Repr

/-! ### NV image and management (chapter 20) -/

/-- A boot record (R480). -/
structure BootRec where
  kind : Nat
  reason : Nat
  copy : Nat
  gen : Nat
  start : Nat
deriving DecidableEq, Repr

/-- A section of an image copy (R475). -/
structure Section where
  type : Nat
  data : List Byte
deriving DecidableEq, Repr

/-- What a valid copy says. -/
structure Image where
  gen : Nat
  version : Nat             -- firmware version
  time : Nat
  crc : Nat                 -- content CRC
  sections : List Section
deriving DecidableEq, Repr

structure Nv where
  copies : Vector (List Byte) 2     -- the programmed bytes of each copy; beyond them the flash reads 0xFF
  inForce : Option (Fin 2)
  fwCopy : Option (Fin 2)   -- the copy whose FIRMWARE the module runs
  img : Option Image        -- the image that the present start read, none where it runs without one
  hostCopy : Option (Fin 2) -- last programmed by host software since the start
  gen : Nat                 -- generation in force
  absent : Bool
  noFlash : Bool            -- the last start found no usable flash (Table 20-6, 0x03)
  programming : Option (Fin 2 × List Byte × Bool)    -- target, its new content, by host software
  hold : Option MgmtPath    -- the path that holds the image (R488)
  holdAt : Nat
  pieces : List Byte
  dueOwned : Bool           -- module-owned content has changed
  lastOwned : Option Nat    -- local ns of the last module-initiated generation
  boot : List BootRec       -- oldest first
  starts : Nat              -- start number of the present start
deriving DecidableEq, Repr

/-- The buffers and status of a management path (R485, R486). -/
structure PathSt where
  request : List Byte       -- the mailbox's request buffer, or the sideband's request under construction
  running : List Byte       -- the request that runs
  response : List Byte
  given : Nat               -- bytes of the response already read (sideband)
  busy : Bool
  done : Bool
  pec : Bool
  overrun : Bool
deriving DecidableEq, Repr

/-- Metering (R489, R491). -/
structure Meter where
  counters : Tab (Vector Nat 5)     -- by function, in the order of Table 20-9
  restored : List Nat       -- functions restored from a snapshot since the last read
  snap : Option (Nat × BitVec 64 × Tab (Vector Nat 5))   -- sequence, time and counters of the latest snapshot
  lastAt : Nat              -- local ns up to which mounted time has accrued
  busyFrom : Tab Nat        -- by head: local ns of the POSITION whose window has not closed
deriving DecidableEq, Repr

/-- A firmware activation (R484). -/
structure FwAct where
  cmd : Nat
  copy : Fin 2
  version : BitVec 32
deriving DecidableEq, Repr

structure Mgmt where
  mbox : PathSt
  smb : PathSt
  fw : BitVec 32            -- GLOBAL.FW_VERSION
  oldFw : BitVec 32         -- the firmware before the activation, to which a watchdog expiry reverts
  oldCopy : Option (Fin 2)  -- and its copy
  act : Option FwAct
  coreB : Bool              -- core B holds management
  newAct : Bool             -- the window before step 7 is open
  startStep : Nat           -- last step of Table 20-5 that has passed
  started : Bool
  reason : Nat              -- GLOBAL.START reason
deriving DecidableEq, Repr

end Sys2Proof.Machine
end

