-- ==== Sys2Proof/Machine/HostReset.lean ====
section
/-! DEFINITION. The state of the host side, memory, cipher, chain, calibration and management right after reset: the OFF states and
Bare values of the spec; what the spec does not state is the model's (DESIGN CHOICE, log entry 2). -/

namespace Sys2Proof.Machine

def Endpoint.reset : Endpoint := ⟨true, false, 0, []⟩

/-- The value of a function that is not listed. -/
def Func.reset : Func := ⟨.detached, 0, 0, 0, 0, 0, 0, 0, none⟩

def Arb.reset : Arb := ⟨0, 0, 0, false, 0⟩

def Cache.reset : Cache := ⟨[], [], [], [], 0, 0xFFFF, 0, none⟩

def DramCh.reset : DramCh := ⟨.off, 0, false, 0, 0, 0, [], false, [], [], [], 0⟩

def Cipher.reset : Cipher :=
  ⟨.off, 0, 0, false, none, 0, [], [], [], Vector.replicate 8 ⟨.active, none, false, 0⟩, 0, []⟩

/-- The record of a slot that is not listed: EMPTY with no namespace bound (R414, R422). -/
def SlotRec.empty : SlotRec := ⟨0, 0, 0, 0, 0, List.replicate 72 0, 0⟩

def PortSt.reset : PortSt := ⟨.down, 0, 0, 0, 0, 0, [], []⟩

def Chain.reset : Chain :=
  ⟨Vector.replicate 2 PortSt.reset, [], false, [], false, 0, [], 0, [], 0, [], 0, [], 0⟩

def CalibSt.reset : CalibSt := ⟨[], [], [], false, none, Vector.replicate 8 0, [], [], 0, 0, [], []⟩

def Nv.reset : Nv := ⟨Vector.replicate 2 [], none, none, none, none, 0, false, false, none, none, 0, [], false, none, [], 0⟩

def PathSt.reset : PathSt := ⟨[], [], [], 0, false, false, false, false⟩

def Meter.reset : Meter := ⟨[], [], none, 0, []⟩

def Mgmt.reset : Mgmt := ⟨PathSt.reset, PathSt.reset, 0, 0, none, none, false, false, 0, false, 0⟩

end Sys2Proof.Machine
end

