-- ==== Sys2Proof/Machine/Registers.lean ====
section
/-! DEFINITION. The register map (chapter 21): access classes (R7), fields with their reset values (R6), the blocks and
their bases (Tables 21-1, 21-2), and one definition per field of every register table of the spec. A field's `factory` value
is what it holds after start-up without an image value, `bare` what it holds from reset release (R6). -/

namespace Sys2Proof.Machine

/-- The access classes of Table 00-3. -/
inductive Access | ro | w1c | w1s | wo | rwl | rws | rwi
deriving DecidableEq, Repr

/-- One field of a register table: the word's offset in its sub-block, lowest bit, width, access class, Factory and Bare values. -/
structure Field where
  off : Nat
  lo : Nat
  width : Nat
  cls : Access
  factory : Nat
  bare : Nat
deriving DecidableEq, Repr

/-- The class of a stepper axis (Table 08-1). -/
inductive AxisKind | sled | sa | transport
deriving DecidableEq, Repr

/-- The value of a class's column in a "sled / SA / transport" entry of Table 08-7. -/
def AxisKind.pick {α : Type} (k : AxisKind) (a b c : α) : α :=
  match k with
  | .sled => a
  | .sa => b
  | .transport => c

/-- The allowance of a domain in mW, Table 18-3 (20 is AON). -/
def allowance (d : Nat) : Nat :=
  if d < 8 then 4500 else if d < 12 then 500 else if d = 12 then 4000 else if d < 15 then 4000
  else if d = 15 then 8000 else if d = 16 then 3000 else if d = 17 then 2000 else if d = 18 then 3000
  else if d = 19 then 1000 else if d = 20 then 3000 else 0

/-- The register blocks and sub-blocks of Tables 21-1 and 21-2, an instance of an indexed register group being a block of its own. -/
inductive Blk
  | global | power | timebase | mgmt | nvimage | queue | bufpool | ccache
  | dramc (c : DramChan) | memprot | cipher | chain | decode | calib | selftest
  | spindle (b : BayId) | seq (b : BayId) | foc (g : HeadId) | trk (g : HeadId) | wr (g : HeadId)
  | eng (g : HeadId) (e : EngId) | sled (g : HeadId) | sa (g : HeadId)
  | chan (g : HeadId) | beam (g : HeadId) (k : BeamId) | vchan (g : HeadId) | link (g : HeadId)
  | taxis (n : Fin 4) | enc (i : Fin 2) | zone (b : BayId)
  | func (f : FuncId) | pool (p : Fin 16) | quota (r : ReqId) | region (i : Fin 3)
  | tset (c : DramChan) (n : Fin 2) | mirror (i : Fin 8) | ce (i : Fin 32) | win (w : Fin 64) | cmirror (m : Fin 64)
deriving DecidableEq, Repr

/-- The base of BAY[b] (Table 21-1). -/
def bayBase (b : Nat) : Nat := 0x00800000 + b * 0x00100000

/-- The base of HEAD[h] of global head g (Table 21-2). -/
def headBase (g : Nat) : Nat := bayBase (g / 2) + 0x40000 + (g % 2) * 0x40000

/-- The BAR0 offset of a block (Tables 21-1 and 21-2, R218, R354, and the offsets that the register tables' rules give). -/
def Blk.base : Blk → Nat
  | .global => 0x00000000
  | .power => 0x00010000
  | .timebase => 0x00020000
  | .mgmt => 0x00030000
  | .nvimage => 0x00040000
  | .queue => 0x00100000
  | .bufpool => 0x00180000
  | .ccache => 0x001C0000
  | .dramc .a => 0x00200000
  | .dramc .b => 0x00240000
  | .memprot => 0x00280000
  | .cipher => 0x00300000
  | .chain => 0x00380000
  | .decode => 0x00400000
  | .calib => 0x01100000
  | .selftest => 0x01200000
  | .spindle b => bayBase b
  | .seq b => bayBase b + 0x8000
  | .foc g => bayBase (g.val / 2) + 0x8400 + (g.val % 2) * 0x100
  | .trk g => bayBase (g.val / 2) + 0x8600 + (g.val % 2) * 0x100
  | .wr g => bayBase (g.val / 2) + 0x8800 + (g.val % 2) * 0x100
  | .eng g e => headBase g + e.val * 0x400
  | .sled g => headBase g + 0x3000
  | .sa g => headBase g + 0x5000
  | .chan g => headBase g + 0x8000
  | .beam g k => headBase g + 0x8400 + k.val * 0x200
  | .vchan g => headBase g + 0xA000
  | .link g => headBase g + 0xC000
  | .taxis n => 0x01000000 + n.val * 0x200
  | .enc i => 0x01001000 + i.val * 0x20
  | .zone b => 0x01001100 + b.val * 8
  | .func f => 0x00101000 + f.val * 0x10
  | .pool p => 0x00180100 + p.val * 0x20
  | .quota r => 0x00181000 + r.val * 0x10
  | .region i => 0x001C0020 + i.val * 0x10
  | .tset c n => (if c = .a then 0x00200040 else 0x00240040) + n.val * 0x20
  | .mirror i => 0x00280040 + i.val * 0x10
  | .ce i => 0x00280100 + i.val * 0x20
  | .win w => 0x00380100 + w.val * 0x20
  | .cmirror m => 0x00380900 + m.val * 0x10

/-! ### LINK: Table 03-11 -/
namespace LINK
def lane_enable : Field := ⟨0, 0, 4, .rwi, 0xf, 0⟩
def laser_permit : Field := ⟨0, 4, 1, .rwl, 1, 0⟩
def retrain : Field := ⟨0, 5, 1, .wo, 0, 0⟩
def clear_counts : Field := ⟨0, 6, 1, .wo, 0, 0⟩
def retrain_limit : Field := ⟨0, 8, 3, .rwl, 3, 3⟩
def lane_state : Field := ⟨4, 0, 8, .ro, 0, 0⟩
def underrun : Field := ⟨4, 8, 4, .w1c, 0, 0⟩
def word_error : Field := ⟨4, 12, 4, .w1c, 0, 0⟩
def over_power : Field := ⟨4, 16, 4, .w1c, 0, 0⟩
def emitter_fault : Field := ⟨4, 20, 4, .w1c, 0, 0⟩
def frame_error : Field := ⟨4, 24, 4, .w1c, 0, 0⟩
def code_errors : Field := ⟨8, 0, 16, .ro, 0, 0⟩
def frame_errors : Field := ⟨8, 16, 16, .ro, 0, 0⟩
/-- Every field of the LINK registers, in the order of Table 03-11. -/
def fields : List Field :=
  [lane_enable, laser_permit, retrain, clear_counts, retrain_limit, lane_state, underrun, word_error, over_power, emitter_fault, frame_error, code_errors, frame_errors]
end LINK

/-! ### ENG: Table 04-5 -/
namespace ENG
def enable : Field := ⟨0, 0, 1, .rwl, 1, 0⟩
def spare_permit : Field := ⟨0, 1, 1, .rwl, 1, 0⟩
def clear_stats : Field := ⟨0, 2, 1, .wo, 0, 0⟩
def on_spare : Field := ⟨4, 10, 1, .ro, 0, 0⟩
def commit_pending : Field := ⟨4, 11, 1, .ro, 0, 0⟩
def commit_error : Field := ⟨4, 12, 1, .w1c, 0, 0⟩
def factory_set : Field := ⟨4, 13, 1, .ro, 1, 1⟩
def sat : Field := ⟨4, 14, 8, .w1c, 0, 0⟩
def out_clamped : Field := ⟨4, 22, 1, .w1c, 0, 0⟩
def notch_sat : Field := ⟨4, 23, 1, .w1c, 0, 0⟩
def go : Field := ⟨8, 0, 1, .wo, 0, 0⟩
def state_action : Field := ⟨8, 1, 2, .wo, 0, 0⟩
def miss_count : Field := ⟨0xc, 0, 16, .ro, 0, 0⟩
def move_count : Field := ⟨0xc, 16, 8, .ro, 0, 0⟩
def slack_last : Field := ⟨0x10, 0, 12, .ro, 0, 0⟩
def slack_min : Field := ⟨0x10, 16, 12, .ro, 0xfff, 0xfff⟩
def limit_hi : Field := ⟨0x14, 0, 18, .rws, 0x1ffff, 0⟩
def limit_lo : Field := ⟨0x18, 0, 18, .rws, 0x20000, 0⟩
def slew : Field := ⟨0x1c, 0, 18, .rws, 0x1ffff, 0⟩
def rc_gain : Field := ⟨0x20, 0, 18, .rws, 0, 0⟩
def rc_exp : Field := ⟨0x20, 18, 6, .rws, 0, 0⟩
def rc_enable : Field := ⟨0x20, 24, 1, .rws, 0, 0⟩
def aw_mask : Field := ⟨0x24, 0, 8, .rws, 0, 0⟩
def stage_count : Field := ⟨0x24, 8, 4, .rws, 1, 0⟩
def out : Field := ⟨0x28, 0, 18, .ro, 0, 0⟩
def in_val : Field := ⟨0x2c, 0, 18, .ro, 0, 0⟩
def notch_exp : Field := ⟨0x54, 0, 6, .rws, 0, 0⟩
def notch_enable : Field := ⟨0x54, 8, 1, .rws, 0, 0⟩
def state (_g e : Nat) : Field := ⟨4, 0, 3, .ro, (if e = 6 then 5 else 1), 0⟩
def phys_engine (g e : Nat) : Field := ⟨4, 3, 7, .ro, (7*g+e), (7*g+e)⟩
def notch_coef (c : Nat) : Field := ⟨(0x40 + 4*c), 0, 18, .rws, 0, 0⟩
def stage_coef (st : Nat) (c : Nat) : Field := ⟨((0x100 + 0x20*st) + 4*c), 0, 18, .rws, (if st = 0 ∧ c = 0 then 0x10000 else 0), 0⟩
def stage_exp (st : Nat) : Field := ⟨(0x114 + 0x20*st), 0, 6, .rws, 1, 0⟩
/-- Every field of the ENG registers, in the order of Table 04-5. -/
def fields (g e : Nat) : List Field :=
  [enable, spare_permit, clear_stats, on_spare, commit_pending, commit_error, factory_set, sat, out_clamped, notch_sat, go, state_action, miss_count, move_count, slack_last, slack_min, limit_hi, limit_lo, slew, rc_gain, rc_exp, rc_enable, aw_mask, stage_count, out, in_val, notch_exp, notch_enable, state g e, phys_engine g e] ++
  (List.range 5).map (notch_coef) ++
  (List.range 8).flatMap (fun i0 => (List.range 5).map (stage_coef i0)) ++
  (List.range 8).map (stage_exp)
end ENG

/-! ### FOC: Table 05-5 -/
namespace FOC
def acq_start : Field := ⟨0, 0, 1, .wo, 0, 0⟩
def polarity : Field := ⟨0, 1, 1, .rwi, 0, 0⟩
def acq_retry : Field := ⟨0, 4, 4, .rwl, 3, 3⟩
def jump_retry : Field := ⟨0, 8, 2, .rwl, 2, 2⟩
def state : Field := ⟨4, 0, 4, .ro, 0, 0⟩
def side_layer : Field := ⟨4, 4, 5, .ro, 0x1f, 0x1f⟩
def fail_cause : Field := ⟨4, 9, 2, .ro, 0, 0⟩
def side_mismatch : Field := ⟨4, 11, 1, .w1c, 0, 0⟩
def jump_fault : Field := ⟨4, 12, 1, .w1c, 0, 0⟩
def loss : Field := ⟨4, 13, 1, .w1c, 0, 0⟩
def loss_count : Field := ⟨4, 16, 8, .ro, 0, 0⟩
def go : Field := ⟨8, 0, 1, .wo, 0, 0⟩
def sweep_rate : Field := ⟨0xc, 0, 18, .rws, 0x20, 0⟩
def sweep_start : Field := ⟨0x10, 0, 18, .rws, 0x23333, 0⟩
def sweep_end : Field := ⟨0x14, 0, 18, .rws, 0x1cccd, 0⟩
def sum_detect : Field := ⟨0x18, 0, 8, .rws, 0x1a, 0⟩
def fe_detect : Field := ⟨0x18, 8, 8, .rws, 0x33, 0⟩
def fe_capture : Field := ⟨0x18, 16, 8, .rws, 0xd, 0⟩
def lock_level : Field := ⟨0x1c, 0, 8, .rws, 0xd, 0⟩
def lock_count : Field := ⟨0x1c, 8, 8, .rws, 0x10, 0⟩
def sum_hold : Field := ⟨0x20, 0, 8, .rws, 0x9a, 0⟩
def loss_time : Field := ⟨0x20, 8, 8, .rws, 0x40, 0⟩
def fe_loss : Field := ⟨0x20, 16, 8, .rws, 0xc0, 0⟩
def fe_loss_count : Field := ⟨0x20, 24, 8, .rws, 8, 0⟩
def kick_amp : Field := ⟨0x24, 0, 18, .rws, 0x51ec, 0⟩
def kick_time : Field := ⟨0x24, 24, 8, .rws, 0x14, 0⟩
def brake_amp : Field := ⟨0x28, 0, 18, .rws, 0x51ec, 0⟩
def brake_time : Field := ⟨0x28, 24, 8, .rws, 0x14, 0⟩
def hold_bias : Field := ⟨0x2c, 0, 18, .rws, 0x831, 0⟩
def coast_max : Field := ⟨0x30, 0, 12, .rws, 0xa0, 0⟩
def settle : Field := ⟨0x30, 12, 12, .rws, 0x140, 0⟩
def sa_lead : Field := ⟨0x30, 24, 8, .rws, 0x80, 0⟩
def sa_time : Field := ⟨0x34, 0, 16, .rws, 0x4b0, 0⟩
def recap_span : Field := ⟨0x38, 0, 18, .rws, 0x1893, 0⟩
def recap_timeout : Field := ⟨0x38, 20, 8, .rws, 0x32, 0⟩
def tilt_avg : Field := ⟨0x3c, 0, 2, .rws, 2, 0⟩
def tilt_preset : Field := ⟨0x3c, 2, 18, .rws, 0, 0⟩
def tilt_ls : Field := ⟨0x40, 0, 18, .rws, 0, 0⟩
def sum_ref : Field := ⟨0x44, 0, 12, .ro, 0x800, 0x800⟩
def last_step : Field := ⟨0x48, 0, 16, .ro, 0, 0⟩
def last_acq : Field := ⟨0x48, 16, 16, .ro, 0, 0⟩
/-- Every field of the FOC registers, in the order of Table 05-5. -/
def fields : List Field :=
  [acq_start, polarity, acq_retry, jump_retry, state, side_layer, fail_cause, side_mismatch, jump_fault, loss, loss_count, go, sweep_rate, sweep_start, sweep_end, sum_detect, fe_detect, fe_capture, lock_level, lock_count, sum_hold, loss_time, fe_loss, fe_loss_count, kick_amp, kick_time, brake_amp, brake_time, hold_bias, coast_max, settle, sa_lead, sa_time, recap_span, recap_timeout, tilt_avg, tilt_preset, tilt_ls, sum_ref, last_step, last_acq]
end FOC

/-! ### TRK: Table 06-4 -/
namespace TRK
def acq_start : Field := ⟨0, 0, 1, .wo, 0, 0⟩
def polarity : Field := ⟨0, 1, 1, .rwi, 0, 0⟩
def rebuild : Field := ⟨0, 2, 1, .wo, 0, 0⟩
def learn_enable : Field := ⟨0, 3, 1, .rwl, 1, 0⟩
def seek_retry : Field := ⟨0, 4, 4, .rwl, 3, 3⟩
def state : Field := ⟨4, 0, 4, .ro, 0, 0⟩
def track : Field := ⟨4, 4, 18, .ro, 0x3ffff, 0x3ffff⟩
def slip : Field := ⟨4, 22, 1, .w1c, 0, 0⟩
def seek_fault : Field := ⟨4, 23, 1, .w1c, 0, 0⟩
def beam_offset : Field := ⟨4, 24, 1, .w1c, 0, 0⟩
def fail_cause : Field := ⟨4, 25, 2, .ro, 0, 0⟩
def go : Field := ⟨8, 0, 1, .wo, 0, 0⟩
def fuse_shift : Field := ⟨0xc, 0, 4, .rws, 3, 0⟩
def ab_switch : Field := ⟨0xc, 4, 8, .rws, 0x80, 0⟩
def ab_scale : Field := ⟨0x10, 0, 18, .rws, 0x1ffff, 0⟩
def cd_scale : Field := ⟨0x14, 0, 18, .rws, 0x10000, 0⟩
def pp_gain : Field := ⟨0x18, 0, 18, .rws, 0x8000, 0⟩
def offtrack_level : Field := ⟨0x1c, 0, 8, .rws, 0x80, 0⟩
def offtrack_count : Field := ⟨0x1c, 8, 8, .rws, 8, 0⟩
def wr_offtrack : Field := ⟨0x1c, 16, 8, .rws, 0x40, 0⟩
def beam_off_limit : Field := ⟨0x1c, 24, 8, .rws, 0x20, 0⟩
def pull_in_rate : Field := ⟨0x20, 0, 8, .rws, 0x14, 0⟩
def lock_level : Field := ⟨0x20, 8, 8, .rws, 0x1a, 0⟩
def lock_count : Field := ⟨0x20, 16, 8, .rws, 0x10, 0⟩
def acq_timeout : Field := ⟨0x20, 24, 8, .rws, 0x32, 0⟩
def kick_amp : Field := ⟨0x24, 0, 18, .rws, 0x3333, 0⟩
def lens_max : Field := ⟨0x24, 18, 9, .rws, 0x100, 0⟩
def brake_tracks : Field := ⟨0x24, 27, 5, .rws, 8, 0⟩
def jump_vel : Field := ⟨0x28, 0, 12, .rws, 0x190, 0⟩
def kick_max : Field := ⟨0x28, 12, 8, .rws, 0x64, 0⟩
def brake_max : Field := ⟨0x28, 20, 8, .rws, 0x64, 0⟩
def seek_vmax : Field := ⟨0x2c, 0, 16, .rws, 0xc8, 0⟩
def seek_amax : Field := ⟨0x2c, 16, 16, .rws, 0x28, 0⟩
def sled_settle : Field := ⟨0x30, 0, 16, .rws, 0x7d0, 0⟩
def nm_per_ustep : Field := ⟨0x34, 0, 24, .rws, 0x61a80, 0⟩
def skew_preset : Field := ⟨0x38, 0, 18, .rws, 0, 0⟩
def learn_shift : Field := ⟨0x3c, 0, 4, .rws, 4, 0⟩
def learn_shift_new : Field := ⟨0x3c, 4, 4, .rws, 1, 0⟩
def lead_wedges : Field := ⟨0x3c, 8, 4, .rws, 2, 0⟩
def blend_revs : Field := ⟨0x3c, 12, 2, .rws, 1, 0⟩
def conv_revs : Field := ⟨0x3c, 16, 4, .rws, 3, 0⟩
def conv_level : Field := ⟨0x40, 0, 18, .rws, 0x100, 0⟩
def reuse_level : Field := ⟨0x44, 0, 18, .rws, 0x2000, 0⟩
def table_state : Field := ⟨0x54, 0, 6, .ro, 0, 0⟩
def fetch_pending : Field := ⟨0x54, 6, 1, .ro, 0, 0⟩
def swap_count : Field := ⟨0x54, 16, 16, .ro, 0, 0⟩
def last_seek : Field := ⟨0x5c, 0, 16, .ro, 0, 0⟩
def last_jump : Field := ⟨0x5c, 16, 16, .ro, 0, 0⟩
def err_gain (i : Nat) : Field := ⟨(0x48 + 4*i), 0, 18, .rws, 0, 0⟩
def beam_off (kk : Nat) : Field := ⟨0x58, (0 + 8*kk), 8, .ro, 0, 0⟩
/-- Every field of the TRK registers, in the order of Table 06-4. -/
def fields : List Field :=
  [acq_start, polarity, rebuild, learn_enable, seek_retry, state, track, slip, seek_fault, beam_offset, fail_cause, go, fuse_shift, ab_switch, ab_scale, cd_scale, pp_gain, offtrack_level, offtrack_count, wr_offtrack, beam_off_limit, pull_in_rate, lock_level, lock_count, acq_timeout, kick_amp, lens_max, brake_tracks, jump_vel, kick_max, brake_max, seek_vmax, seek_amax, sled_settle, nm_per_ustep, skew_preset, learn_shift, learn_shift_new, lead_wedges, blend_revs, conv_revs, conv_level, reuse_level, table_state, fetch_pending, swap_count, last_seek, last_jump] ++
  (List.range 3).map (err_gain) ++
  (List.range 4).map (beam_off)
end TRK

/-! ### SPINDLE: Table 07-8 -/
namespace SPINDLE
def start : Field := ⟨0, 0, 1, .wo, 0, 0⟩
def stop : Field := ⟨0, 1, 1, .wo, 0, 0⟩
def clear_fault : Field := ⟨0, 2, 1, .wo, 0, 0⟩
def reverse : Field := ⟨0, 3, 1, .rwl, 0, 0⟩
def regen_enable : Field := ⟨0, 4, 1, .rwl, 0, 0⟩
def state : Field := ⟨4, 0, 4, .ro, 1, 0⟩
def at_speed : Field := ⟨4, 4, 1, .ro, 0, 0⟩
def fw_active : Field := ⟨4, 5, 1, .ro, 0, 0⟩
def speed_limited : Field := ⟨4, 6, 1, .ro, 0, 0⟩
def cmd_refused : Field := ⟨4, 7, 1, .w1c, 0, 0⟩
def obs_loss : Field := ⟨4, 8, 1, .w1c, 0, 0⟩
def grant_wait : Field := ⟨4, 9, 1, .ro, 0, 0⟩
def regen_active : Field := ⟨4, 10, 1, .ro, 0, 0⟩
def fault_cause : Field := ⟨4, 11, 4, .ro, 0, 0⟩
def loss_count : Field := ⟨4, 16, 8, .ro, 0, 0⟩
def go : Field := ⟨8, 0, 1, .wo, 0, 0⟩
def rpm : Field := ⟨0xc, 0, 13, .rwl, 0, 0⟩
def accel : Field := ⟨0xc, 16, 10, .rwl, 0x320, 0⟩
def speed : Field := ⟨0x10, 0, 17, .ro, 0, 0⟩
def pole_pairs : Field := ⟨0x14, 0, 4, .rwi, 0, 0⟩
def rs : Field := ⟨0x18, 0, 16, .rwi, 0, 0⟩
def ls : Field := ⟨0x1c, 0, 16, .rwi, 0, 0⟩
def flux : Field := ⟨0x20, 0, 16, .rwi, 0, 0⟩
def inertia : Field := ⟨0x24, 0, 16, .rwi, 0, 0⟩
def cur_bw : Field := ⟨0x28, 0, 8, .rws, 0xc8, 0⟩
def spd_bw : Field := ⟨0x28, 8, 8, .rws, 0x28, 0⟩
def align_current : Field := ⟨0x2c, 0, 8, .rwl, 0x50, 0⟩
def align_time : Field := ⟨0x2c, 8, 8, .rwl, 0x14, 0⟩
def if_current : Field := ⟨0x2c, 16, 8, .rwl, 0x64, 0⟩
def handover_rpm : Field := ⟨0x30, 0, 10, .rwl, 0x12c, 0⟩
def if_rate : Field := ⟨0x30, 12, 10, .rwl, 0x1f4, 0⟩
def start_retry : Field := ⟨0x30, 24, 4, .rwl, 3, 3⟩
def reverse_rpm : Field := ⟨0x34, 0, 8, .rwl, 0x1e, 0x1e⟩
def emf_detect : Field := ⟨0x34, 8, 8, .rwl, 0xa, 0xa⟩
def sense_time : Field := ⟨0x34, 16, 8, .rwl, 0x64, 0x64⟩
def iq_max : Field := ⟨0x38, 0, 8, .rwl, 0x5a, 0⟩
def i_lim : Field := ⟨0x38, 8, 8, .rwl, 0xc8, 0⟩
def fw_imax : Field := ⟨0x38, 16, 8, .rwl, 0x96, 0⟩
def brake_imax : Field := ⟨0x38, 24, 8, .rwl, 0x96, 0⟩
def spin_power : Field := ⟨0x3c, 0, 16, .rwl, 0x1b58, 0⟩
def run_power : Field := ⟨0x3c, 16, 16, .rwl, 0xbb8, 0⟩
def vin_clamp : Field := ⟨0x40, 0, 10, .rwl, 0x244, 0x244⟩
def emf_tol : Field := ⟨0x44, 0, 8, .rwl, 0x20, 0x20⟩
def ierr_level : Field := ⟨0x44, 8, 8, .rwl, 0x1e, 0x1e⟩
def ierr_count : Field := ⟨0x44, 16, 4, .rwl, 8, 8⟩
def loss_limit : Field := ⟨0x44, 24, 4, .rwl, 4, 4⟩
def iq : Field := ⟨0x48, 0, 16, .ro, 0, 0⟩
def id : Field := ⟨0x48, 16, 16, .ro, 0, 0⟩
def mod_depth : Field := ⟨0x4c, 0, 8, .ro, 0, 0⟩
def vin : Field := ⟨0x4c, 16, 16, .ro, 0, 0⟩
def p_in : Field := ⟨0x50, 0, 16, .ro, 0, 0⟩
def last_start : Field := ⟨0x54, 0, 16, .ro, 0, 0⟩
def last_coast : Field := ⟨0x54, 16, 16, .ro, 0, 0⟩
def dead : Field := ⟨0x58, 0, 4, .rwi, 4, 4⟩
/-- Every field of the SPINDLE registers, in the order of Table 07-8. -/
def fields : List Field :=
  [start, stop, clear_fault, reverse, regen_enable, state, at_speed, fw_active, speed_limited, cmd_refused, obs_loss, grant_wait, regen_active, fault_cause, loss_count, go, rpm, accel, speed, pole_pairs, rs, ls, flux, inertia, cur_bw, spd_bw, align_current, align_time, if_current, handover_rpm, if_rate, start_retry, reverse_rpm, emf_detect, sense_time, iq_max, i_lim, fw_imax, brake_imax, spin_power, run_power, vin_clamp, emf_tol, ierr_level, ierr_count, loss_limit, iq, id, mod_depth, vin, p_in, last_start, last_coast, dead]
end SPINDLE

/-! ### AXIS: Table 08-7 -/
namespace AXIS
def enable : Field := ⟨0, 0, 1, .rwl, 1, 0⟩
def home : Field := ⟨0, 1, 1, .wo, 0, 0⟩
def clear_fault : Field := ⟨0, 2, 1, .wo, 0, 0⟩
def stop : Field := ⟨0, 3, 1, .wo, 0, 0⟩
def CTRL_mode : Field := ⟨0, 4, 2, .rwi, 0, 0⟩
def run_prick : Field := ⟨0, 6, 1, .wo, 0, 0⟩
def invert : Field := ⟨0, 7, 1, .rwi, 0, 0⟩
def state : Field := ⟨4, 0, 3, .ro, 2, 0⟩
def STATUS_mode : Field := ⟨4, 3, 2, .ro, 0, 0⟩
def homed : Field := ⟨4, 5, 1, .ro, 0, 0⟩
def at_limit : Field := ⟨4, 6, 1, .w1c, 0, 0⟩
def interlock : Field := ⟨4, 7, 1, .w1c, 0, 0⟩
def stretched : Field := ⟨4, 8, 1, .w1c, 0, 0⟩
def cmd_refused : Field := ⟨4, 9, 1, .w1c, 0, 0⟩
def gear_fault : Field := ⟨4, 10, 1, .w1c, 0, 0⟩
def fault_cause : Field := ⟨4, 11, 3, .ro, 0, 0⟩
def segment : Field := ⟨4, 14, 8, .ro, 0, 0⟩
def go : Field := ⟨8, 0, 1, .wo, 0, 0⟩
def pos : Field := ⟨0xc, 0, 32, .ro, 0, 0⟩
def vel : Field := ⟨0x10, 0, 32, .ro, 0, 0⟩
def target : Field := ⟨0x14, 0, 32, .rwl, 0, 0⟩
def run_current (kd : AxisKind) : Field := ⟨0x18, 0, 12, .rws, (kd.pick 1697 424 3000), 0⟩
def hold_current (kd : AxisKind) : Field := ⟨0x18, 16, 12, .rws, (kd.pick 850 212 1000), 0⟩
def t_off : Field := ⟨0x1c, 0, 6, .rws, 0x10, 0⟩
def t_blank : Field := ⟨0x1c, 6, 3, .rws, 3, 0⟩
def fast_rise : Field := ⟨0x1c, 9, 4, .rws, 4, 0⟩
def fast_fall : Field := ⟨0x1c, 13, 4, .rws, 0xa, 0⟩
def hold_delay : Field := ⟨0x1c, 24, 8, .rws, 0x14, 0⟩
def vmax (kd : AxisKind) : Field := ⟨0x20, 0, 24, .rws, (kd.pick 1024000 1000000 256000), 0⟩
def amax (kd : AxisKind) : Field := ⟨0x24, 0, 24, .rws, (kd.pick 20480 2000000 2560), 0⟩
def jmax (kd : AxisKind) : Field := ⟨0x28, 0, 24, .rws, (kd.pick 0 0 512), 0⟩
def pos_min (kd : AxisKind) : Field := ⟨0x2c, 0, 32, .rws, (kd.pick 0 0 2147483648), 0⟩
def pos_max (kd : AxisKind) : Field := ⟨0x30, 0, 32, .rws, (kd.pick 98304 32767 2147483647), 0⟩
def home_dist (kd : AxisKind) : Field := ⟨0x34, 0, 16, .rws, (kd.pick 400 160 0), 0⟩
def home_vel (kd : AxisKind) : Field := ⟨0x34, 16, 16, .rws, (kd.pick 100 200 50), 0⟩
def home_pos (kd : AxisKind) : Field := ⟨0x38, 0, 32, .rws, (kd.pick 4294966784 4294967040 0), 0⟩
def home_current (kd : AxisKind) : Field := ⟨0x3c, 0, 12, .rws, (kd.pick 850 212 1500), 0⟩
/-- Every field of the AXIS registers, in the order of Table 08-7. -/
def fields (kd : AxisKind) : List Field :=
  [enable, home, clear_fault, stop, CTRL_mode, run_prick, invert, state, STATUS_mode, homed, at_limit, interlock, stretched, cmd_refused, gear_fault, fault_cause, segment, go, pos, vel, target, run_current kd, hold_current kd, t_off, t_blank, fast_rise, fast_fall, hold_delay, vmax kd, amax kd, jmax kd, pos_min kd, pos_max kd, home_dist kd, home_vel kd, home_pos kd, home_current kd]
end AXIS

/-! ### SLSA: Table 08-8 -/
namespace SLSA
def v_scale : Field := ⟨0x40, 0, 24, .rws, 0x1000, 0⟩
def sa_deadband : Field := ⟨0x40, 24, 8, .rws, 4, 0⟩
def pcount : Field := ⟨0x44, 0, 9, .rwi, 1, 0⟩
def prick_duration (i : Nat) : Field := ⟨(0x1000 + 0x10*i), 0, 24, .rwi, 0, 0⟩
def prick_position (i : Nat) : Field := ⟨(0x1004 + 0x10*i), 0, 32, .rwi, 0, 0⟩
def prick_velocity (i : Nat) : Field := ⟨(0x1008 + 0x10*i), 0, 32, .rwi, 0, 0⟩
/-- Every field of the SLSA registers, in the order of Table 08-8. -/
def fields : List Field :=
  [v_scale, sa_deadband, pcount] ++
  (List.range 256).map (prick_duration) ++
  (List.range 256).map (prick_position) ++
  (List.range 256).map (prick_velocity)
end SLSA

/-! ### TAXIS: Table 08-9 -/
namespace TAXIS
def enc_sel : Field := ⟨0x40, 0, 1, .rwi, 0, 0⟩
def arm : Field := ⟨0x40, 1, 1, .wo, 0, 0⟩
def arm_now : Field := ⟨0x40, 2, 1, .wo, 0, 0⟩
def armed : Field := ⟨0x40, 3, 1, .ro, 0, 0⟩
def gear_lag : Field := ⟨0x40, 16, 12, .rws, 0x100, 0⟩
def switch_at : Field := ⟨0x4c, 0, 32, .rwl, 0, 0⟩
def blend : Field := ⟨0x50, 0, 24, .rwl, 0, 0⟩
def res : Field := ⟨0x54, 0, 3, .rwi, 4, 4⟩
def step_edge : Field := ⟨0x54, 3, 1, .rwi, 0, 0⟩
def dir_invert : Field := ⟨0x54, 4, 1, .rwi, 0, 0⟩
def sd_timeout : Field := ⟨0x54, 8, 16, .rws, 0x3e8, 0⟩
def steps : Field := ⟨0x58, 0, 32, .ro, 0, 0⟩
def ratio_p : Field := ⟨0x44, 0, 16, .ro, 0, 0⟩
def ratio_q : Field := ⟨0x44, 16, 16, .ro, 1, 1⟩
def ratio_next_p : Field := ⟨0x48, 0, 16, .rwl, 0, 0⟩
def ratio_next_q : Field := ⟨0x48, 16, 16, .rwl, 1, 1⟩
/-- Every field of the TAXIS registers, in the order of Table 08-9. -/
def fields : List Field :=
  [enc_sel, arm, arm_now, armed, gear_lag, switch_at, blend, res, step_edge, dir_invert, sd_timeout, steps, ratio_p, ratio_q, ratio_next_p, ratio_next_q]
end TAXIS

/-! ### ENC: Table 08-10 (ENC) -/
namespace ENC
def enable : Field := ⟨0, 0, 1, .rwl, 1, 0⟩
def invert : Field := ⟨0, 1, 1, .rwi, 0, 0⟩
def filter : Field := ⟨0, 8, 8, .rwl, 5, 5⟩
def count : Field := ⟨4, 0, 32, .ro, 0, 0⟩
def illegal : Field := ⟨8, 0, 16, .ro, 0, 0⟩
/-- Every field of the ENC registers, in the order of Table 08-10 (ENC). -/
def fields : List Field :=
  [enable, invert, filter, count, illegal]
end ENC

/-! ### ZONE: Table 08-10 (ZONE) -/
namespace ZONE
def t1_lo : Field := ⟨0, 0, 16, .rwi, 0xffff, 0⟩
def t1_hi : Field := ⟨0, 16, 16, .rwi, 0, 0⟩
def t2_enter : Field := ⟨4, 0, 32, .rwi, 0, 0⟩
/-- Every field of the ZONE registers, in the order of Table 08-10 (ZONE). -/
def fields : List Field :=
  [t1_lo, t1_hi, t2_enter]
end ZONE

/-! ### CHAN: Table 09-6 -/
namespace CHAN
def enable : Field := ⟨0, 0, 1, .rwl, 1, 0⟩
def adapt_enable : Field := ⟨0, 1, 1, .rwl, 1, 0⟩
def warm_enable : Field := ⟨0, 2, 1, .rwl, 1, 0⟩
def clear_stats : Field := ⟨0, 3, 1, .wo, 0, 0⟩
def beam_state : Field := ⟨4, 0, 12, .ro, 0, 0⟩
def commit_error : Field := ⟨4, 12, 1, .w1c, 0, 0⟩
def bare_set : Field := ⟨4, 13, 1, .ro, 0, 1⟩
def go : Field := ⟨8, 0, 1, .wo, 0, 0⟩
def ctf_ratio : Field := ⟨0xc, 0, 8, .rws, 0x73, 0⟩
def boost : Field := ⟨0xc, 8, 4, .rws, 6, 0⟩
def acq_bits : Field := ⟨0x10, 0, 12, .rws, 0x400, 0⟩
def acq_boost : Field := ⟨0x10, 12, 4, .rws, 2, 0⟩
def sync_err : Field := ⟨0x14, 0, 3, .rws, 2, 0⟩
def window : Field := ⟨0x14, 3, 5, .rws, 0x18, 0⟩
def challenge_tol : Field := ⟨0x14, 8, 2, .rws, 1, 0⟩
def wide_window : Field := ⟨0x14, 16, 8, .rws, 0xc0, 0⟩
def drop_thr : Field := ⟨0x18, 0, 8, .rws, 0x80, 0⟩
def rise_thr : Field := ⟨0x18, 8, 8, .rws, 0x60, 0⟩
def defect_min : Field := ⟨0x18, 16, 8, .rws, 8, 0⟩
def guard : Field := ⟨0x18, 24, 8, .rws, 0x10, 0⟩
def mu_gain : Field := ⟨0x20, 0, 4, .rws, 8, 0⟩
def mu_offset : Field := ⟨0x20, 4, 4, .rws, 8, 0⟩
def mu_asym : Field := ⟨0x20, 8, 4, .rws, 0xc, 0⟩
def mu_tap : Field := ⟨0x20, 12, 4, .rws, 0xe, 0⟩
def tim_kp : Field := ⟨0x20, 16, 4, .rws, 5, 0⟩
def tim_ki : Field := ⟨0x20, 20, 4, .rws, 0xb, 0⟩
def llr_scale : Field := ⟨0x24, 0, 6, .rws, 0x10, 0⟩
def target_c (j : Nat) : Field := ⟨0x1c, (0 + 6*j), 6, .rws, ((0x0420C204 >>> (6*j)) % 64), 0⟩
/-- Every field of the CHAN registers, in the order of Table 09-6. -/
def fields : List Field :=
  [enable, adapt_enable, warm_enable, clear_stats, beam_state, commit_error, bare_set, go, ctf_ratio, boost, acq_bits, acq_boost, sync_err, window, challenge_tol, wide_window, drop_thr, rise_thr, defect_min, guard, mu_gain, mu_offset, mu_asym, mu_tap, tim_kp, tim_ki, llr_scale] ++
  (List.range 5).map (target_c)
end CHAN

/-! ### BEAM: Table 09-7 -/
namespace BEAM
def state : Field := ⟨0, 0, 3, .ro, 0, 0⟩
def pending : Field := ⟨0, 3, 1, .ro, 0, 0⟩
def resync : Field := ⟨0, 4, 1, .w1c, 0, 0⟩
def long_defect : Field := ⟨0, 5, 1, .w1c, 0, 0⟩
def type_mismatch : Field := ⟨0, 6, 1, .w1c, 0, 0⟩
def lost_frames : Field := ⟨0, 7, 1, .w1c, 0, 0⟩
def infer_run : Field := ⟨0, 8, 2, .ro, 0, 0⟩
def header_slip : Field := ⟨0, 16, 8, .ro, 0, 0⟩
def gain : Field := ⟨4, 0, 16, .ro, 0x1000, 0x1000⟩
def pga : Field := ⟨4, 16, 7, .ro, 0, 0⟩
def offset : Field := ⟨8, 0, 16, .ro, 0, 0⟩
def asym : Field := ⟨8, 16, 16, .ro, 0, 0⟩
def freq : Field := ⟨0xc, 0, 24, .ro, 0, 0⟩
def synced : Field := ⟨0x10, 0, 32, .ro, 0, 0⟩
def inferred : Field := ⟨0x14, 0, 16, .ro, 0, 0⟩
def lost : Field := ⟨0x14, 16, 16, .ro, 0, 0⟩
def confirmed : Field := ⟨0x18, 0, 16, .ro, 0, 0⟩
def rejected : Field := ⟨0x18, 16, 16, .ro, 0, 0⟩
def defects : Field := ⟨0x1c, 0, 16, .ro, 0, 0⟩
def long_defects : Field := ⟨0x1c, 16, 16, .ro, 0, 0⟩
def violations : Field := ⟨0x20, 0, 32, .ro, 0, 0⟩
def tap (i : Nat) : Field := ⟨(0x40 + 4*i), 0, 16, .ro, (if i = 7 then 0x2000 else 0), (if i = 7 then 0x2000 else 0)⟩
def hist (j : Nat) : Field := ⟨(0x100 + 4*j), 0, 32, .ro, 0, 0⟩
/-- Every field of the BEAM registers, in the order of Table 09-7. -/
def fields : List Field :=
  [state, pending, resync, long_defect, type_mismatch, lost_frames, infer_run, header_slip, gain, pga, offset, asym, freq, synced, inferred, lost, confirmed, rejected, defects, long_defects, violations] ++
  (List.range 29).map (tap) ++
  (List.range 16).map (hist)
end BEAM

/-! ### WR: Table 10-5 -/
namespace WR
def opc_now : Field := ⟨0, 0, 1, .wo, 0, 0⟩
def write_enable : Field := ⟨0, 1, 1, .rwl, 1, 0⟩
def session : Field := ⟨4, 0, 2, .ro, 0, 0⟩
def write_service : Field := ⟨4, 2, 1, .ro, 0, 0⟩
def opc_fail : Field := ⟨4, 3, 1, .w1c, 0, 0⟩
def retry_given_up : Field := ⟨4, 4, 1, .w1c, 0, 0⟩
def amended : Field := ⟨4, 5, 1, .w1c, 0, 0⟩
def lv3_limit : Field := ⟨4, 6, 1, .w1c, 0, 0⟩
def go : Field := ⟨8, 0, 1, .wo, 0, 0⟩
def session_idle : Field := ⟨0xc, 0, 16, .rws, 0xc8, 0⟩
def opc_temp_delta : Field := ⟨0x10, 0, 4, .rws, 5, 0⟩
def opc_interval : Field := ⟨0x10, 8, 8, .rws, 0x3c, 0⟩
def opc_fail_limit : Field := ⟨0x10, 16, 8, .rws, 8, 0⟩
def beta_target : Field := ⟨0x14, 0, 8, .rws, 0xa, 0⟩
def ber_exp : Field := ⟨0x14, 8, 4, .rws, 0xa, 0⟩
def extent_retry : Field := ⟨0x18, 0, 4, .rws, 2, 0⟩
def rec_retry : Field := ⟨0x18, 4, 4, .rws, 2, 0⟩
def anchor_interval : Field := ⟨0x1c, 0, 16, .rws, 0x100, 0⟩
def ckpt_interval : Field := ⟨0x1c, 16, 16, .rws, 0x400, 0⟩
def written : Field := ⟨0x20, 0, 32, .ro, 0, 0⟩
def relocated : Field := ⟨0x24, 0, 16, .ro, 0, 0⟩
def retries : Field := ⟨0x24, 16, 16, .ro, 0, 0⟩
def inner_used : Field := ⟨0x40, 0, 10, .ro, 0, 0⟩
def outer_used : Field := ⟨0x40, 16, 10, .ro, 0, 0⟩
def p_inner (k : Nat) : Field := ⟨(0x30 + 4*k), 0, 16, .ro, 0, 0⟩
def p_outer (k : Nat) : Field := ⟨(0x30 + 4*k), 16, 16, .ro, 0, 0⟩
/-- Every field of the WR registers, in the order of Table 10-5. -/
def fields : List Field :=
  [opc_now, write_enable, session, write_service, opc_fail, retry_given_up, amended, lv3_limit, go, session_idle, opc_temp_delta, opc_interval, opc_fail_limit, beta_target, ber_exp, extent_retry, rec_retry, anchor_interval, ckpt_interval, written, relocated, retries, inner_used, outer_used] ++
  (List.range 4).map (p_inner) ++
  (List.range 4).map (p_outer)
end WR

/-! ### VCHAN: Table 10-6 -/
namespace VCHAN
def enable : Field := ⟨0, 0, 1, .rwl, 1, 0⟩
def clear_stats : Field := ⟨0, 1, 1, .wo, 0, 0⟩
def active : Field := ⟨4, 0, 4, .ro, 0, 0⟩
def commit_error : Field := ⟨4, 4, 1, .w1c, 0, 0⟩
def bare_set : Field := ⟨4, 5, 1, .ro, 0, 1⟩
def go : Field := ⟨8, 0, 1, .wo, 0, 0⟩
def verify_thr : Field := ⟨0xc, 0, 12, .rws, 0x3d, 0⟩
def hdr_sym_max : Field := ⟨0xc, 16, 4, .rws, 8, 0⟩
def rec_sym_max : Field := ⟨0xc, 20, 4, .rws, 4, 0⟩
def vwindow : Field := ⟨0xc, 24, 5, .rws, 0x18, 0⟩
def verified : Field := ⟨0x10, 0, 32, .ro, 0, 0⟩
def failed : Field := ⟨0x14, 0, 16, .ro, 0, 0⟩
def sync_miss : Field := ⟨0x14, 16, 16, .ro, 0, 0⟩
def header_fail : Field := ⟨0x18, 0, 16, .ro, 0, 0⟩
def record_fail : Field := ⟨0x18, 16, 16, .ro, 0, 0⟩
def sw_hist (j : Nat) : Field := ⟨(0x40 + 4*j), 0, 32, .ro, 0, 0⟩
/-- Every field of the VCHAN registers, in the order of Table 10-6. -/
def fields : List Field :=
  [enable, clear_stats, active, commit_error, bare_set, go, verify_thr, hdr_sym_max, rec_sym_max, vwindow, verified, failed, sync_miss, header_fail, record_fail] ++
  (List.range 16).map (sw_hist)
end VCHAN

/-! ### DECODE: Table 11-9 -/
namespace DECODE
def spare_permit : Field := ⟨0, 0, 1, .rwl, 1, 0⟩
def clear_stats : Field := ⟨0, 1, 1, .wo, 0, 0⟩
def active : Field := ⟨4, 0, 20, .ro, 0x3ffff, 0x3ffff⟩
def spares : Field := ⟨4, 20, 3, .ro, 2, 2⟩
def commit_error : Field := ⟨4, 23, 1, .w1c, 0, 0⟩
def bare_set : Field := ⟨4, 24, 1, .ro, 0, 1⟩
def go : Field := ⟨8, 0, 1, .wo, 0, 0⟩
def iter_first : Field := ⟨0xc, 0, 6, .rws, 0x10, 0⟩
def iter_max : Field := ⟨0xc, 8, 6, .rws, 0x3c, 0⟩
def alpha : Field := ⟨0xc, 16, 4, .rws, 0xc, 0⟩
def max_step : Field := ⟨0x10, 0, 3, .rws, 6, 0⟩
def reread_max : Field := ⟨0x10, 4, 4, .rws, 2, 0⟩
def reslice_max : Field := ⟨0x10, 8, 8, .rws, 0x18, 0⟩
def sweep_points : Field := ⟨0x10, 16, 4, .rws, 8, 0⟩
def ladder_age : Field := ⟨0x10, 24, 8, .rws, 0x14, 0⟩
def sweep_foc : Field := ⟨0x14, 0, 8, .rws, 5, 0⟩
def sweep_sa : Field := ⟨0x14, 8, 8, .rws, 0x18, 0⟩
def sweep_tilt : Field := ⟨0x14, 16, 8, .rws, 8, 0⟩
def sweep_settle : Field := ⟨0x14, 24, 8, .rws, 0x14, 0⟩
def q_high : Field := ⟨0x18, 0, 12, .rws, 0x800, 0⟩
def q_depth : Field := ⟨0x18, 16, 12, .ro, 0, 0⟩
def anchor_scan : Field := ⟨0x1c, 0, 4, .rws, 4, 0⟩
def scan_blank : Field := ⟨0x1c, 8, 16, .rws, 0x2000, 0⟩
def first_pass : Field := ⟨0x20, 0, 32, .ro, 0, 0⟩
def entered : Field := ⟨0x24, 0, 32, .ro, 0, 0⟩
def failed : Field := ⟨0x40, 0, 32, .ro, 0, 0⟩
def mismatches : Field := ⟨0x44, 0, 16, .ro, 0, 0⟩
def step_ok (i : Nat) : Field := ⟨(0x28 + 4*i), 0, 32, .ro, 0, 0⟩
def dec_state (i : Nat) : Field := ⟨(0x80 + 4*i), 0, 2, .ro, (if i ≤ 17 then 0 else 1), (if i ≤ 17 then 0 else 1)⟩
def dec_codewords (i : Nat) : Field := ⟨(0x80 + 4*i), 8, 24, .ro, 0, 0⟩
def mstate (b : Nat) : Field := ⟨(0x100 + 0x10*b), 0, 3, .ro, 0, 0⟩
def ro_cause (b : Nat) : Field := ⟨(0x100 + 0x10*b), 4, 3, .ro, 0, 0⟩
def copies_differ (b : Nat) : Field := ⟨(0x100 + 0x10*b), 7, 1, .w1c, 0, 0⟩
def rolled_forward (b : Nat) : Field := ⟨(0x100 + 0x10*b), 8, 1, .ro, 0, 0⟩
def mount_generation (b : Nat) : Field := ⟨(0x104 + 0x10*b), 0, 32, .ro, 0, 0⟩
def mount_covered (b : Nat) : Field := ⟨(0x108 + 0x10*b), 0, 32, .ro, 0, 0⟩
/-- Every field of the DECODE registers, in the order of Table 11-9. -/
def fields : List Field :=
  [spare_permit, clear_stats, active, spares, commit_error, bare_set, go, iter_first, iter_max, alpha, max_step, reread_max, reslice_max, sweep_points, ladder_age, sweep_foc, sweep_sa, sweep_tilt, sweep_settle, q_high, q_depth, anchor_scan, scan_blank, first_pass, entered, failed, mismatches] ++
  (List.range 6).map (step_ok) ++
  (List.range 20).map (dec_state) ++
  (List.range 20).map (dec_codewords) ++
  (List.range 8).map (mstate) ++
  (List.range 8).map (ro_cause) ++
  (List.range 8).map (copies_differ) ++
  (List.range 8).map (rolled_forward) ++
  (List.range 8).map (mount_generation) ++
  (List.range 8).map (mount_covered)
end DECODE

/-! ### QUEUE: Table 13-11 -/
namespace QUEUE
def enable : Field := ⟨0, 0, 1, .rwl, 1, 0⟩
def poll_min : Field := ⟨4, 0, 8, .rwl, 0x19, 0x19⟩
def poll_max : Field := ⟨4, 8, 8, .rwl, 0x40, 0x40⟩
def idle_polls : Field := ⟨4, 16, 8, .rwl, 0x10, 0x10⟩
def urgent_run : Field := ⟨8, 0, 8, .rwl, 0x40, 0x40⟩
def sq_burst : Field := ⟨8, 8, 8, .rwl, 8, 8⟩
def detach_grace : Field := ⟨0xc, 0, 16, .rwl, 0x1388, 0x1388⟩
def resume_idle : Field := ⟨0x10, 0, 16, .rwl, 0x64, 0x64⟩
def max_susp : Field := ⟨0x10, 16, 16, .rwl, 0x18, 0x18⟩
def active_lines : Field := ⟨0x14, 0, 19, .ro, 0, 0⟩
def overlap_full : Field := ⟨0x14, 19, 1, .w1c, 0, 0⟩
def doorbell_error : Field := ⟨0x14, 20, 1, .w1c, 0, 0⟩
def used : Field := ⟨0x18, 0, 17, .ro, 0, 0⟩
/-- Every field of the QUEUE registers, in the order of Table 13-11. -/
def fields : List Field :=
  [enable, poll_min, poll_max, idle_polls, urgent_run, sq_burst, detach_grace, resume_idle, max_susp, active_lines, overlap_full, doorbell_error, used]
end QUEUE

/-! ### FUNC: Table 13-11 (FUNC[f]) -/
namespace FUNC
def base : Field := ⟨0, 0, 18, .rwi, 0, 0⟩
def count (f : Nat) : Field := ⟨4, 0, 19, .rwi, (if f = 0 then 1024 else 0), 0⟩
def weight : Field := ⟨8, 0, 8, .rwl, 1, 1⟩
def state : Field := ⟨8, 8, 2, .ro, 0, 0⟩
def outstanding : Field := ⟨0xc, 0, 20, .ro, 0, 0⟩
/-- Every field of the FUNC registers, in the order of Table 13-11 (FUNC[f]). -/
def fields (f : Nat) : List Field :=
  [base, count f, weight, state, outstanding]
end FUNC

/-! ### BUFPOOL: Table 14-4 -/
namespace BUFPOOL
def enable : Field := ⟨0, 0, 1, .rwl, 1, 0⟩
def clear_stats : Field := ⟨0, 1, 1, .wo, 0, 0⟩
def held_cmds : Field := ⟨4, 0, 16, .ro, 0, 0⟩
def alloc_fail : Field := ⟨4, 16, 1, .w1c, 0, 0⟩
def release_violation : Field := ⟨4, 17, 1, .w1c, 0, 0⟩
def enable_refused : Field := ⟨4, 18, 1, .w1c, 0, 0⟩
/-- Every field of the BUFPOOL registers, in the order of Table 14-4. -/
def fields : List Field :=
  [enable, clear_stats, held_cmds, alloc_fail, release_violation, enable_refused]
end BUFPOOL

/-! ### POOL: Table 14-4 (POOL[p]) -/
namespace POOL
def base_lo : Field := ⟨0, 12, 20, .rwi, 0, 0⟩
def base_hi : Field := ⟨4, 0, 5, .rwi, 0, 0⟩
def enable : Field := ⟨8, 0, 1, .rwl, 0, 0⟩
def log2_size : Field := ⟨8, 1, 5, .rwi, 0xc, 0⟩
def dual : Field := ⟨8, 6, 1, .rwi, 0, 0⟩
def release : Field := ⟨8, 7, 1, .rwi, 0, 0⟩
def use_mask : Field := ⟨8, 8, 4, .rwi, 0, 0⟩
def count : Field := ⟨0xc, 0, 24, .rwi, 0, 0⟩
def floor : Field := ⟨0x10, 0, 16, .rwl, 0, 0⟩
def free : Field := ⟨0x14, 0, 24, .ro, 0, 0⟩
def empty_events : Field := ⟨0x18, 0, 16, .ro, 0, 0⟩
def waiting : Field := ⟨0x18, 16, 16, .ro, 0, 0⟩
/-- Every field of the POOL registers, in the order of Table 14-4 (POOL[p]). -/
def fields : List Field :=
  [base_lo, base_hi, enable, log2_size, dual, release, use_mask, count, floor, free, empty_events, waiting]
end POOL

/-! ### QUOTA: Table 14-4 (QUOTA[r]) -/
namespace QUOTA
def held : Field := ⟨4, 0, 24, .ro, 0, 0⟩
def peak : Field := ⟨8, 0, 24, .ro, 0, 0⟩
def waits : Field := ⟨0xc, 0, 16, .ro, 0, 0⟩
def limit (r : Nat) : Field := ⟨0, 0, 24, .rwl, (if r ≤ 2048 then 0x10000 else 0x8000), 0⟩
/-- Every field of the QUOTA registers, in the order of Table 14-4 (QUOTA[r]). -/
def fields (r : Nat) : List Field :=
  [held, peak, waits, limit r]
end QUOTA

/-! ### CCACHE: Table 14-5 -/
namespace CCACHE
def enable : Field := ⟨0, 0, 1, .rwl, 1, 0⟩
def clean_all : Field := ⟨0, 1, 1, .wo, 0, 0⟩
def clear_stats : Field := ⟨0, 2, 1, .wo, 0, 0⟩
def op_state : Field := ⟨4, 0, 2, .ro, 0, 0⟩
def op_refused : Field := ⟨4, 2, 1, .w1c, 0, 0⟩
def commit_error : Field := ⟨4, 3, 1, .w1c, 0, 0⟩
def dirty : Field := ⟨4, 4, 1, .ro, 0, 0⟩
def draining : Field := ⟨4, 8, 8, .ro, 0, 0⟩
def lock_mask : Field := ⟨8, 0, 16, .ro, 0, 0⟩
def power_state : Field := ⟨8, 16, 16, .ro, 0xffff, 0xffff⟩
def way_on : Field := ⟨0xc, 0, 8, .rwl, 0xff, 0xff⟩
def ways : Field := ⟨0x10, 0, 16, .wo, 0, 0⟩
def stream_len : Field := ⟨0x14, 0, 8, .rwl, 0x20, 0x20⟩
def gap_time : Field := ⟨0x14, 8, 8, .rwl, 0xa, 0xa⟩
def op_addr_lo : Field := ⟨0x60, 6, 26, .rwl, 0, 0⟩
def op_addr_hi : Field := ⟨0x64, 0, 5, .rwl, 0, 0⟩
def op_len : Field := ⟨0x68, 0, 32, .rwl, 0, 0⟩
def kind : Field := ⟨0x6c, 0, 2, .wo, 0, 0⟩
def way_mask : Field := ⟨0x6c, 2, 16, .wo, 0, 0⟩
def lock : Field := ⟨0x6c, 18, 1, .wo, 0, 0⟩
def hits : Field := ⟨0x80, 0, 32, .ro, 0, 0⟩
def misses : Field := ⟨0x84, 0, 32, .ro, 0, 0⟩
def writebacks : Field := ⟨0x88, 0, 32, .ro, 0, 0⟩
def victim_hits : Field := ⟨0x8c, 0, 16, .ro, 0, 0⟩
def stream_bypass : Field := ⟨0x8c, 16, 16, .ro, 0, 0⟩
def overflow : Field := ⟨0x90, 0, 16, .ro, 0, 0⟩
/-- Every field of the CCACHE registers, in the order of Table 14-5. -/
def fields : List Field :=
  [enable, clean_all, clear_stats, op_state, op_refused, commit_error, dirty, draining, lock_mask, power_state, way_on, ways, stream_len, gap_time, op_addr_lo, op_addr_hi, op_len, kind, way_mask, lock, hits, misses, writebacks, victim_hits, stream_bypass, overflow]
end CCACHE

/-! ### REGION: Table 14-5 (REGION[i]) -/
namespace REGION
def base_lo : Field := ⟨0, 6, 26, .rwi, 0, 0⟩
def base_hi : Field := ⟨4, 0, 5, .rwi, 0, 0⟩
def lines : Field := ⟨8, 0, 32, .rwi, 0, 0⟩
/-- Every field of the REGION registers, in the order of Table 14-5 (REGION[i]). -/
def fields : List Field :=
  [base_lo, base_hi, lines]
end REGION

/-! ### DRAMC: Table 15-7 -/
namespace DRAMC
def train : Field := ⟨0, 0, 1, .wo, 0, 0⟩
def switch : Field := ⟨0, 1, 1, .wo, 0, 0⟩
def clear_stats : Field := ⟨0, 2, 1, .wo, 0, 0⟩
def state : Field := ⟨4, 0, 3, .ro, 2, 0⟩
def active_set : Field := ⟨4, 3, 1, .ro, 0, 0⟩
def switch_refused : Field := ⟨4, 4, 1, .w1c, 0, 0⟩
def mismatch : Field := ⟨4, 5, 1, .ro, 0, 0⟩
def throttled : Field := ⟨4, 6, 1, .w1c, 0, 0⟩
def width : Field := ⟨8, 0, 1, .rwi, 0, 0⟩
def density : Field := ⟨8, 1, 2, .rwi, 0, 0⟩
def ranks : Field := ⟨8, 3, 1, .rwi, 0, 0⟩
def train_retry : Field := ⟨8, 4, 4, .rwl, 3, 3⟩
def resilver_rate : Field := ⟨0xc, 0, 16, .rwl, 0x50, 0x50⟩
def raa_imt : Field := ⟨0x14, 0, 12, .ro, 0, 0⟩
def raa_mmt : Field := ⟨0x14, 12, 12, .ro, 0, 0⟩
def act_thr : Field := ⟨0x18, 0, 12, .rwl, 0x200, 0x200⟩
def throttle_gap : Field := ⟨0x18, 12, 12, .rwl, 0xc8, 0xc8⟩
def throttle_windows : Field := ⟨0x18, 24, 8, .rwl, 0x10, 0x10⟩
def freezes : Field := ⟨0x1c, 0, 16, .ro, 0, 0⟩
def switches : Field := ⟨0x1c, 16, 16, .ro, 0, 0⟩
def rfm_issued : Field := ⟨0x20, 0, 32, .ro, 0, 0⟩
def events : Field := ⟨0x24, 0, 16, .ro, 0, 0⟩
def copied : Field := ⟨0x28, 0, 32, .ro, 0, 0⟩
def age (j : Nat) : Field := ⟨0x10, (0 + 6*j), 6, .rwl, (#[2,4,8,32,63].getD j 0), (#[2,4,8,32,63].getD j 0)⟩
/-- Every field of the DRAMC registers, in the order of Table 15-7. -/
def fields : List Field :=
  [train, switch, clear_stats, state, active_set, switch_refused, mismatch, throttled, width, density, ranks, train_retry, resilver_rate, raa_imt, raa_mmt, act_thr, throttle_gap, throttle_windows, freezes, switches, rfm_issued, events, copied] ++
  (List.range 5).map (age)
end DRAMC

/-! ### TSET: Table 15-7 (TSET[n]) -/
namespace TSET
def rate (n : Nat) : Field := ⟨0, 0, 3, .rwi, (if n = 0 then 4 else 2), 0⟩
def cl (n : Nat) : Field := ⟨0, 8, 8, .rwi, (if n = 0 then 52 else 40), 0⟩
def trcd (n : Nat) : Field := ⟨4, 0, 8, .rwi, (if n = 0 then 52 else 39), 0⟩
def trp (n : Nat) : Field := ⟨4, 8, 8, .rwi, (if n = 0 then 52 else 39), 0⟩
def tras (n : Nat) : Field := ⟨4, 16, 8, .rwi, (if n = 0 then 103 else 77), 0⟩
def trfc : Field := ⟨8, 0, 10, .rwi, 0x19a, 0⟩
def trefi : Field := ⟨8, 12, 16, .rwi, 0xf3c, 0⟩
/-- Every field of the TSET registers, in the order of Table 15-7 (TSET[n]). -/
def fields (n : Nat) : List Field :=
  [rate n, cl n, trcd n, trp n, tras n, trfc, trefi]
end TSET

/-! ### MEMPROT: Table 15-8 -/
namespace MEMPROT
def scrub_enable : Field := ⟨0, 0, 1, .rwl, 1, 0⟩
def clear_stats : Field := ⟨0, 1, 1, .wo, 0, 0⟩
def clear_table : Field := ⟨0, 2, 1, .wo, 0, 0⟩
def dram_pass : Field := ⟨4, 0, 8, .rwl, 0x18, 0x18⟩
def sram_pass : Field := ⟨4, 8, 16, .rwl, 0x3c, 0x3c⟩
def dram_passes : Field := ⟨8, 0, 16, .ro, 0, 0⟩
def sram_passes : Field := ⟨8, 16, 16, .ro, 0, 0⟩
def dev_thr : Field := ⟨0xc, 0, 8, .rwl, 0x10, 0x10⟩
def freeze_limit : Field := ⟨0xc, 8, 8, .rwl, 3, 3⟩
def CE_DRAM_count : Field := ⟨0x10, 0, 32, .ro, 0, 0⟩
def CE_SRAM_count : Field := ⟨0x14, 0, 32, .ro, 0, 0⟩
def UE_DRAM_count : Field := ⟨0x18, 0, 32, .ro, 0, 0⟩
def UE_SRAM_count : Field := ⟨0x1c, 0, 32, .ro, 0, 0⟩
def mark_device (x : Nat) (i : Nat) : Field := ⟨(0x20 + 4*x), (0 + 8*i), 4, .ro, 0, 0⟩
def mark_valid (x : Nat) (i : Nat) : Field := ⟨(0x20 + 4*x), (7 + 8*i), 1, .w1c, 0, 0⟩
/-- Every field of the MEMPROT registers, in the order of Table 15-8. -/
def fields : List Field :=
  [scrub_enable, clear_stats, clear_table, dram_pass, sram_pass, dram_passes, sram_passes, dev_thr, freeze_limit, CE_DRAM_count, CE_SRAM_count, UE_DRAM_count, UE_SRAM_count] ++
  (List.range 2).flatMap (fun i0 => (List.range 4).map (mark_device i0)) ++
  (List.range 2).flatMap (fun i0 => (List.range 4).map (mark_valid i0))
end MEMPROT

/-! ### MIRROR: Table 15-8 (MIRROR[i]) -/
namespace MIRROR
def base : Field := ⟨0, 0, 20, .rwi, 0, 0⟩
def size : Field := ⟨4, 0, 20, .rwi, 0, 0⟩
/-- Every field of the MIRROR registers, in the order of Table 15-8 (MIRROR[i]). -/
def fields : List Field :=
  [base, size]
end MIRROR

/-! ### CE: Table 15-8 (CE[i]) -/
namespace CE
def addr : Field := ⟨0, 0, 32, .ro, 0, 0⟩
def addr_hi : Field := ⟨4, 0, 5, .ro, 0, 0⟩
def kind : Field := ⟨4, 7, 1, .ro, 0, 0⟩
def valid : Field := ⟨4, 15, 1, .ro, 0, 0⟩
def source : Field := ⟨4, 16, 16, .ro, 0, 0⟩
def devices : Field := ⟨8, 0, 10, .ro, 0, 0⟩
def bytes : Field := ⟨8, 16, 8, .ro, 0, 0⟩
def count : Field := ⟨0xc, 0, 16, .ro, 0, 0⟩
def time_lo : Field := ⟨0x10, 0, 32, .ro, 0, 0⟩
def time_hi : Field := ⟨0x14, 0, 32, .ro, 0, 0⟩
/-- Every field of the CE registers, in the order of Table 15-8 (CE[i]). -/
def fields : List Field :=
  [addr, addr_hi, kind, valid, source, devices, bytes, count, time_lo, time_hi]
end CE

/-! ### CIPHER: Table 16-5 -/
namespace CIPHER
def enable : Field := ⟨0, 0, 1, .rwl, 1, 0⟩
def clear_stats : Field := ⟨0, 1, 1, .wo, 0, 0⟩
def rearm : Field := ⟨0, 2, 1, .wo, 0, 0⟩
def state : Field := ⟨4, 0, 2, .ro, 2, 0⟩
def cause : Field := ⟨4, 4, 4, .w1c, 0, 0⟩
def active : Field := ⟨4, 8, 4, .ro, 0, 0⟩
def epoch : Field := ⟨8, 0, 32, .ro, 1, 0⟩
def loaded : Field := ⟨0xc, 0, 17, .ro, 0, 0⟩
def cached : Field := ⟨0x10, 0, 10, .ro, 0, 0⟩
def hits : Field := ⟨0x14, 0, 32, .ro, 0, 0⟩
def fetches : Field := ⟨0x18, 0, 32, .ro, 0, 0⟩
def retries : Field := ⟨0x1c, 0, 16, .ro, 0, 0⟩
def fences : Field := ⟨0x1c, 16, 16, .ro, 0, 0⟩
def requests : Field := ⟨0x20, 0, 32, .ro, 0, 0⟩
def blocks : Field := ⟨0x24, 0, 32, .ro, 0, 0⟩
def depth : Field := ⟨0x28, 0, 13, .ro, 0, 0⟩
def core_state (i : Nat) : Field := ⟨(0x40 + 4*i), 0, 2, .ro, 0, 0⟩
def core_units (i : Nat) : Field := ⟨(0x40 + 4*i), 8, 24, .ro, 0, 0⟩
/-- Every field of the CIPHER registers, in the order of Table 16-5. -/
def fields : List Field :=
  [enable, clear_stats, rearm, state, cause, active, epoch, loaded, cached, hits, fetches, retries, fences, requests, blocks, depth] ++
  (List.range 8).map (core_state) ++
  (List.range 8).map (core_units)
end CIPHER

/-! ### CHAIN: Table 17-6 -/
namespace CHAIN
def enable : Field := ⟨0, 0, 1, .rwl, 1, 0⟩
def retrain : Field := ⟨0, 1, 1, .wo, 0, 0⟩
def time_master : Field := ⟨0, 2, 1, .rwi, 0, 0⟩
def clear_stats : Field := ⟨0, 3, 1, .wo, 0, 0⟩
def retrain_limit : Field := ⟨0, 4, 3, .rwl, 3, 3⟩
def topology : Field := ⟨4, 10, 2, .ro, 0, 0⟩
def dup_id : Field := ⟨4, 12, 1, .ro, 0, 0⟩
def window_miss : Field := ⟨4, 13, 1, .w1c, 0, 0⟩
def commit_pending : Field := ⟨4, 14, 1, .ro, 0, 0⟩
def commit_error : Field := ⟨4, 15, 1, .w1c, 0, 0⟩
def time_locked : Field := ⟨4, 16, 1, .ro, 0, 0⟩
def dup_master : Field := ⟨4, 17, 1, .ro, 0, 0⟩
def go : Field := ⟨8, 0, 1, .wo, 0, 0⟩
def module_id : Field := ⟨0xc, 0, 16, .rwi, 0xffff, 0xffff⟩
def epoch : Field := ⟨0x10, 0, 8, .ro, 0, 0⟩
def req_timeout : Field := ⟨0x14, 0, 16, .rwl, 0x64, 0x64⟩
def mirror_timeout : Field := ⟨0x14, 16, 16, .rwl, 0x7d0, 0x7d0⟩
def hops_to_master : Field := ⟨0x18, 0, 16, .ro, 0, 0⟩
def members : Field := ⟨0x18, 16, 16, .ro, 0, 0⟩
def offset : Field := ⟨0x1c, 0, 32, .ro, 0, 0⟩
def addr : Field := ⟨0x20, 0, 32, .ro, 0, 0⟩
def addr_hi : Field := ⟨0x24, 0, 16, .ro, 0, 0⟩
def source : Field := ⟨0x24, 16, 16, .ro, 0, 0⟩
def crc_errors : Field := ⟨0x28, 0, 16, .ro, 0, 0⟩
def replays : Field := ⟨0x28, 16, 16, .ro, 0, 0⟩
def cu_state : Field := ⟨4, 0, 2, .ro, 0, 0⟩
def cd_state : Field := ⟨4, 2, 2, .ro, 0, 0⟩
def cu_lanes : Field := ⟨4, 4, 3, .ro, 0, 0⟩
def cd_lanes : Field := ⟨4, 7, 3, .ro, 0, 0⟩
/-- Every field of the CHAIN registers, in the order of Table 17-6. -/
def fields : List Field :=
  [enable, retrain, time_master, clear_stats, retrain_limit, topology, dup_id, window_miss, commit_pending, commit_error, time_locked, dup_master, go, module_id, epoch, req_timeout, mirror_timeout, hops_to_master, members, offset, addr, addr_hi, source, crc_errors, replays, cu_state, cd_state, cu_lanes, cd_lanes]
end CHAIN

/-! ### WIN: Table 17-6 (WIN[w]) -/
namespace WIN
def src_id : Field := ⟨0, 0, 16, .rws, 0xffff, 0xffff⟩
def read : Field := ⟨0, 16, 1, .rws, 0, 0⟩
def write : Field := ⟨0, 17, 1, .rws, 0, 0⟩
def mirror : Field := ⟨0, 18, 1, .rws, 0, 0⟩
def enable : Field := ⟨0, 19, 1, .rws, 0, 0⟩
def chain_base_lo : Field := ⟨4, 0, 32, .rws, 0, 0⟩
def chain_base_hi : Field := ⟨8, 0, 16, .rws, 0, 0⟩
def size : Field := ⟨0xc, 0, 32, .rws, 0, 0⟩
def local_base_lo : Field := ⟨0x10, 12, 20, .rws, 0, 0⟩
def local_base_hi : Field := ⟨0x14, 0, 5, .rws, 0, 0⟩
/-- Every field of the WIN registers, in the order of Table 17-6 (WIN[w]). -/
def fields : List Field :=
  [src_id, read, write, mirror, enable, chain_base_lo, chain_base_hi, size, local_base_lo, local_base_hi]
end WIN

/-! ### CMIRROR: Table 17-6 (MIRROR[m]) -/
namespace CMIRROR
def ns_id : Field := ⟨0, 0, 32, .rws, 0, 0⟩
def peer_id : Field := ⟨4, 0, 16, .rws, 0xffff, 0xffff⟩
def slots : Field := ⟨4, 16, 8, .rws, 0, 0⟩
def enable : Field := ⟨4, 24, 1, .rws, 0, 0⟩
def chain_base_lo : Field := ⟨8, 0, 32, .rws, 0, 0⟩
def chain_base_hi : Field := ⟨0xc, 0, 16, .rws, 0, 0⟩
/-- Every field of the CMIRROR registers, in the order of Table 17-6 (MIRROR[m]). -/
def fields : List Field :=
  [ns_id, peer_id, slots, enable, chain_base_lo, chain_base_hi]
end CMIRROR

/-! ### CALIB: Table 19-6 -/
namespace CALIB
def auto_trim : Field := ⟨0, 0, 1, .rwl, 1, 0⟩
def replan_enable : Field := ⟨0, 1, 1, .rwl, 1, 0⟩
def disc_trim_enable : Field := ⟨0, 2, 1, .rwl, 1, 0⟩
def clear_stats : Field := ⟨0, 3, 1, .wo, 0, 0⟩
def margin_exhausted : Field := ⟨4, 0, 1, .w1c, 0, 0⟩
def trim_limit : Field := ⟨4, 1, 1, .w1c, 0, 0⟩
def trend_warn : Field := ⟨4, 2, 1, .w1c, 0, 0⟩
def trend_limit : Field := ⟨4, 3, 1, .w1c, 0, 0⟩
def last_action : Field := ⟨4, 4, 4, .ro, 0, 0⟩
def vcore_steps : Field := ⟨4, 8, 4, .ro, 0, 0⟩
def cap_floor : Field := ⟨8, 0, 8, .rwl, 0x69, 0x69⟩
def cap_recover : Field := ⟨8, 8, 8, .rwl, 0x73, 0x73⟩
def cap_now : Field := ⟨8, 16, 16, .ro, 0, 0⟩
def slack_floor : Field := ⟨0xc, 0, 12, .rwl, 0x190, 0x190⟩
def slack_recover : Field := ⟨0xc, 12, 12, .rwl, 0x2bc, 0x2bc⟩
def settle : Field := ⟨0x10, 0, 8, .rwl, 0xa, 0xa⟩
def speed_hold : Field := ⟨0x10, 8, 8, .rwl, 0x3c, 0x3c⟩
def vcore_hold : Field := ⟨0x10, 16, 8, .rwl, 0x18, 0x18⟩
def speed_step_max : Field := ⟨0x10, 24, 4, .rwl, 8, 8⟩
def trial_revs : Field := ⟨0x14, 0, 8, .rwl, 8, 8⟩
def head_share : Field := ⟨0x14, 8, 8, .rwl, 0x10, 0x10⟩
def max_step : Field := ⟨0x14, 16, 4, .rwl, 4, 4⟩
def laser_warn : Field := ⟨0x18, 0, 8, .rwl, 0x14, 0x14⟩
def laser_limit : Field := ⟨0x18, 8, 8, .rwl, 0x32, 0x32⟩
def coil_warn : Field := ⟨0x18, 16, 8, .rwl, 0xf, 0xf⟩
def coil_limit : Field := ⟨0x18, 24, 8, .rwl, 0x1e, 0x1e⟩
def flux_warn : Field := ⟨0x1c, 0, 8, .rwl, 5, 5⟩
def flux_limit : Field := ⟨0x1c, 8, 8, .rwl, 0xa, 0xa⟩
def ce_warn : Field := ⟨0x1c, 16, 16, .rwl, 0x64, 0x64⟩
def worst_slack : Field := ⟨0x20, 0, 12, .ro, 0xfff, 0xfff⟩
def worst_engine : Field := ⟨0x20, 12, 7, .ro, 0, 0⟩
def stored : Field := ⟨0x24, 0, 13, .ro, 0, 0⟩
def trials : Field := ⟨0x28, 0, 16, .ro, 0, 0⟩
def rejected : Field := ⟨0x28, 16, 16, .ro, 0, 0⟩
def bay_step (b : Nat) : Field := ⟨(0x40 + 4*b), 0, 4, .ro, 0, 0⟩
def bay_rpm (b : Nat) : Field := ⟨(0x40 + 4*b), 4, 13, .ro, 0x1518, 0x1518⟩
def bay_limited (b : Nat) : Field := ⟨(0x40 + 4*b), 17, 1, .ro, 0, 0⟩
def head_temp (g : Nat) : Field := ⟨(0x80 + 4*g), 0, 16, .ro, 0, 0⟩
def head_sensor_fault (g : Nat) : Field := ⟨(0x80 + 4*g), 16, 1, .ro, 0, 0⟩
/-- Every field of the CALIB registers, in the order of Table 19-6. -/
def fields : List Field :=
  [auto_trim, replan_enable, disc_trim_enable, clear_stats, margin_exhausted, trim_limit, trend_warn, trend_limit, last_action, vcore_steps, cap_floor, cap_recover, cap_now, slack_floor, slack_recover, settle, speed_hold, vcore_hold, speed_step_max, trial_revs, head_share, max_step, laser_warn, laser_limit, coil_warn, coil_limit, flux_warn, flux_limit, ce_warn, worst_slack, worst_engine, stored, trials, rejected] ++
  (List.range 8).map (bay_step) ++
  (List.range 8).map (bay_rpm) ++
  (List.range 8).map (bay_limited) ++
  (List.range 16).map (head_temp) ++
  (List.range 16).map (head_sensor_fault)
end CALIB

/-! ### MGMT: Table 20-14 (MGMT) -/
namespace MGMT
def go : Field := ⟨0, 0, 1, .wo, 0, 0⟩
def busy : Field := ⟨0, 1, 1, .ro, 0, 0⟩
def done : Field := ⟨0, 2, 1, .w1c, 0, 0⟩
def mbox_overrun : Field := ⟨0, 3, 1, .w1c, 0, 0⟩
def mbox_irq : Field := ⟨0, 4, 1, .rwl, 1, 0⟩
def events : Field := ⟨4, 0, 13, .w1c, 0, 0⟩
def vec0 : Field := ⟨8, 0, 13, .rwl, 0x1fff, 0⟩
def alert : Field := ⟨0xc, 0, 13, .rwl, 0x1c00, 0x1c00⟩
def smb_addr : Field := ⟨0x10, 0, 7, .rwl, 0x4e, 0x4e⟩
def ckpt : Field := ⟨0x14, 0, 8, .rwl, 0xf, 0xf⟩
def viol_addr : Field := ⟨0x18, 0, 32, .ro, 0, 0⟩
def viol_source : Field := ⟨0x1c, 0, 16, .ro, 0, 0⟩
def viol_kind : Field := ⟨0x1c, 16, 8, .ro, 0, 0⟩
def viol_count : Field := ⟨0x20, 0, 32, .ro, 0, 0⟩
/-- Every field of the MGMT registers, in the order of Table 20-14 (MGMT). -/
def fields : List Field :=
  [go, busy, done, mbox_overrun, mbox_irq, events, vec0, alert, smb_addr, ckpt, viol_addr, viol_source, viol_kind, viol_count]
end MGMT

/-! ### NVIMAGE: Table 20-14 (NVIMAGE) -/
namespace NVIMAGE
def in_force : Field := ⟨0, 0, 2, .ro, 3, 3⟩
def image_absent : Field := ⟨0, 2, 1, .ro, 0, 0⟩
def image_conflict : Field := ⟨0, 3, 1, .w1c, 0, 0⟩
def programming : Field := ⟨0, 4, 1, .ro, 0, 0⟩
def fail_count : Field := ⟨0, 5, 2, .ro, 0, 0⟩
def gen_lo : Field := ⟨8, 0, 32, .ro, 0, 0⟩
def gen_hi : Field := ⟨0xc, 0, 32, .ro, 0, 0⟩
/-- Every field of the NVIMAGE registers, in the order of Table 20-14 (NVIMAGE). -/
def fields : List Field :=
  [in_force, image_absent, image_conflict, programming, fail_count, gen_lo, gen_hi]
end NVIMAGE

/-! ### SELFTEST: Table 20-14 (SELFTEST) -/
namespace SELFTEST
def source : Field := ⟨0, 0, 16, .ro, 0, 0⟩
def outcome : Field := ⟨0, 16, 2, .ro, 0, 0⟩
def transient : Field := ⟨4, 0, 16, .ro, 0, 0⟩
def lasting : Field := ⟨4, 16, 16, .ro, 0, 0⟩
/-- Every field of the SELFTEST registers, in the order of Table 20-14 (SELFTEST). -/
def fields : List Field :=
  [source, outcome, transient, lasting]
end SELFTEST

/-! ### SEQ: Table 21-3 -/
namespace SEQ
def available : Field := ⟨0, 0, 1, .ro, 0, 0⟩
def bare_group : Field := ⟨0, 1, 1, .ro, 0, 1⟩
def disc_unusable : Field := ⟨0, 2, 1, .ro, 0, 0⟩
def interlock : Field := ⟨0, 3, 1, .ro, 0, 0⟩
def spindle_fault : Field := ⟨0, 4, 1, .ro, 0, 0⟩
def axis_fault : Field := ⟨0, 5, 1, .ro, 0, 0⟩
def margin : Field := ⟨0, 6, 1, .ro, 0, 0⟩
def mailbox : Field := ⟨0, 8, 4, .ro, 0, 0⟩
/-- Every field of the SEQ registers, in the order of Table 21-3. -/
def fields : List Field :=
  [available, bare_group, disc_unusable, interlock, spindle_fault, axis_fault, margin, mailbox]
end SEQ

/-! ### GLOBAL: Table 21-5 -/
namespace GLOBAL
def device : Field := ⟨0, 0, 16, .ro, 0x8160, 0x8160⟩
def step : Field := ⟨0, 16, 8, .ro, 2, 2⟩
def mode : Field := ⟨4, 0, 2, .ro, 1, 0⟩
def start_done : Field := ⟨4, 2, 1, .ro, 1, 0⟩
def warm : Field := ⟨4, 3, 1, .ro, 0, 0⟩
def fail_count : Field := ⟨4, 4, 2, .ro, 0, 0⟩
def reason : Field := ⟨4, 8, 8, .ro, 0, 0⟩
def first_tag : Field := ⟨8, 0, 16, .wo, 0, 0⟩
def last_tag : Field := ⟨8, 16, 16, .wo, 0, 0⟩
def last_first : Field := ⟨0xc, 0, 16, .ro, 0, 0⟩
def pending : Field := ⟨0xc, 16, 1, .ro, 0, 0⟩
def rejected : Field := ⟨0xc, 17, 1, .w1c, 0, 0⟩
def no_group : Field := ⟨0xc, 18, 1, .w1c, 0, 0⟩
def version : Field := ⟨0x10, 0, 32, .ro, 0, 0⟩
def blocks : Field := ⟨0x14, 0, 17, .ro, 0x1ffff, 7⟩
def bays : Field := ⟨0x14, 24, 8, .ro, 0xff, 0⟩
def scratch : Field := ⟨0x18, 0, 32, .rwl, 0, 0⟩
/-- Every field of the GLOBAL registers, in the order of Table 21-5. -/
def fields : List Field :=
  [device, step, mode, start_done, warm, fail_count, reason, first_tag, last_tag, last_first, pending, rejected, no_group, version, blocks, bays, scratch]
end GLOBAL

/-! ### POWER: Table 21-6 -/
namespace POWER
def domain_on : Field := ⟨0, 0, 20, .rwl, 0xfffff, 0⟩
def domain_state : Field := ⟨4, 0, 20, .ro, 0xfffff, 0⟩
def domain_refused : Field := ⟨8, 0, 1, .w1c, 0, 0⟩
def over_cap : Field := ⟨8, 1, 1, .ro, 0, 0⟩
def thermal_warn : Field := ⟨8, 2, 1, .ro, 0, 0⟩
def power_fail : Field := ⟨8, 3, 1, .ro, 0, 0⟩
def power_fail_seen : Field := ⟨8, 4, 1, .w1c, 0, 0⟩
def cap_mw : Field := ⟨0xc, 0, 17, .rwl, 0x1d4c0, 0x1d4c0⟩
def committed_mw : Field := ⟨0x10, 0, 17, .ro, 0x13498, 0x2ee0⟩
def p_in_mw : Field := ⟨0x14, 0, 17, .ro, 0, 0⟩
def overhead_mw : Field := ⟨0x18, 0, 16, .rwl, 0x2328, 0x2328⟩
def run_allow : Field := ⟨0x18, 16, 16, .rwl, 0x5dc, 0x5dc⟩
def seek_mw : Field := ⟨0x1c, 0, 16, .rwl, 0x3e8, 0x3e8⟩
def write_mw : Field := ⟨0x1c, 16, 16, .rwl, 0x1f4, 0x1f4⟩
def spin_min : Field := ⟨0x20, 0, 16, .rwl, 0xbb8, 0xbb8⟩
def reserve_mw : Field := ⟨0x20, 16, 16, .rwl, 0x5208, 0x5208⟩
def spin_max : Field := ⟨0x24, 0, 4, .rwl, 3, 3⟩
def spin_gap : Field := ⟨0x24, 8, 8, .rwl, 0x32, 0x32⟩
def spin_held : Field := ⟨0x28, 0, 4, .ro, 0, 0⟩
def seek_held : Field := ⟨0x28, 4, 5, .ro, 0, 0⟩
def write_held : Field := ⟨0x28, 9, 4, .ro, 0, 0⟩
def queued : Field := ⟨0x28, 16, 8, .ro, 0, 0⟩
def trim : Field := ⟨0x2c, 0, 4, .rwl, 0, 0⟩
def vcore_mv : Field := ⟨0x2c, 16, 16, .ro, 0x2ee, 0x2ee⟩
def vin : Field := ⟨0x30, 0, 16, .ro, 0, 0⟩
def die_temp : Field := ⟨0x30, 16, 16, .ro, 0, 0⟩
def allow_mw (d : Nat) : Field := ⟨(0x100 + 4*d), 0, 16, (if d = 20 then .ro else .rwl), (allowance d), (allowance d)⟩
/-- Every field of the POWER registers, in the order of Table 21-6. -/
def fields : List Field :=
  [domain_on, domain_state, domain_refused, over_cap, thermal_warn, power_fail, power_fail_seen, cap_mw, committed_mw, p_in_mw, overhead_mw, run_allow, seek_mw, write_mw, spin_min, reserve_mw, spin_max, spin_gap, spin_held, seek_held, write_held, queued, trim, vcore_mv, vin, die_temp] ++
  (List.range 21).map (allow_mw)
end POWER

/-! ### TIMEBASE: Table 21-7 -/
namespace TIMEBASE
def now_lo : Field := ⟨0, 0, 32, .ro, 0, 0⟩
def now_hi : Field := ⟨4, 0, 32, .ro, 0, 0⟩
def local_lo : Field := ⟨8, 0, 32, .ro, 0, 0⟩
def local_hi : Field := ⟨0xc, 0, 32, .ro, 0, 0⟩
def offset_lo : Field := ⟨0x10, 0, 32, .rwl, 0, 0⟩
def offset_hi : Field := ⟨0x14, 0, 32, .rwl, 0, 0⟩
def ref_lost : Field := ⟨0x18, 0, 1, .ro, 0, 0⟩
def ref_lost_seen : Field := ⟨0x18, 1, 1, .w1c, 0, 0⟩
def refsel : Field := ⟨0x18, 2, 1, .ro, 0, 0⟩
def stepped : Field := ⟨0x18, 3, 1, .w1c, 0, 0⟩
def slew : Field := ⟨0x1c, 0, 16, .ro, 0, 0⟩
/-- Every field of the TIMEBASE registers, in the order of Table 21-7. -/
def fields : List Field :=
  [now_lo, now_hi, local_lo, local_hi, offset_lo, offset_hi, ref_lost, ref_lost_seen, refsel, stepped, slew]
end TIMEBASE

/-- Every field of a block. -/
def Blk.fields : Blk → List Field
  | .global => GLOBAL.fields
  | .power => POWER.fields
  | .timebase => TIMEBASE.fields
  | .mgmt => MGMT.fields
  | .nvimage => NVIMAGE.fields
  | .queue => QUEUE.fields
  | .bufpool => BUFPOOL.fields
  | .ccache => CCACHE.fields
  | .dramc _ => DRAMC.fields
  | .memprot => MEMPROT.fields
  | .cipher => CIPHER.fields
  | .chain => CHAIN.fields
  | .decode => DECODE.fields
  | .calib => CALIB.fields
  | .selftest => SELFTEST.fields
  | .spindle _ => SPINDLE.fields
  | .seq _ => SEQ.fields
  | .foc _ => FOC.fields
  | .trk _ => TRK.fields
  | .wr _ => WR.fields
  | .eng g e => ENG.fields g e
  | .sled _ => AXIS.fields .sled ++ SLSA.fields
  | .sa _ => AXIS.fields .sa ++ SLSA.fields
  | .chan _ => CHAN.fields
  | .beam _ _ => BEAM.fields
  | .vchan _ => VCHAN.fields
  | .link _ => LINK.fields
  | .taxis _ => AXIS.fields .transport ++ TAXIS.fields
  | .enc _ => ENC.fields
  | .zone _ => ZONE.fields
  | .func f => FUNC.fields f
  | .pool _ => POOL.fields
  | .quota r => QUOTA.fields r
  | .region _ => REGION.fields
  | .tset _ n => TSET.fields n
  | .mirror _ => MIRROR.fields
  | .ce _ => CE.fields
  | .win _ => WIN.fields
  | .cmirror _ => CMIRROR.fields

/-- The key of a field in the register store: 32 times its BAR0 offset, plus its lowest bit. -/
def regKey (b : Blk) (f : Field) : Nat := (b.base + f.off) * 32 + f.lo

end Sys2Proof.Machine
end

