-- ==== Sys2Proof/Machine/ModuleTypes.lean ====
section
/-! DEFINITION. The state of the management plane and of what all planes share: the register file, the event log, the
power governor and the timebase (chapters 18, 20, 21), and what leaves the module. -/

namespace Sys2Proof.Machine

/-- The events that the spec says are logged. The event number and severity of each are free values (Config). -/
inductive Ev
  | commitError | violation | trimLimit | sensorFault | trimRejected
  | linkFault | coilFault | sampleMiss | moveToSpare | missExcess | testPass | testFail
  | focusLoss | sideMismatch | focusFailed | slip | seekFault | beamOffset | acqTimeout
  | spindleRefused | spindleLoss | spindleFault | axisFault | gearFault | axisRefused
  | opcFail | retryGivenUp | writeFault | anchorFault | relocation
  | decoderMismatch | decoderRetired | recovered | unrecoverable | mount | mountDiffer
  | malformed | completerAbort | busError | poison | surpriseDown | flr | reset
  | queueError | doorbellError | selfTest | fwActivate | fwFailed | namespaceChange | keyChange
  | releaseViolation | allocFail | domainRefused | cacheError
  | dramError | dramFreeze | dramDiag | dramSwitch | dramTrain | mark | ce | ue | throttle
  | cipherMismatch | cipherAlarm | cipherRearm | cipherTag
  | chainDown | chainUp | chainError | duplicate | dupMaster | windowMiss | timeStep | mirrorFault
  | overCap | thermalWarn | powerFail | powerFailEnd | refLost | refRestored | offsetStep
  | margin | speedStep | trend | start | startFailed | imageConflict | imageAbsent | imageFault | nvWrite
deriving DecidableEq, Repr

/-- An event-log entry (R492). -/
structure LogEntry where
  seq : Nat
  time : BitVec 64
  source : BitVec 16
  event : Ev
  flags : BitVec 8
  data : List Nat
deriving DecidableEq, Repr

/-- The event log and what MGMT shows of it (R492, R495, Table 20-14). -/
structure LogSt where
  entries : List LogEntry   -- newest first, at most 16,384
  next : Nat                -- number of the next entry
  events : BitVec 13        -- MGMT.EVENTS
  violAddr : BitVec 32      -- MGMT.VIOL_LO
  violSource : BitVec 16
  violKind : Nat
  violCount : BitVec 32
  lastViol : Tab Nat        -- local ns of each source's last entry for a violation
  suppressed : List (BitVec 16) -- sources with suppressed entries
deriving DecidableEq, Repr

/-- The errors of a resource under R493: its first pass, if any, and its errors counted since. -/
structure ResHist where
  firstPass : Option Nat    -- local ns
  errors : Nat
deriving DecidableEq, Repr

/-- An MSI-X table entry with its pending bit (R315). -/
structure MsixEntry where
  addr : BitVec 64
  data : BitVec 32
  mask : Bool
  pend : Bool
deriving DecidableEq, Repr

/-- A function's MSI-X control (R316). -/
structure MsixFn where
  enable : Bool
  fmask : Bool
deriving DecidableEq, Repr

/-- The register file. A field with no entry in `cfg` reads its Factory value when `loaded` and its Bare value otherwise;
with none in `act` or `sts`, its Bare value. -/
structure RegFile where
  cfg : Tab Nat             -- value last written (RW-L, RW-I) or shadow value (RW-S)
  act : Tab Nat             -- committed value (RW-S)
  sts : Tab Nat             -- RO and W1C fields whose home is the register
  pend : Tab (List Nat)     -- pending set by group tag, values in the order of the group's fields (R503)
  committed : List Nat      -- tags of the groups committed since reset (R528)
  waiting : List Nat        -- groups of the latest GLOBAL.COMMIT that await adoption (Table 21-5)
  loaded : Bool             -- step 7 of Table 20-5 has loaded the Factory values (R6)
  writeLatch : Vector (Tab Nat) 3    -- low words latched by each interface, by address (R506)
  readLatch : Vector (Tab Nat) 3     -- high words latched by each interface (R507)
deriving DecidableEq, Repr

/-- The grant classes of Table 18-5. -/
inductive GrantClass | seek | write | spin
deriving DecidableEq, Repr

/-- A request for a grant: a head's seek, or a bay's write session or spin-up. -/
structure GrantReq where
  cls : GrantClass
  who : Nat                 -- the head (SEEK) or the bay (WRITE, SPIN)
deriving DecidableEq, Repr

structure Grant where
  cls : GrantClass
  who : Nat
  mw : Nat
deriving DecidableEq, Repr

/-- The power governor and the domains (R444–R452). -/
structure Power where
  on : BitVec 20            -- DOMAIN.on
  state : BitVec 20         -- DOMAIN.state
  queue : List GrantReq     -- in arrival order
  held : List Grant
  lastSpin : Option Nat     -- local ns of the last SPIN grant
  overCap : Bool
  thermalWarn : Bool
  powerFail : Bool
  pIn : Nat                 -- mW, mean over 10 ms
  vin : Nat                 -- 10 mV
  dieTemp : Int             -- 1/16 °C
deriving DecidableEq, Repr

/-- The timebase (R455–R458). -/
structure Timebase where
  localNs : Nat             -- LOCAL
  offset : BitVec 64        -- OFFSET, signed ns
  refLost : Bool
  slew : Int                -- present slew, 0.01 ppm
  slewLeft : Int            -- ns of the offset that the slew has yet to remove
  slewFrac : Int            -- the part of a ns that it has gathered, in units of 10^-8 ns
  refsel : Bool             -- the REFSEL strap as latched at reset
deriving DecidableEq, Repr

/-- What the module sends out, beyond its registers and pins. -/
inductive Output
  | hostWrite (f : FuncId) (addr : BitVec 64) (bytes : List Byte)
  | hostRead (f : FuncId) (addr : BitVec 64) (len : Nat)
  | msix (f : FuncId) (vector : Nat) (addr : BitVec 64) (data : BitVec 32)
  | aer (f : FuncId) (uncorrectable : Bool) (addr : BitVec 64)
  | errorCompletion (addr : BitVec 64)
  | chain (port : Port) (packet : List Byte)
  | response (path : MgmtPath) (bytes : List Byte)
  | regRead (i : Iface) (addr value : Nat)
deriving DecidableEq, Repr

end Sys2Proof.Machine
end

