-- ==== Sys2Proof/Machine/ResetValues.lean ====
section
/-! DEFINITION. The value of each part of the state right after reset: the Bare values and the OFF states that the spec gives
(R6, R101, Table 18-4); the values that the spec does not state are the model's (DESIGN CHOICE, log entry 2). -/

namespace Sys2Proof.Machine

def Biquad.zero : Biquad := ⟨0, 0⟩

def Lane.reset : Lane where
  st := .down
  attempts := 0
  valid := 0
  bad := 0
  seq := none
  stream := false
  flags := 0
  fifo := 0
  power := 0
  drive := 0
  threshold := 0
  temp := 0
  period := 0
  levels := Vector.replicate 4 0
  latched := Vector.replicate 4 0
  strategy := Vector.replicate 7 0
  latchedStrategy := Vector.replicate 7 0
  emitterOn := false
  sent := []

/-- A loop on its home engine, off (R3, R101). -/
def LoopSt.reset (g : HeadId) (e : Nat) : LoopSt where
  runner := 7 * g.val + e
  onSpare := false
  st := .off
  stages := Vector.replicate 8 Biquad.zero
  notch := Biquad.zero
  out := 0
  inp := 0
  prevOut := 0
  clampDir := 0
  sample := none
  ovr := 0
  cmd := none
  sampleIx := 0
  misses := []
  excess := false
  excessOver := false
  needSpare := false
  clearOnAdopt := false

def FocSt.reset : FocSt where
  st := .off
  sl := none
  failCause := 0
  lossCount := 0
  attempts := 0
  target := none
  corrections := 0
  crossing := .none
  lockRun := 0
  headers := []
  sumRef := 0x800
  sumAcc := none
  jump := none
  cancelJump := false
  holdOn := false
  holdGood := 0
  feRun := 0
  lastGood := 0
  recapUp := true
  lossSl := none
  lostReported := false
  waitSpindle := false
  began := 0
  lastStep := 0
  lastAcq := 0
  saRef := 0
  tiltErrs := []
  tiltIn := 0
  tiltFree := false
  wantStart := false

def TrkSt.reset : TrkSt where
  st := .off
  track := 0x3FFFF
  failCause := 0
  bias := 0
  lockRun := 0
  running := false
  sinceCross := 0
  lastSign := none
  expected := none
  request := none
  beam := 0
  requested := 0
  corrections := 0
  agree := []
  turns := 0
  lens := none
  seek := none
  seekFrom := 0
  seekTrack := 0
  seekLens := 0
  cancelled := false
  offRun := 0
  inhibit := false
  ek := Vector.replicate 4 none
  acc := Vector.replicate 4 (0, 0)
  beamOff := Vector.replicate 4 0
  noWrite := false
  skewFree := false
  ppWindow := 0
  picotNow := []
  picotWedge := 0
  sledMean := []
  lastSeek := 0
  lastJump := 0

def Runout.reset : Runout where
  active := []
  shadow := []
  retiring := []
  table := .none
  learning := false
  rebuild := false
  nextRebuild := false
  conv := 0
  updates := 0
  maxUpdate := 0
  swapPending := false
  blend := none
  fetching := false
  fetched := none
  sumOut := 0
  sumIn := 0
  count := 0
  ok := false
  means := []
  sqSum := 0
  sqCount := 0
  firstRev := 0
  key := none

def Head.reset (g : HeadId) : Head where
  lanes := Vector.replicate 4 Lane.reset
  coilOff := 0
  loops := Vector.ofFn (fun e : Fin 6 => LoopSt.reset g e.val)
  slot := 7 * g.val + 6
  slotOff := true
  reserve := []
  retired := []
  move := none
  foc := FocSt.reset
  trk := TrkSt.reset
  runout := Vector.replicate 3 Runout.reset
  wedgeFrac := 0
  lost := false
  adopted := []
  temp := 400
  sensorFault := false

def Spindle.reset : Spindle where
  st := .off
  atSpeed := false
  fwActive := false
  limited := false
  regen := false
  faultCause := 0
  lossCount := 0
  grantWait := false
  speed := 0
  ref := 0
  ramp := 0
  rampAgree := 0
  idRef := 0
  iqRef := 0
  intD := 0
  intQ := 0
  intS := 0
  vq := 0
  cut := false
  iErr := 0
  attempts := 0
  revGood := 0
  revArmed := false
  revCount := 0
  revAngle := 0
  losses := []
  stopFault := false
  stopNext := false
  started := 0
  lastStart := 0
  coastBegan := 0
  lastCoast := 0
  iq := 0
  id := 0
  mod := 0
  vin := 0
  pIn := 0
  testPass := none
  wantStart := false

def Chop.reset : Chop := ⟨0, 0, 0, 0, 0, 0⟩

def Axis.reset : Axis where
  st := .off
  mode := 0
  homed := false
  lostHome := false
  faultCause := 0
  testPass := none
  pos := 0
  frac := 0
  vel := 0
  acc := 0
  prick := []
  seg := 0
  segT := 0
  p0 := 0
  v0 := 0
  next := none
  jumpSeg := false
  velTarget := 0
  home := none
  cur := .hold
  chop := Vector.replicate 2 Chop.reset
  profile := none
  stopping := false

def Transport.reset : Transport where
  ax := Axis.reset
  armed := false
  anchor := 0
  master := 0
  p := 0
  q := 1
  fromP := 0
  fromQ := 1
  blendLen := 0
  remaining := 0
  stepInterval := 0
  stepCount := 0
  faultHold := false

def Encoder.reset : Encoder := ⟨0, 0, false, false, 0, 0, 0, 0⟩

def Bay.reset : Bay where
  requests := []
  reports := []
  spindle := Spindle.reset
  wedge := 0
  wedgeAbs := 0
  missed := 0
  marks := false
  markSeen := false
  disc := none
  unusable := false
  sess := .read
  speedStep := 0

def RegFile.reset : RegFile where
  cfg := []
  act := []
  sts := []
  pend := []
  committed := []
  waiting := []
  loaded := false
  writeLatch := Vector.replicate 3 []
  readLatch := Vector.replicate 3 []

def Power.reset : Power where
  on := 0
  state := 0
  queue := []
  held := []
  lastSpin := none
  overCap := false
  thermalWarn := false
  powerFail := false
  pIn := 0
  vin := 0
  dieTemp := 0

def LogSt.reset : LogSt where
  entries := []
  next := 0
  events := 0
  violAddr := 0
  violSource := 0
  violKind := 0
  violCount := 0
  lastViol := []
  suppressed := []

/-- What an MSI-X entry resets to (R315); the value of an entry that is not listed. -/
def MsixEntry.reset : MsixEntry := ⟨0, 0, true, false⟩

def MsixFn.reset : MsixFn := ⟨false, false⟩

def Timebase.reset : Timebase := ⟨0, 0, false, 0, 0, 0, false⟩

end Sys2Proof.Machine
end

