-- ==== Sys2Proof/Machine/State.lean ====
section
/-! DEFINITION. The state of the block as plain data, its state after reset, and the reasons a step can stop. -/

namespace Sys2Proof.Machine

/-- Why a step can stop with a fault. -/
inductive Fault
  /-- Raised by nobody: every command of the block has an effect or none, and none stops the machine. Safe. -/
  | stopped
deriving DecidableEq, Repr

/-- Why a step can be refused. -/
inductive Refusal
  /-- Raised by the dispatch of a command that has no meaning yet, with its mnemonic. Safe: nothing can be proved of it. -/
  | notModelled (mnemonic : String)
deriving DecidableEq, Repr

/-- The state of the QM8160. -/
structure State where
  pending : List Instr          -- the commands that wait, first in first out (the model's queue)
  free : Nat                    -- how many free values have been drawn (the model's counter)
  time : Timebase
  regs : RegFile
  log : LogSt
  power : Power
  heads : Vector Head 16
  bays : Vector Bay 8
  sleds : Vector Axis 16
  sas : Vector Axis 16
  trans : Vector Transport 4
  encs : Vector Encoder 2
  runoutStore : List RunoutRec  -- in DRAM (R160)
  loadedDiscs : List (BitVec 128)   -- most recently loaded first
  trims : Tab Int               -- committed trims of the calibration store (R21)
  beams : Vector (Vector Beam 4) 16     -- by head
  replay : List Frame           -- the replay store (R244)
  wrs : Vector WrHead 16
  extents : List Extent         -- not yet on the medium, oldest first
  nextKey : Nat                 -- the number of the next extent (the model's)
  seqNext : Nat                 -- the next extent sequence number (R251)
  seqEnd : Nat                  -- end of the reserved block as recorded in the NV image
  decoders : Vector Decoder 20
  codewords : List Codeword     -- in the order in which they came
  nextCw : Nat                  -- the number of the next codeword (the model's)
  sweeps : Tab Sweep            -- by head
  mounts : Vector Mount 8
  map : List MapRun             -- newest first
  discStore : List DiscEntry    -- most recently loaded first (R464)
  host : Endpoint
  funcs : Tab Func              -- by function; an unlisted one is detached
  sqs : List Sq
  cqs : List Cq
  lines : List Line
  cmds : List Cmd               -- in fetch order
  nextCmd : Nat                 -- the number of the next command (the model's)
  arb : Arb
  selfTest : Option SelfTest
  bufs : List Buf
  poolWaits : List PoolWait     -- in arrival order
  quotas : Tab Quota            -- by requester
  cache : Cache
  dram : List Host.Cell         -- by DRAM address, rising; an unlisted byte reads 0
  drams : Vector DramCh 2       -- channels A and B
  ceTable : List CeEntry
  marks : Tab Nat               -- marked device by 4 × channel + 2 × subchannel + rank
  devErrs : List DevErr
  sramPos : Nat             -- SRAM scrubs in the present pass
  srams : Tab Nat           -- SRAM banks by source ID: 1 under test, 2 retired (R493)
  cipher : Cipher
  slots : Tab SlotRec           -- key-slot records (REGION[2])
  nss : List Ns
  chain : Chain
  calib : CalibSt
  nv : Nv
  mgmt : Mgmt
  meter : Meter
  resHist : Tab ResHist         -- by source ID (R493)
  msix : Tab MsixEntry          -- by 2048 f + entry (R315)
  msixFns : Tab MsixFn          -- by function
  minimal : Bool                -- GLOBAL.START.mode is 2
  out : List Output             -- what the module has sent, newest first
deriving DecidableEq, Repr

/-- The machine right after reset. -/
def State.reset : State where
  pending := []
  free := 0
  time := Timebase.reset
  regs := RegFile.reset
  log := LogSt.reset
  power := Power.reset
  heads := Vector.ofFn Head.reset
  bays := Vector.replicate 8 Bay.reset
  sleds := Vector.replicate 16 Axis.reset
  sas := Vector.replicate 16 Axis.reset
  trans := Vector.replicate 4 Transport.reset
  encs := Vector.replicate 2 Encoder.reset
  runoutStore := []
  loadedDiscs := []
  trims := []
  beams := Vector.replicate 16 (Vector.replicate 4 Beam.reset)
  replay := []
  wrs := Vector.replicate 16 WrHead.reset
  extents := []
  nextKey := 0
  seqNext := 0
  seqEnd := 0
  decoders := Vector.ofFn (fun i : Fin 20 => Decoder.reset i.val)
  codewords := []
  nextCw := 0
  sweeps := []
  mounts := Vector.replicate 8 Mount.reset
  map := []
  discStore := []
  host := Endpoint.reset
  funcs := []
  sqs := []
  cqs := []
  lines := []
  cmds := []
  nextCmd := 0
  arb := Arb.reset
  selfTest := none
  bufs := []
  poolWaits := []
  quotas := []
  cache := Cache.reset
  dram := []
  drams := Vector.replicate 2 DramCh.reset
  ceTable := []
  marks := []
  devErrs := []
  sramPos := 0
  srams := []
  cipher := Cipher.reset
  slots := []
  nss := []
  chain := Chain.reset
  calib := CalibSt.reset
  nv := Nv.reset
  mgmt := Mgmt.reset
  meter := Meter.reset
  resHist := []
  msix := []
  msixFns := []
  minimal := false
  out := []

end Sys2Proof.Machine
end

