-- ==== Sys2Proof/Machine/Ops.lean ====
section
/-! DEFINITION. The named operations over the state: register fields, shadow groups, the event log, MSI-X, and the updates of
one instance of an indexed part. -/

namespace Sys2Proof.Machine

/-! ### One instance of an indexed part -/

def State.modHead (s : State) (g : HeadId) (f : Head → Head) : State := { s with heads := vmod s.heads g f }
def State.modBay (s : State) (b : BayId) (f : Bay → Bay) : State := { s with bays := vmod s.bays b f }
def State.modSled (s : State) (g : HeadId) (f : Axis → Axis) : State := { s with sleds := vmod s.sleds g f }
def State.modSa (s : State) (g : HeadId) (f : Axis → Axis) : State := { s with sas := vmod s.sas g f }
def State.modTrans (s : State) (n : Fin 4) (f : Transport → Transport) : State := { s with trans := vmod s.trans n f }
def State.modEnc (s : State) (i : Fin 2) (f : Encoder → Encoder) : State := { s with encs := vmod s.encs i f }

def State.modBeam (s : State) (g : HeadId) (k : BeamId) (f : Beam → Beam) : State :=
  { s with beams := vmod s.beams g (fun v => vmod v k f) }
def State.modWr (s : State) (g : HeadId) (f : WrHead → WrHead) : State := { s with wrs := vmod s.wrs g f }
def State.modDecoder (s : State) (i : Fin 20) (f : Decoder → Decoder) : State := { s with decoders := vmod s.decoders i f }
def State.modMount (s : State) (b : BayId) (f : Mount → Mount) : State := { s with mounts := vmod s.mounts b f }
def State.modExtent (s : State) (key : Nat) (f : Extent → Extent) : State :=
  { s with extents := s.extents.map (fun e => if e.key = key then f e else e) }
def State.modCw (s : State) (id : Nat) (f : Codeword → Codeword) : State :=
  { s with codewords := s.codewords.map (fun c => if c.id = id then f c else c) }

def Head.modLoop (h : Head) (l : Fin 6) (f : LoopSt → LoopSt) : Head := { h with loops := vmod h.loops l f }
def Head.modLane (h : Head) (k : BeamId) (f : Lane → Lane) : Head := { h with lanes := vmod h.lanes k f }
def Head.modRunout (h : Head) (l : Fin 3) (f : Runout → Runout) : Head := { h with runout := vmod h.runout l f }
def Head.modFoc (h : Head) (f : FocSt → FocSt) : Head := { h with foc := f h.foc }
def Head.modTrk (h : Head) (f : TrkSt → TrkSt) : Head := { h with trk := f h.trk }
def Bay.modSpindle (x : Bay) (f : Spindle → Spindle) : Bay := { x with spindle := f x.spindle }

def State.modLoop (s : State) (g : HeadId) (l : Fin 6) (f : LoopSt → LoopSt) : State := s.modHead g (·.modLoop l f)
def State.modLane (s : State) (g : HeadId) (k : BeamId) (f : Lane → Lane) : State := s.modHead g (·.modLane k f)
def State.modRunout (s : State) (g : HeadId) (l : Fin 3) (f : Runout → Runout) : State := s.modHead g (·.modRunout l f)
def State.modFoc (s : State) (g : HeadId) (f : FocSt → FocSt) : State := s.modHead g (·.modFoc f)
def State.modTrk (s : State) (g : HeadId) (f : TrkSt → TrkSt) : State := s.modHead g (·.modTrk f)
def State.modSpindle (s : State) (b : BayId) (f : Spindle → Spindle) : State := s.modBay b (·.modSpindle f)

/-- The index of a loop, which is its home engine slot (Table 04-1). -/
def loopIx : Loop → Fin 6
  | .focus => 0
  | .tracking => 1
  | .tilt => 2
  | .skew => 3
  | .sa => 4
  | .sled => 5

/-- The bay of a head (Table 00-1). -/
def bayOf (g : HeadId) : BayId := ⟨g.val / 2, by omega⟩

/-- Head h of bay b (Table 00-1). -/
def headOf (b : BayId) (h : Fin 2) : HeadId := ⟨2 * b.val + h.val, by omega⟩

/-- An axis's class. -/
def axisKind : AxisId → AxisKind
  | .sled _ => .sled
  | .sa _ => .sa
  | .transport _ => .transport

/-- The register block of an axis. -/
def axisBlk : AxisId → Blk
  | .sled g => .sled g
  | .sa g => .sa g
  | .transport n => .taxis n

def State.axis (s : State) : AxisId → Axis
  | .sled g => s.sleds[g.val]
  | .sa g => s.sas[g.val]
  | .transport n => s.trans[n.val].ax

def State.modAxis (s : State) (a : AxisId) (f : Axis → Axis) : State :=
  match a with
  | .sled g => s.modSled g f
  | .sa g => s.modSa g f
  | .transport n => s.modTrans n (fun t => { t with ax := f t.ax })

/-! ### Register fields (R6–R8) -/

/-- What a field that nothing has set holds: its Factory value once the start-up has loaded it, its Bare value before (R6). -/
def State.unset (s : State) (f : Field) : Nat := if s.regs.loaded then f.factory else f.bare

/-- The value last written to a field; of an RW-S field, the shadow (R8). -/
def State.fld (s : State) (b : Blk) (f : Field) : Nat := Tab.get (s.unset f) s.regs.cfg (regKey b f)

/-- The committed value of an RW-S field (R8). -/
def State.act (s : State) (b : Blk) (f : Field) : Nat := Tab.get (s.unset f) s.regs.act (regKey b f)

/-- A status field that the register itself holds. -/
def State.sta (s : State) (b : Blk) (f : Field) : Nat := Tab.get f.bare s.regs.sts (regKey b f)

def State.setFld (s : State) (b : Blk) (f : Field) (v : Nat) : State :=
  { s with regs := { s.regs with cfg := Tab.put s.regs.cfg (regKey b f) (v % 2 ^ f.width) } }

def State.setAct (s : State) (b : Blk) (f : Field) (v : Nat) : State :=
  { s with regs := { s.regs with act := Tab.put s.regs.act (regKey b f) (v % 2 ^ f.width) } }

def State.setSta (s : State) (b : Blk) (f : Field) (v : Nat) : State :=
  { s with regs := { s.regs with sts := Tab.put s.regs.sts (regKey b f) (v % 2 ^ f.width) } }

/-- Sets bits of a sticky status field. -/
def State.orSta (s : State) (b : Blk) (f : Field) (m : Nat) : State := s.setSta b f (s.sta b f ||| m)

/-- Sets a one-bit sticky status field. -/
def State.flag (s : State) (b : Blk) (f : Field) : State := s.setSta b f 1

/-- Adds n to a counter field that saturates. -/
def State.addSat (s : State) (b : Blk) (f : Field) (n : Nat) : State :=
  s.setSta b f (min (s.sta b f + n) (2 ^ f.width - 1))

/-- Increments a counter field that saturates. -/
def State.incSat (s : State) (b : Blk) (f : Field) : State := s.addSat b f 1

/-- The committed value of a signed RW-S field. -/
def State.actS (s : State) (b : Blk) (f : Field) : Int := signed f.width (s.act b f)

/-- The value of a signed field. -/
def State.fldS (s : State) (b : Blk) (f : Field) : Int := signed f.width (s.fld b f)

/-- A field whose value 0 acts as 1. -/
def State.fld1 (s : State) (b : Blk) (f : Field) : Nat := max 1 (s.fld b f)

/-! ### The event log (R23, R492) -/

def srcBlock (i : Nat) : BitVec 16 := BitVec.ofNat 16 i
def srcBay (b : BayId) (x : Nat) : BitVec 16 := BitVec.ofNat 16 (0x1000 + b.val * 256 + x)
def srcHead (g : HeadId) (x : Nat) : BitVec 16 := BitVec.ofNat 16 (0x2000 + g.val * 256 + x)
def srcTransport (n : Nat) : BitVec 16 := BitVec.ofNat 16 (0x3000 + n)
def srcDecoder (i : Nat) : BitVec 16 := BitVec.ofNat 16 (0x4000 + i)
def srcCipher (i : Nat) : BitVec 16 := BitVec.ofNat 16 (0x5000 + i)
def srcDram (c : DramChan) : BitVec 16 := if c = .a then 0x6000 else 0x6001
def srcFunc (f : FuncId) : BitVec 16 := BitVec.ofNat 16 (0x7000 + f.val)

/-- The source ID of an axis (Table 20-11). -/
def srcAxis : AxisId → BitVec 16
  | .sled g => srcHead g 0x50
  | .sa g => srcHead g 0x51
  | .transport n => srcTransport n.val

/-- The published timebase (R455). -/
def State.now (s : State) : BitVec 64 := BitVec.ofNat 64 s.time.localNs + s.time.offset

/-- Writes an event-log entry, dropping the oldest of 16,384 (R23, R492). -/
def State.logWith (s : State) (src : BitVec 16) (e : Ev) (data : List Nat) (vec0 : Bool) : State :=
  let sup := s.log.suppressed.contains src
  let fl := b2n s.time.refLost + 2 * b2n s.minimal + 4 * b2n vec0 + 8 * b2n sup
  { s with log := { s.log with
      entries := (⟨s.log.next, s.now, src, e, BitVec.ofNat 8 fl, data⟩ :: s.log.entries).take 16384
      next := s.log.next + 1
      suppressed := s.log.suppressed.filter (· != src) } }

/-- Writes an event-log entry. -/
def State.logEv (s : State) (src : BitVec 16) (e : Ev) (data : List Nat) : State := s.logWith src e data false

/-! ### MSI-X (R315, R316) -/

/-- Entry v of function f. -/
def State.msixEntry (s : State) (f : FuncId) (v : Nat) : MsixEntry := Tab.get MsixEntry.reset s.msix (2048 * f.val + v)

def State.setMsix (s : State) (f : FuncId) (v : Nat) (e : MsixEntry) : State :=
  { s with msix := Tab.set MsixEntry.reset s.msix (2048 * f.val + v) e }

/-- A function's MSI-X control. -/
def State.msixFn (s : State) (f : FuncId) : MsixFn := Tab.get MsixFn.reset s.msixFns f.val

/-- Something leaves the module. -/
def State.emit (s : State) (o : Output) : State := { s with out := o :: s.out }

/-- A vector fires (R316); in minimal mode PF vector 0 alone can (R309). -/
def State.fireVector (s : State) (f : FuncId) (v : Nat) : State :=
  if s.minimal && (f.val != 0 || v != 0) then s
  else if !(s.msixFn f).enable then s
  else
    let e := s.msixEntry f v
    if e.mask || (s.msixFn f).fmask then s.setMsix f v { e with pend := true }
    else s.emit (.msix f v e.addr e.data)

/-- An event of MGMT.EVENTS: sets its bit, and fires PF vector 0 where VEC0_MASK lets it (Table 20-14). -/
def State.mgmtEvent (s : State) (bit : Nat) : State :=
  let s1 := { s with log := { s.log with events := s.log.events ||| BitVec.ofNat 13 (2 ^ bit) } }
  if bitOf (s.fld .mgmt MGMT.vec0) bit then s1.fireVector 0 0 else s1

/-- Writes an event-log entry for an event that also fires PF vector 0 through a bit of MGMT.EVENTS. -/
def State.logVec (s : State) (src : BitVec 16) (e : Ev) (data : List Nat) (bit : Nat) : State :=
  (s.logWith src e data (bitOf (s.fld .mgmt MGMT.vec0) bit)).mgmtEvent bit

/-- A violation (R495): VIOL and VIOL_COUNT, and an entry unless the source wrote one less than 1 ms ago. -/
def State.violation (s : State) (src : BitVec 16) (kind addr : Nat) : State :=
  let s1 := { s with log := { s.log with
      violAddr := BitVec.ofNat 32 addr
      violSource := src
      violKind := kind
      violCount := BitVec.ofNat 32 (satInc 32 s.log.violCount.toNat) } }
  match Tab.get? s.log.lastViol src.toNat with
  | some t =>
    if s.time.localNs < t + 1000000 then
      { s1 with log := { s1.log with
          suppressed := if s1.log.suppressed.contains src then s1.log.suppressed else src :: s1.log.suppressed } }
    else
      let s2 := s1.logEv src .violation [kind, addr]
      { s2 with log := { s2.log with lastViol := Tab.put s2.log.lastViol src.toNat s.time.localNs } }
  | none =>
    let s2 := s1.logEv src .violation [kind, addr]
    { s2 with log := { s2.log with lastViol := Tab.put s2.log.lastViol src.toNat s.time.localNs } }

/-! ### Targeted self-tests (R493) -/

/-- A resource errs: true where this is its third error within 24 h of its first pass, which is lasting without a test (R493). -/
def State.resError (s : State) (src : BitVec 16) : Bool × State :=
  let r := Tab.get (⟨none, 0⟩ : ResHist) s.resHist src.toNat
  let within := match r.firstPass with
    | some t => decide (s.time.localNs ≤ t + 86400000000000)
    | none => true
  let n := if within then r.errors + 1 else 1
  (decide (3 ≤ n) && r.firstPass.isSome,
    { s with resHist := Tab.put s.resHist src.toNat ⟨if within then r.firstPass else none, n⟩ })

/-- The outcome of a targeted test (R493): SELFTEST.LAST and COUNTS, the log, and the time of the first pass. -/
def State.testOutcome (s : State) (src : BitVec 16) (pass : Bool) : State :=
  let r := Tab.get (⟨none, 0⟩ : ResHist) s.resHist src.toNat
  let s1 := if pass ∧ r.firstPass = none then
      { s with resHist := Tab.put s.resHist src.toNat { r with firstPass := some s.time.localNs } } else s
  let s2 := (s1.setSta .selftest SELFTEST.source src.toNat).setSta .selftest SELFTEST.outcome (if pass then 1 else 2)
  let s3 := if pass then s2.incSat .selftest SELFTEST.transient else s2.incSat .selftest SELFTEST.lasting
  s3.logEv src (if pass then .testPass else .testFail) []

/-- A resource errs and is tested (R493), or is lasting without a test: whether the latter. -/
def State.errTest (s : State) (src : BitVec 16) : Bool × State :=
  let e := s.resError src
  (e.1, if e.1 then e.2.testOutcome src false else e.2)

/-! ### Who answers (R309, R508) -/

/-- The index of a block in Table 21-1; none for what lies in the bays. -/
def Blk.index : Blk → Option Nat
  | .global => some 0
  | .power => some 1
  | .timebase => some 2
  | .mgmt => some 3
  | .nvimage => some 4
  | .queue | .func _ => some 5
  | .bufpool | .pool _ | .quota _ => some 6
  | .ccache | .region _ => some 7
  | .dramc .a | .tset .a _ => some 8
  | .dramc .b | .tset .b _ => some 9
  | .memprot | .mirror _ | .ce _ => some 10
  | .cipher => some 11
  | .chain | .win _ | .cmirror _ => some 12
  | .decode => some 13
  | .taxis _ | .enc _ | .zone _ => some 14
  | .calib => some 15
  | .selftest => some 16
  | _ => none

/-- READY.blocks (Table 21-5): every block once the start is complete, the first three before, and in minimal mode GLOBAL, TIMEBASE, MGMT
and NVIMAGE. -/
def State.readyBlocks (s : State) : Nat := if s.minimal then 0x1D else if s.mgmt.started then 0x1FFFF else 7

/-- READY.bays. -/
def State.readyBays (s : State) : Nat := if s.mgmt.started && !s.minimal then 0xFF else 0

/-- A block answers at its interface (R309, R508). -/
def State.answers (s : State) (b : Blk) : Bool :=
  match b.index with
  | some i => bitOf s.readyBlocks i
  | none => s.readyBays != 0

/-- A write to a block that does not answer is discarded, and recorded as a violation of kind 7 (R309, R495). -/
def State.absent (s : State) (b : Blk) (off : Nat) : State := s.violation (srcFunc 0) 7 (b.base + off)

/-! ### Shadow groups (R502–R504) -/

/-- The RW-S fields of a block. -/
def blkShadow (b : Blk) : List (Blk × Field) := (b.fields.filter (·.cls == .rws)).map (fun f => (b, f))

/-- The blocks whose RW-S fields form the group of a tag (Table 21-4); empty where the tag names no group. -/
def groupBlks (tag : Nat) : List Blk :=
  if h : 0x0100 ≤ tag ∧ tag < 0x0100 + 112 then
    let g : HeadId := ⟨(tag - 0x0100) / 7, by omega⟩
    let e : EngId := ⟨(tag - 0x0100) % 7, by omega⟩
    if e.val = 6 then [] else [.eng g e]
  else if h : 0x0200 ≤ tag ∧ tag < 0x0210 then [.foc ⟨tag - 0x0200, by omega⟩]
  else if h : 0x0300 ≤ tag ∧ tag < 0x0310 then [.trk ⟨tag - 0x0300, by omega⟩]
  else if h : 0x0400 ≤ tag ∧ tag < 0x0408 then [.spindle ⟨tag - 0x0400, by omega⟩]
  else if h : 0x0500 ≤ tag ∧ tag < 0x0510 then [.sled ⟨tag - 0x0500, by omega⟩]
  else if h : 0x0520 ≤ tag ∧ tag < 0x0530 then [.sa ⟨tag - 0x0520, by omega⟩]
  else if h : 0x0540 ≤ tag ∧ tag < 0x0544 then [.taxis ⟨tag - 0x0540, by omega⟩]
  else if h : 0x0600 ≤ tag ∧ tag < 0x0610 then [.chan ⟨tag - 0x0600, by omega⟩]
  else if h : 0x0700 ≤ tag ∧ tag < 0x0710 then [.wr ⟨tag - 0x0700, by omega⟩]
  else if h : 0x0720 ≤ tag ∧ tag < 0x0730 then [.vchan ⟨tag - 0x0720, by omega⟩]
  else if tag = 0x0800 then [.decode]
  else if tag = 0x0900 then
    [.chain] ++ (List.finRange 64).map Blk.win ++ (List.finRange 64).map Blk.cmirror
  else []

/-- The RW-S fields of a group, in a fixed order. -/
def groupFields (tag : Nat) : List (Blk × Field) := (groupBlks tag).flatMap blkShadow

/-- The group's shadow set, copied whole (R503, stage 1). -/
def State.capture (s : State) (tag : Nat) : List Nat := (groupFields tag).map (fun p => s.fld p.1 p.2)

/-- The captured set becomes the pending set (R503, stage 2, a set that passed); the group then holds no bare value (R528). -/
def State.setPending (s : State) (tag : Nat) : State :=
  { s with regs := { s.regs with
      pend := Tab.put s.regs.pend tag (s.capture tag)
      committed := if s.regs.committed.contains tag then s.regs.committed else tag :: s.regs.committed } }

/-- Whether the group has a pending set. -/
def State.pendingSet (s : State) (tag : Nat) : Bool := (Tab.get? s.regs.pend tag).isSome

/-- Whether the group has been committed since reset release (R528). -/
def State.committedOnce (s : State) (tag : Nat) : Bool := s.regs.committed.contains tag

/-- Writes committed values. -/
def actPuts (t : Tab Nat) : List ((Blk × Field) × Nat) → Tab Nat
  | [] => t
  | ((b, f), v) :: r => actPuts (Tab.put t (regKey b f) (v % 2 ^ f.width)) r

/-- The fields of a group that `pick` names take their pending values; `last` ends the pending set (R503, stage 3). -/
def State.adoptPart (s : State) (tag : Nat) (pick : Field → Bool) (last : Bool) : State :=
  match Tab.get? s.regs.pend tag with
  | none => s
  | some vs =>
    { s with regs := { s.regs with
        act := actPuts s.regs.act (((groupFields tag).zip vs).filter (fun p => pick p.1.2))
        pend := if last then Tab.erase s.regs.pend tag else s.regs.pend
        waiting := if last then s.regs.waiting.filter (· != tag) else s.regs.waiting } }

/-- The pending set becomes the committed set in one step (R503, stage 3). -/
def State.adopt (s : State) (tag : Nat) : State := s.adoptPart tag (fun _ => true) true

/-- A commit (R503): a set that passes its check becomes pending; one that fails is discarded, the block's commit_error is
set and the event is logged. -/
def State.commitWith (s : State) (tag : Nat) (ok : Bool) (src : BitVec 16) (err : Option (Blk × Field)) : State :=
  if ok then s.setPending tag
  else
    let s1 := match err with
      | some (b, f) => s.flag b f
      | none => s
    s1.logEv src .commitError [tag]

/-- A free value (DESIGN CHOICE, log entry 1): the next of the opaque sequence. -/
def State.draw (s : State) : Nat × State := (Config.freeNat s.free, { s with free := s.free + 1 })

end Sys2Proof.Machine
end

