-- ==== Sys2Proof/Machine/MemOps.lean ====
section
/-! DEFINITION. DRAM as the module addresses it: bytes by address in one canonical form (addresses strictly rising, no byte equal to
the 0 that an unlisted address reads). -/

namespace Sys2Proof.Machine

/-- The byte at an address; one that nothing has written reads 0 (DESIGN CHOICE, log entry 4). -/
def memRead : List Host.Cell → Nat → Byte
  | [], _ => 0
  | (k, v) :: r, a => if k = a then v else memRead r a

/-- The cells of bytes from an address on, less those that are 0. -/
def memCells (a : Nat) : List Byte → List Host.Cell
  | [] => []
  | b :: r => if b = 0 then memCells (a + 1) r else (a, b) :: memCells (a + 1) r

/-- The memory with bytes written from an address on. -/
def memWrite (m : List Host.Cell) (a : Nat) (l : List Byte) : List Host.Cell :=
  m.filter (fun c => decide (c.1 < a)) ++ (memCells a l ++ m.filter (fun c => decide (a + l.length ≤ c.1)))

/-- n bytes from an address on. -/
def memRange (m : List Host.Cell) (a n : Nat) : List Byte := (List.range n).map (fun i => memRead m (a + i))

/-- Addresses strictly rising, from a bound on, and no cell that holds 0. -/
def memWf : Nat → List Host.Cell → Bool
  | _, [] => true
  | lo, (k, v) :: r => decide (lo ≤ k) && v != 0 && memWf (k + 1) r

/-- The canonical form of the DRAM. -/
def Memory.wf (m : List Host.Cell) : Bool := memWf 0 m

/-- The index of a channel. -/
def chanIx : DramChan → Fin 2
  | .a => 0
  | .b => 1

def ixChan (i : Fin 2) : DramChan := if i = 0 then .a else .b

def otherChan : DramChan → DramChan
  | .a => .b
  | .b => .a

def State.dramCh (s : State) (c : DramChan) : DramCh := s.drams[(chanIx c).val]

def State.modDram (s : State) (c : DramChan) (f : DramCh → DramCh) : State := { s with drams := vmod s.drams (chanIx c) f }

/-- A channel state in which requests for its data are served, at once or at the end of a switch (Table 15-2). -/
def DramState.serves (x : DramState) : Bool := x == .active || x == .switching

/-- A channel state in which writes of mirrored data are taken (R401). -/
def DramState.takes (x : DramState) : Bool := x.serves || x == .resilver

/-- The channel of a DRAM address (R384). -/
def addrChan (a : Nat) : DramChan := if a < 2 ^ 36 then .a else .b

/-- A range lies in a mirrored range or in a pool that keeps both copies; such ranges lie in channel A (R397). -/
def State.mirrored (s : State) (a n : Nat) : Bool :=
  decide (a + n ≤ 2 ^ 36) &&
    ((List.finRange 8).any (fun i =>
        let lo := s.fld (.mirror i) MIRROR.base * 65536
        decide (lo ≤ a) && decide (a + n ≤ lo + s.fld (.mirror i) MIRROR.size * 65536)) ||
      (List.finRange 16).any (fun p =>
        let lo := s.fld (.pool p) POOL.base_hi * 2 ^ 32 + s.fld (.pool p) POOL.base_lo * 4096
        s.fld (.pool p) POOL.dual == 1 && decide (lo ≤ a) &&
          decide (a + n ≤ lo + s.fld (.pool p) POOL.count * 2 ^ s.fld (.pool p) POOL.log2_size)))

def State.dramWrite (s : State) (a : Nat) (l : List Byte) : State := { s with dram := memWrite s.dram a l }

def State.dramRead (s : State) (a n : Nat) : List Byte := memRange s.dram a n

/-- A write into one channel, where its state takes it; in RESILVER the bursts that it covers are no longer copied (R401). -/
def State.chanWrite (s : State) (a : Nat) (l : List Byte) : State :=
  let c := addrChan a
  if !(s.dramCh c).st.takes then s
  else
    let s1 := s.dramWrite a l
    if (s.dramCh c).st = .resilver then
      s1.modDram c (fun x => { x with fresh := ((List.range (l.length / 64 + 1)).map (fun i => a / 64 + i)) ++ x.fresh })
    else s1

/-- A store: mirrored data go to both channels (R397). -/
def State.store (s : State) (a : Nat) (l : List Byte) : State :=
  if s.mirrored a l.length then (s.chanWrite a l).chanWrite (a + 2 ^ 36) l else s.chanWrite a l

/-- The address at which a read of mirrored data is served: channel A where it is ACTIVE, else B where that is, else the one that
switches (R389, R397). -/
def State.serveAt (s : State) (a n : Nat) : Nat :=
  if !s.mirrored a n then a
  else if (s.dramCh .a).st = .active then a
  else if (s.dramCh .b).st = .active then a + 2 ^ 36
  else if (s.dramCh .a).st = .switching then a
  else if (s.dramCh .b).st = .switching then a + 2 ^ 36
  else a

/-- A load. -/
def State.load (s : State) (a n : Nat) : List Byte := s.dramRead (s.serveAt a n) n

end Sys2Proof.Machine
end

