-- ==== Sys2Proof/Machine/BufOps.lean ====
section
/-! DEFINITION. The buffer pool (R355–R367): parts, quotas, allocation, wait lists and release. -/

namespace Sys2Proof.Machine

/-! ### Pools and parts (R357, R360) -/

/-- The size of a pool's buffers in bytes. -/
def State.poolSize (s : State) (p : Fin 16) : Nat := 2 ^ s.fld (.pool p) POOL.log2_size

/-- Where a pool starts. -/
def State.poolBase (s : State) (p : Fin 16) : Nat :=
  s.fld (.pool p) POOL.base_hi * 2 ^ 32 + s.fld (.pool p) POOL.base_lo * 4096

/-- The address of a buffer. -/
def State.bufAddr (s : State) (r : BufRef) : Nat := s.poolBase r.pool + r.index * s.poolSize r.pool

/-- The buffers of a pool that are allocated. -/
def State.poolUsed (s : State) (p : Fin 16) : List Buf := s.bufs.filter (fun b => b.ref.pool == p)

/-- FREE.free of a pool. -/
def State.poolFree (s : State) (p : Fin 16) : Nat := s.fld (.pool p) POOL.count - (s.poolUsed p).length

/-- The kinds of part that a use mask names (R357). -/
inductive PartKind | readData | writeData | chainPort | internalUse
deriving DecidableEq, Repr

def PartKind.bit : PartKind → Nat
  | .readData => 0
  | .writeData => 1
  | .chainPort => 2
  | .internalUse => 3

/-- The sizes of the parts of L bytes (R360). -/
def partSizes (n : Nat) : List Nat :=
  List.replicate (n / 4194304) 4194304 ++ (if n % 4194304 = 0 then [] else [n % 4194304])

/-- A pool serves a part of a kind and size. -/
def State.poolServes (s : State) (k : PartKind) (size : Nat) (p : Fin 16) : Bool :=
  s.fld (.pool p) POOL.enable == 1 && bitOf (s.fld (.pool p) POOL.use_mask) k.bit && decide (size ≤ s.poolSize p)

/-- The better of two pools for a part: the smaller buffer, then the lower number (R360). -/
def State.betterPool (s : State) (best : Option (Fin 16)) (p : Fin 16) : Option (Fin 16) :=
  match best with
  | none => some p
  | some q => if s.poolSize p < s.poolSize q then some p else best

/-- The pool that serves a part (R360). -/
def State.poolFor (s : State) (k : PartKind) (size : Nat) : Option (Fin 16) :=
  ((List.finRange 16).filter (s.poolServes k size)).foldl s.betterPool none

/-- The pools of all parts of a command, none where a part has no matching pool (R360, R361). -/
def State.partPools (s : State) (k : PartKind) : List Nat → Option (List (Fin 16))
  | [] => some []
  | n :: r =>
    match s.poolFor k n, s.partPools k r with
    | some p, some l => some (p :: l)
    | _, _ => none

/-- The charge of parts in 4 KiB (R356). -/
def State.chargeOf (s : State) (l : List (Fin 16)) : Nat := (l.map (fun p => s.poolSize p / 4096)).sum

/-! ### Quotas (R355, R356) -/

/-- A requester's limit in 4 KiB. -/
def State.quotaLimit (s : State) (r : Nat) : Nat :=
  if h : r < 2052 then s.fld (.quota ⟨r, h⟩) (QUOTA.limit r) else 0

def State.quota (s : State) (r : Nat) : Quota := Tab.get ⟨0, 0⟩ s.quotas r

/-- Adds a charge to HELD, and raises PEAK. -/
def State.charge (s : State) (r n : Nat) : State :=
  let q := s.quota r
  { s with quotas := Tab.put s.quotas r ⟨q.held + n, max q.peak (q.held + n)⟩ }

/-- Takes a released buffer from HELD. -/
def State.uncharge (s : State) (r n : Nat) : State :=
  let q := s.quota r
  { s with quotas := Tab.put s.quotas r ⟨q.held - n, q.peak⟩ }

/-- A command that the module cannot serve at all (R361): a part with no pool, a charge beyond the limit, or more buffers of one
pool than it has. -/
def State.allocFails (s : State) (r : Nat) (parts : Option (List (Fin 16))) : Bool :=
  match parts with
  | none => true
  | some l => decide (s.quotaLimit r < s.chargeOf l) ||
      l.any (fun p => decide (s.fld (.pool p) POOL.count < (l.filter (· == p)).length))

/-! ### Allocation (R356, R360–R363) -/

def State.modCmd (s : State) (id : Nat) (f : Cmd → Cmd) : State :=
  { s with cmds := s.cmds.map (fun c => if c.id = id then f c else c) }

def State.cmd? (s : State) (id : Nat) : Option Cmd := s.cmds.find? (fun c => c.id == id)

/-- The channel that a pool without a copy lies in serves it; such a pool makes no allocation while its channel does not (Table 15-5). -/
def State.poolUp (s : State) (p : Fin 16) : Bool :=
  s.fld (.pool p) POOL.dual == 1 ||
    (let st := (if s.poolBase p < 2 ^ 36 then s.drams[0] else s.drams[1]).st
     st == .active || st == .switching)

/-- A part of a requester may take a buffer of a pool (R362, R363). -/
def State.mayTake (s : State) (p : Fin 16) (r : Nat) : Bool :=
  s.fld .bufpool BUFPOOL.enable == 1 && s.fld (.pool p) POOL.enable == 1 && s.poolUp p && decide (0 < s.poolFree p)
    && (decide (2049 ≤ r) || decide (s.fld (.pool p) POOL.floor < s.poolFree p))

/-- The lowest free buffer of a pool. -/
def State.firstFree (s : State) (p : Fin 16) : Nat :=
  let used := (s.poolUsed p).map (·.ref.index)
  ((List.range (used.length + 1)).find? (fun i => !used.contains i)).getD 0

/-- The stage that allocates is named as owner (R365). -/
def PartKind.owner : PartKind → Owner
  | .readData => .disc
  | .writeData => .hostDma
  | .chainPort => .chain
  | .internalUse => .disc

/-- The kind of part that a command takes: its opcode's, or the chain port's (R355, R357). -/
def Cmd.kind (c : Cmd) : PartKind :=
  if c.req = 2049 then .chainPort else if c.req = 2051 then .internalUse else if c.e.opcode = 1 then .readData else .writeData

/-- A command takes a buffer. -/
def State.takeBuf (s : State) (p : Fin 16) (c : Cmd) : State :=
  let ref : BufRef := ⟨p, s.firstFree p⟩
  State.modCmd { s with bufs := s.bufs ++ [Buf.mk ref c.req [c.kind.owner] 1 (some c.id)] } c.id
    (fun x => { x with bufs := x.bufs ++ [ref] })

/-- A part meets its pool empty and joins its wait list (R362). -/
def State.waitPool (s : State) (p : Fin 16) (c : Cmd) : State :=
  State.incSat { s with poolWaits := s.poolWaits ++ [PoolWait.mk p c.id c.req] } (.pool p) POOL.empty_events

/-- A mirror message whose command has its buffers is laid into them: it is then a write whose data are all in DRAM (R437). -/
def State.messageIn (s : State) (id : Nat) : State :=
  match s.cmd? id, s.chain.peers.find? (fun m => m.cmd == some id) with
  | some c, some m =>
    let s1 := (c.bufs.mapIdx (fun i r => (i, r))).foldl (fun (t : State) (p : Nat × BufRef) =>
      t.store (t.bufAddr p.2) ((m.got.drop (p.1 * 4194304)).take 4194304)) s
    s1.modCmd id (fun x => { x with stage := .dataIn })
  | _, _ => s

/-- A command takes its parts in order, from part n on; it starts when all are allocated (R360, R362). -/
def State.takeParts (s : State) (id : Nat) : List (Fin 16) → State
  | [] => (s.modCmd id (fun x => if x.stage = .held then { x with stage := .running } else x)).messageIn id
  | p :: r =>
    match s.cmd? id with
    | none => s
    | some c => if s.mayTake p c.req then (s.takeBuf p c).takeParts id r else s.waitPool p c

/-- A command waits on its quota. -/
def Cmd.onQuota (c : Cmd) : Bool := c.stage == .held && !c.charged && c.fence.isEmpty && !c.parts.isEmpty

/-- An earlier command of the requester waits on the quota (R362). -/
def State.quotaAhead (s : State) (c : Cmd) : Bool :=
  s.cmds.any (fun x => decide (x.id < c.id) && x.req == c.req && x.onQuota)

/-- A command's allocation begins where its quota lets it (R356). -/
def State.beginAlloc (s : State) (id : Nat) : State :=
  match s.cmd? id with
  | none => s
  | some c =>
    if c.stage ≠ .held ∨ c.charged = true ∨ c.fence ≠ [] then s
    else if c.parts = [] then s.takeParts id []
    else if (s.quota c.req).held + c.charge ≤ s.quotaLimit c.req ∧ s.quotaAhead c = false then
      ((s.charge c.req c.charge).modCmd id (fun x => { x with charged := true })).takeParts id c.parts
    else s

/-! ### Wait lists (R362, R364) -/

/-- The commands of a requester that wait on its quota are checked again, in arrival order (R356, R362). -/
def State.retryQuota (s : State) (r : Nat) : State :=
  ((s.cmds.filter (fun c => c.req == r && c.onQuota)).map (·.id)).foldl State.beginAlloc s

/-- The first part of a pool's wait list that may take a buffer takes it, and its command goes on (R362). -/
def State.retryPool (s : State) (p : Fin 16) : State :=
  match s.poolWaits.find? (fun w => w.pool == p && s.mayTake p w.requester) with
  | none => s
  | some w =>
    let s1 := { s with poolWaits := s.poolWaits.erase w }
    match s1.cmd? w.cmd with
    | none => s1
    | some c => (s1.takeBuf p c).takeParts w.cmd (c.parts.drop (c.bufs.length + 1))

/-- Every buffer that may be taken is taken, for each of n free buffers. -/
def State.retryAll (s : State) (p : Fin 16) : Nat → State
  | 0 => s
  | n + 1 => (s.retryPool p).retryAll p n

/-! ### Release (R365–R367) -/

/-- A buffer is freed: it leaves HELD, its pool's wait list is retried, and its requester's quota (R356, R362, R364). -/
def State.freeBuf (s : State) (b : Buf) : State :=
  let s1 := ({ s with bufs := s.bufs.erase b }).uncharge b.requester (s.poolSize b.ref.pool / 4096)
  let s2 := if s1.fld (.pool b.ref.pool) POOL.enable = 1 then s1.retryPool b.ref.pool else s1
  s2.retryQuota b.requester

/-- An owner's release in the pool's mode (R365): a name goes, or the count falls; the last one frees. `none` where it is a
violation (R366). -/
def State.releaseBuf (s : State) (ref : BufRef) (o : Owner) : Option State :=
  match s.bufs.find? (fun b => b.ref == ref) with
  | none => none
  | some b =>
    if s.fld (.pool ref.pool) POOL.release = 1 then
      if b.count ≤ 1 then some (s.freeBuf b)
      else some { s with bufs := s.bufs.map (fun x => if x.ref = ref then { x with count := x.count - 1 } else x) }
    else if b.owners.contains o then
      if (b.owners.filter (· != o)).isEmpty then some (s.freeBuf b)
      else some { s with bufs := s.bufs.map (fun x => if x.ref = ref then { x with owners := x.owners.filter (· != o) } else x) }
    else none

/-- A release that the module itself makes at the end of a command: in the owner mode every name still held goes (R367). -/
def State.dropBuf (id : Nat) (s : State) (ref : BufRef) : State :=
  match s.bufs.find? (fun b => b.ref == ref && b.cmd == some id) with
  | none => s
  | some b =>
    if s.fld (.pool ref.pool) POOL.release = 1 ∧ 1 < b.count then
      { s with bufs := s.bufs.map (fun x => if x.ref = ref then { x with count := x.count - 1 } else x) }
    else s.freeBuf b

/-- A command leaves its wait lists and releases what it holds (R364, R367). -/
def State.dropBufs (s : State) (id : Nat) : State :=
  match s.cmd? id with
  | none => s
  | some c =>
    let rest := if c.charged then s.chargeOf (c.parts.drop c.bufs.length) else 0
    let s1 := ({ s with poolWaits := s.poolWaits.filter (fun w => w.cmd != id) }).modCmd id
      (fun x => { x with bufs := [], parts := [] })
    let s2 := c.bufs.foldl (State.dropBuf id) s1
    if rest = 0 then s2 else (s2.uncharge c.req rest).retryQuota c.req

/-- A release or share that the pool does not allow is a violation (R366, R495). -/
def State.releaseViolation (s : State) (addr : Nat) : State :=
  (s.flag .bufpool BUFPOOL.release_violation).violation (srcBlock 6) 5 addr

end Sys2Proof.Machine
end

