-- ==== Sys2Proof/Machine/Format.lean ====
section
/-! DEFINITION. The EAF-24 disc format (chapter 02): side-layers, bands, tracks, zones, wedge headers, frames, the modulation
code, the check codes, LDPC codewords, clusters, extents, and couching and anchor records. -/

namespace Sys2Proof.Machine

/-! ### Side-layers, bands and tracks (R32–R36) -/

/-- Bit 4 of a side-layer code: side B (R32). -/
def slSide (sl : BitVec 5) : Bool := sl.getLsbD 4

/-- The layer of a side-layer code (R32). -/
def slLayer (sl : BitVec 5) : Nat := sl.toNat % 16

/-- Layer values 12–15 are not used (R32, R42). -/
def slValid (sl : BitVec 5) : Bool := slLayer sl < 12

/-- The side that a head reads: h = 1 is side B (R32). -/
def headSide (g : HeadId) : Bool := g.val % 2 = 1

/-- The index of a side-layer in the anchor record's table: side × 12 + layer (Table 02-11). -/
def slIndex (sl : BitVec 5) : Nat := (if slSide sl then 12 else 0) + slLayer sl

/-- The bands of Table 02-1. -/
inductive Band | inner | guard | data | outer
deriving DecidableEq, Repr

/-- The band of a track number, none where it lies in no band (Table 02-1). -/
def bandOf (t : Nat) : Option Band :=
  if t < 170000 then some .data
  else if t < 200000 then none
  else if t < 209000 then some .inner
  else if t < 210000 then some .guard
  else if t < 213000 then some .outer
  else none

/-- The radius of a track in units of 0.2 µm (Table 02-1). -/
def radius (t : Nat) : Int :=
  if t < 170000 then 120000 + t
  else if t < 209000 then 110000 + ((t : Int) - 200000)
  else if t < 210000 then 119000 + ((t : Int) - 209000)
  else 290000 + ((t : Int) - 210000)

/-- A place to which no head may be sent: its track lies in a guard band or in no band, or its M0 track is not a multiple
of 4 (R34, R147). -/
def positionMiss (t : Nat) (k : BeamId) : Bool :=
  match bandOf t with
  | none => true
  | some .guard => true
  | some _ => t < k.val || (t - k.val) % 4 != 0

/-- The spiral of a track (R35). -/
def spiralOf (t : Nat) : Nat := t % 4

/-- Odd tracks are lands (R35). -/
def isLand (t : Nat) : Bool := t % 2 = 1

/-! ### Zones (R37, R38, Table 02-2) -/

/-- s_z, the channel bits of a wedge segment of each zone (Table 02-2). -/
def zoneBitsTable : List Nat :=
   [
    5235, 5467, 5699, 5931, 6163, 6394, 6626, 6858, 7090, 7322, 7553, 7785, 8017, 8249, 8480, 8712,
    8944, 9176, 9408, 9639, 9871, 10103, 10335, 10566, 10798, 11030, 11262, 11494, 11725, 11957, 12189, 12421]

/-- s_z of zone z. -/
def zoneBits (z : Nat) : Nat := zoneBitsTable.getD z 0

/-- T_z, the number of turns of zone z (R37). -/
def zoneTurns (z : Nat) : Nat := if z = 31 then 1332 else 1328

/-- N_z, the frames per spiral of zone z (R66). -/
def zoneFrames (z : Nat) : Nat := zoneTurns z * 720 * (zoneBits z - 432) / 1584

/-- F_z, the number of a zone's first frame (R66). -/
def zoneFirst : Nat → Nat
  | 0 => 0
  | z + 1 => zoneFirst z + zoneFrames z

/-- The zone that holds a frame of the data band, by search from zone z over n zones (R66). -/
def zoneSearch (f : Nat) : Nat → Nat → Option Nat
  | 0, _ => none
  | n + 1, z => if zoneFirst z ≤ f ∧ f < zoneFirst z + zoneFrames z then some z else zoneSearch f n (z + 1)

/-- The zone of a data-band frame, none past the last (R66). -/
def zoneOfFrame (f : Nat) : Option Nat := zoneSearch f 32 0

/-- The zone of a data-band track (R37). -/
def zoneOfTrack (t : Nat) : Nat := min 31 (t / 4 / 1328)

/-- s of a selvage: 4,799 inner and 12,653 outer (R37). -/
def bandBits (t : Nat) : Nat :=
  match bandOf t with
  | some .data => zoneBits (zoneOfTrack t)
  | some .outer => 12653
  | _ => 4799

/-- Where a frame starts: turn, wedge and channel bit (R66). -/
structure Place where
  turn : Nat
  wedge : Nat
  bit : Nat
deriving DecidableEq, Repr

/-- Where data-band frame f starts (R66). -/
def locateFrame (f : Nat) : Option Place :=
  match zoneOfFrame f with
  | none => none
  | some z =>
    let d := zoneBits z - 432
    let beta := (f - zoneFirst z) * 1584
    some ⟨1328 * z + beta / (720 * d), beta % (720 * d) / d, 432 + beta % d⟩

/-- Where frame f of a selvage area whose first track is t0 starts: numbered from wedge 0 of the area's first turn (R60). -/
def locateAreaFrame (t0 f : Nat) : Place :=
  let d := bandBits t0 - 432
  let beta := f * 1584
  ⟨beta / (720 * d), beta % (720 * d) / d, 432 + beta % d⟩

/-- The areas of Table 02-10. -/
inductive Area | discId | innerOpc | anchor | outerOpc | checkpoint | reserved
deriving DecidableEq, Repr

/-- The first track of an area. -/
def Area.first : Area → Nat
  | .discId => 200000
  | .innerOpc => 200400
  | .anchor => 204000
  | .outerOpc => 210000
  | .checkpoint => 210400
  | .reserved => 0

/-- The number of tracks of an area. -/
def Area.tracks : Area → Nat
  | .discId => 100
  | .innerOpc => 3200
  | .anchor => 4000
  | .outerOpc => 400
  | .checkpoint => 2600
  | .reserved => 0

/-- What a selvage track of a side-layer holds (Table 02-10). -/
def areaOf (sl : BitVec 5) (t : Nat) : Area :=
  if 200000 ≤ t ∧ t < 200100 ∧ slLayer sl = 0 then .discId
  else if 200400 ≤ t ∧ t < 203600 then .innerOpc
  else if 204000 ≤ t ∧ t < 208000 ∧ (slLayer sl = 0 ∨ (slSide sl = false ∧ slLayer sl = 6)) then .anchor
  else if 210000 ≤ t ∧ t < 210400 then .outerOpc
  else if 210400 ≤ t ∧ t < 213000 then .checkpoint
  else .reserved

/-- Frames per spiral of an area. -/
def areaFrames (a : Area) : Nat := a.tracks / 4 * 720 * (bandBits a.first - 432) / 1584

/-- The channel rate in bit/s (R38). -/
def channelRate (s rpm : Nat) : Nat := 12 * s * rpm

/-- A zone is recorded or read only where its rate does not exceed 850 Mbit/s (R38). -/
def rateAllowed (s rpm : Nat) : Bool := channelRate s rpm ≤ 850000000

/-- The RATE period, in 2^-20 lane UI of 1/3.2 GHz, of a channel rate (Table 03-5). -/
def ratePeriod (s rpm : Nat) : Nat := (2 * 3200000000 * 2 ^ 20 + channelRate s rpm) / (2 * channelRate s rpm)

/-! ### Wedge headers (R40–R42) -/

/-- The Gray code of a track number (Table 02-3). -/
def gray (t : BitVec 18) : BitVec 18 := t ^^^ (t >>> 1)

/-- The track number of a Gray code: each bit is the parity of the code's bits from it upward. -/
def ungray (x : BitVec 18) : BitVec 18 :=
  let a := x ^^^ (x >>> 1)
  let b := a ^^^ (a >>> 2)
  let c := b ^^^ (b >>> 4)
  let d := c ^^^ (c >>> 8)
  d ^^^ (d >>> 16)

/-- A field's biphase code, most significant bit first: 1 is 10 and 0 is 01 (R40). -/
def biphase : List Bool → List Bool
  | [] => []
  | b :: r => b :: (!b) :: biphase r

/-- Decodes biphase pairs; none where a pair is 00 or 11 (R42). -/
def unbiphase : List Bool → Option (List Bool)
  | [] => some []
  | [_] => none
  | a :: b :: r => if a = b then none else (unbiphase r).map (a :: ·)

/-- The bits of a number, most significant first. -/
def msbBits : Nat → Nat → List Bool
  | 0, _ => []
  | w + 1, n => n.testBit w :: msbBits w n

/-- Even parity of a list of bits. -/
def parity (l : List Bool) : Bool := l.foldl xor false

/-- The stamped bits 0–117 of a wedge header: preamble, mark, index, side-layer, Gray track and parity (Table 02-3). -/
def headerBits (wedge : BitVec 10) (sl : BitVec 5) (track : BitVec 18) : List Bool :=
  let ids := msbBits 10 wedge.toNat ++ msbBits 5 sl.toNat
  let gs := msbBits 18 (gray track).toNat
  (List.replicate 8 [true, true, false, false]).flatten ++ msbBits 16 0xF836
    ++ biphase ids ++ biphase gs ++ biphase [parity ids, parity gs]

/-! ### The modulation code (R43–R47) -/

/-- The sync marks of Table 02-4. -/
def syncMark : Fin 4 → BitVec 48
  | 0 => 0x480200949222
  | 1 => 0x480200949444
  | 2 => 0x480200949112
  | 3 => 0x480200949488

inductive Sym | a | b | c | e | f
deriving DecidableEq, Repr

/-- The three channel bits of a symbol. -/
def Sym.bits : Sym → List Bool
  | .a => [false, false, false]
  | .b => [false, false, true]
  | .c => [false, true, false]
  | .e => [true, false, false]
  | .f => [true, false, true]

inductive ModState | sa | sb | sc | sd
deriving DecidableEq, Repr

/-- One row of Table 02-5: the symbol and the next state. Inputs 10 and 11 never arise in SB. -/
def modStep (st : ModState) (d n : Fin 4) : Sym × ModState :=
  match st, d.val with
  | .sc, _ => (.a, .sa)
  | .sd, _ => (.a, .sa)
  | st, 0 => let _ := st; (.c, .sa)
  | _, 1 => if n.val = 2 then (.b, .sd) else if n.val = 3 then (.c, .sc) else (.b, .sb)
  | _, 2 => if n.val = 2 then (.f, .sd) else if n.val = 3 then (.e, .sc) else (.f, .sb)
  | _, _ => (.e, .sa)

/-- Encodes pairs from a state; the look-ahead after the last pair is 00 (R45). -/
def modEncode : ModState → List (Fin 4) → List Sym
  | _, [] => []
  | st, d :: r => let x := modStep st d (r.headD 0); x.1 :: modEncode x.2 r

/-- The pair that Table 02-6 decodes at w(i), from w(i-1), w(i) and w(i+1). -/
def modDecode1 (p w n : Sym) : Fin 4 :=
  if w = .a then (match p with | .b => 2 | .c => 3 | .f => 2 | .e => 3 | .a => 0)
  else if n = .a then (match w with | .b => 1 | .c => 1 | .e => 2 | .f => 2 | .a => 0)
  else (match w with | .c => 0 | .b => 1 | .f => 2 | .e => 3 | .a => 0)

/-- Decodes a frame's symbols, given the symbol before them (R46). -/
def modDecode : Sym → List Sym → List (Fin 4)
  | _, [] => []
  | p, w :: r => modDecode1 p w (r.headD .c) :: modDecode w r

/-! ### Check codes (R48) -/

/-- One bit step of the reflected CRC-32. -/
def crc32Bit (c : BitVec 32) : BitVec 32 := if c.getLsbD 0 then (c >>> 1) ^^^ 0xEDB88320 else c >>> 1

/-- One byte of the reflected CRC-32. -/
def crc32Byte (c : BitVec 32) (b : Byte) : BitVec 32 :=
  crc32Bit (crc32Bit (crc32Bit (crc32Bit (crc32Bit (crc32Bit (crc32Bit (crc32Bit (c ^^^ b.setWidth 32))))))))

/-- The CRC-32 of R48. -/
def crc32 (l : List Byte) : BitVec 32 := l.foldl crc32Byte 0xFFFFFFFF ^^^ 0xFFFFFFFF

/-- One bit step of the CRC-16 of Table 03-6. -/
def crc16Bit (c : BitVec 16) : BitVec 16 := if c.getLsbD 15 then (c <<< 1) ^^^ 0x1021 else c <<< 1

/-- One byte of the CRC-16. -/
def crc16Byte (c : BitVec 16) (b : Byte) : BitVec 16 :=
  crc16Bit (crc16Bit (crc16Bit (crc16Bit (crc16Bit (crc16Bit (crc16Bit (crc16Bit (c ^^^ (b.setWidth 16 <<< 8)))))))))

/-- The CRC-16 of a word list: polynomial 0x1021, initial value 0xFFFF, no final XOR; each word's high byte first. -/
def crc16 (l : List (BitVec 16)) : BitVec 16 :=
  l.foldl (fun c w => crc16Byte (crc16Byte c (w.extractLsb' 8 8)) (w.extractLsb' 0 8)) 0xFFFF

/-- Multiplication by α = 0x02 in GF(2^8) with x^8 + x^4 + x^3 + x^2 + 1 (R48). -/
def gfDouble (x : Byte) : Byte := if x.getLsbD 7 then (x <<< 1) ^^^ 0x1D else x <<< 1

/-- Multiplication in GF(2^8), over the low n bits of y. -/
def gfMulN (x : Byte) : Nat → Byte → Byte
  | 0, _ => 0
  | n + 1, y => (if y.getLsbD 0 then x else 0) ^^^ gfMulN (gfDouble x) n (y >>> 1)

def gfMul (x y : Byte) : Byte := gfMulN x 8 y

/-- α^i. -/
def gfPow : Nat → Byte
  | 0 => 1
  | n + 1 => gfDouble (gfPow n)

/-- The product of a polynomial, highest degree first, and (x + r). -/
def polyTimes (p : List Byte) (r : Byte) : List Byte :=
  List.zipWith (· ^^^ ·) (p ++ [0]) (0 :: p.map (gfMul r))

/-- The Reed–Solomon generator: the product of (x + α^i) for i = 0 to n - 1 (R48). -/
def rsGen : Nat → List Byte
  | 0 => [1]
  | n + 1 => polyTimes (rsGen n) (gfPow n)

/-- One message byte of the Reed–Solomon division: the remainder register, highest degree first. -/
def rsStep (gen : List Byte) (rem : List Byte) (m : Byte) : List Byte :=
  let q := m ^^^ rem.headD 0
  List.zipWith (· ^^^ ·) (rem.drop 1 ++ [0]) ((gen.drop 1).map (gfMul q))

/-- The n parity bytes of a message (R48). -/
def rsParity (n : Nat) (msg : List Byte) : List Byte := msg.foldl (rsStep (rsGen n)) (List.replicate n 0)

/-! ### LDPC codewords (R49–R51) -/

/-- The shift of base-matrix entry (r, c); none where it is zero (R50, Table 02-7). -/
def ldpcShift (r c : Nat) : Option Nat :=
  if c < 32 then
    if r = c % 6 ∨ r = (c + 1) % 6 ∨ r = (c + 3) % 6 then some (37 * (r + 1) * (c + 1) % 512) else none
  else if c = 32 then (if r = 0 then some 1 else if r = 3 then some 0 else if r = 5 then some 1 else none)
  else if r = c - 33 ∨ r = c - 32 then some 0 else none

/-- rotate(x, s)[i] = x[(i + s) mod 512] (R50). -/
def rot512 (x : BitVec 512) (s : Nat) : BitVec 512 := x.rotateRight s

/-- λ[r]: the sum of P^s(r, c) u[c] over the information columns (R50). -/
def ldpcLambda (u : List (BitVec 512)) (r : Nat) : BitVec 512 :=
  (List.range 32).foldl (fun a c =>
    match ldpcShift r c with
    | some s => a ^^^ rot512 (u.getD c 0) s
    | none => a) 0

/-- The six parity blocks of 32 information blocks (R50). -/
def ldpcParity (u : List (BitVec 512)) : List (BitVec 512) :=
  let l := ldpcLambda u
  let p0 := l 0 ^^^ l 1 ^^^ l 2 ^^^ l 3 ^^^ l 4 ^^^ l 5
  let p1 := l 0 ^^^ rot512 p0 1
  let p2 := l 1 ^^^ p1
  let p3 := l 2 ^^^ p2
  let p4 := l 3 ^^^ p0 ^^^ p3
  let p5 := l 4 ^^^ p4
  [p0, p1, p2, p3, p4, p5]

/-- The syndrome of row r of 38 blocks; all zero exactly where the row's checks hold. -/
def ldpcSyndrome (cw : List (BitVec 512)) (r : Nat) : BitVec 512 :=
  (List.range 38).foldl (fun a c =>
    match ldpcShift r c with
    | some s => a ^^^ rot512 (cw.getD c 0) s
    | none => a) 0

/-! ### Clusters and extents (R52–R57) -/

/-- Codeword frame q of a cluster at frame f lies on spiral q mod 4 at frame f + 1 + q div 4 (R52). -/
def codewordFrame (f q : Nat) : Nat × Nat := (q % 4, f + 1 + q / 4)

/-- Frames that a cluster takes on each spiral (R52). -/
def clusterFrames : Nat := 153

/-- Groups of an extent of n data clusters (R55). -/
def extentGroups (n : Nat) : Nat := min 4 n

/-- Clusters of an extent: data and two parity clusters per group (R55). -/
def extentClusters (n : Nat) : Nat := n + 2 * extentGroups n

/-- Frames per spiral of an extent with r relocated clusters: lead frame, clusters and couching record (R55, R58). -/
def extentFrames (n r : Nat) : Nat := 1 + (extentClusters n + r) * 153 + 4

/-- The start frame of cluster i of an extent whose lead frame is f (R55). -/
def clusterStart (f i : Nat) : Nat := f + 1 + i * 153

/-- The outer parity of one byte column: the remainder by x^2 + 0x03 x + 0x02 (R56). -/
def outerParity (col : List Byte) : List Byte := rsParity 2 col

/-- The 64-byte cluster header, the beam's copy (Table 02-8). -/
def clusterHeader (type beam sl zone start seq index group valid nsid lba disc keyTag time : Nat) : List Byte :=
  let b := leBytes 1 type ++ leBytes 1 beam ++ leBytes 1 sl ++ leBytes 1 zone ++ leBytes 4 start ++ leBytes 8 seq
    ++ leBytes 1 index ++ leBytes 1 group ++ leBytes 2 valid ++ leBytes 4 nsid ++ leBytes 8 lba ++ leBytes 16 disc
    ++ leBytes 4 keyTag ++ leBytes 8 time
  b ++ leBytes 4 (crc32 b).toNat

/-! ### Couching and anchor records (R58, R63) -/

/-- What a couching record says (Table 02-9). -/
structure Record where
  sl : BitVec 5
  zone : Nat
  seq : Nat
  disc : BitVec 128
  nsid : BitVec 32
  keyTag : BitVec 32
  start : Nat
  n : Nat
  runs : List (Nat × Nat)
  relocs : List (Nat × Nat)
  length : Nat
  time : Nat
  prevSl : Nat
  prevFrame : Nat
deriving DecidableEq, Repr

/-- A list cut or zero-filled to n bytes. -/
def fill (n : Nat) (l : List Byte) : List Byte := (l ++ List.replicate (n - l.length) 0).take n

/-- The 384-byte copy that a beam writes (Table 02-9). -/
def Record.bytes (r : Record) (beam : Nat) : List Byte :=
  let b := ([0x45, 0x42, 0x43, 0x52, 0x01] : List Byte) ++ leBytes 1 beam ++ leBytes 1 r.sl.toNat ++ leBytes 1 r.zone
    ++ leBytes 8 r.seq ++ leBytes 16 r.disc.toNat ++ leBytes 4 r.nsid.toNat ++ leBytes 4 r.keyTag.toNat
    ++ leBytes 4 r.start ++ leBytes 1 r.n ++ leBytes 1 (2 * extentGroups r.n) ++ leBytes 1 r.relocs.length
    ++ leBytes 1 r.runs.length ++ leBytes 4 r.length ++ leBytes 8 r.time ++ leBytes 1 r.prevSl ++ leBytes 3 0
    ++ leBytes 4 r.prevFrame
    ++ fill 96 (r.runs.flatMap (fun x => leBytes 8 x.1 ++ leBytes 2 x.2 ++ leBytes 2 0))
    ++ fill 128 (r.relocs.flatMap (fun x => leBytes 1 x.1 ++ leBytes 3 0 ++ leBytes 4 x.2))
    ++ leBytes 88 0
  b ++ leBytes 4 (crc32 b).toNat

/-- What an anchor record says (Table 02-11). -/
structure Anchor where
  flags : BitVec 16
  generation : Nat
  disc : BitVec 128
  time : Nat
  highestSeq : Nat
  layers : List (Nat × Nat)         -- 24 entries: high-water frame, last couching record frame
  ckptSl : BitVec 5
  ckptFrame : Nat
deriving DecidableEq, Repr

/-- The 384-byte anchor copy that a beam writes (Table 02-11). -/
def Anchor.bytes (a : Anchor) (beam : Nat) : List Byte :=
  let b := ([0x45, 0x42, 0x41, 0x4E, 0x01] : List Byte) ++ leBytes 1 beam ++ leBytes 2 a.flags.toNat
    ++ leBytes 8 a.generation ++ leBytes 16 a.disc.toNat ++ leBytes 8 a.time ++ leBytes 8 a.highestSeq
    ++ fill 192 (a.layers.flatMap (fun x => leBytes 4 x.1 ++ leBytes 4 x.2))
    ++ leBytes 4 a.ckptSl.toNat ++ leBytes 4 a.ckptFrame ++ leBytes 132 0
  b ++ leBytes 4 (crc32 b).toNat

end Sys2Proof.Machine
end

