-- ==== Sys2Proof/Machine/ChainOps.lean ====
section
/-! DEFINITION. Sending on the chain port: ports, routes, packets and their replay buffer (R428–R432, R435). -/

namespace Sys2Proof.Machine

/-- The index of a port: CU 0, CD 1. -/
def portIx : Port → Fin 2
  | .cu => 0
  | .cd => 1

def ixPort (i : Fin 2) : Port := if i = 0 then .cu else .cd

def otherIx (i : Fin 2) : Fin 2 := if i = 0 then 1 else 0

def State.port (s : State) (i : Fin 2) : PortSt := s.chain.ports[i.val]

def State.modPort (s : State) (i : Fin 2) (f : PortSt → PortSt) : State :=
  { s with chain := { s.chain with ports := vmod s.chain.ports i f } }

def State.modChain (s : State) (f : Chain → Chain) : State := { s with chain := f s.chain }

/-- CHAIN.ID.module_id. -/
def State.moduleId (s : State) : Nat := s.fld .chain CHAIN.module_id

/-- A packet less its link sequence (Table 17-2). -/
structure Packet where
  type : Nat
  flags : Nat
  dest : Nat
  source : Nat
  hops : Nat
  tag : Nat
  status : Nat
  address : Nat
  payload : List Byte
deriving DecidableEq, Repr

/-- The bytes of a packet with its link sequence and CRC-32 (R431, Table 17-2). -/
def Packet.bytes (p : Packet) (seq : Nat) : List Byte :=
  let b := leBytes 1 p.type ++ leBytes 1 p.flags ++ leBytes 2 p.dest ++ leBytes 2 p.source ++ leBytes 2 p.hops ++ leBytes 2 p.tag
    ++ leBytes 2 p.payload.length ++ leBytes 2 p.status ++ leBytes 2 seq ++ leBytes 8 p.address ++ p.payload
  b ++ leBytes 4 (crc32 b).toNat

/-- LINK_ACK and KEEPALIVE take no link sequence (Table 17-2). -/
def Packet.unsequenced (p : Packet) : Bool := p.type == 0x22 || p.type == 0x23

/-- A port in UP sends a packet; a sequenced one joins its replay buffer of 256 packets (R431, R432). -/
def State.sendOn (s : State) (i : Fin 2) (p : Packet) : State :=
  let x := s.port i
  if x.st ≠ .up then s
  else if p.unsequenced then s.emit (.chain (ixPort i) (p.bytes 0))
  else
    let b := p.bytes x.txSeq
    (s.modPort i (fun y => { y with txSeq := (y.txSeq + 1) % 65536, sent := (⟨y.txSeq, b, 0⟩ :: y.sent).take 256 })).emit
      (.chain (ixPort i) b)

/-- The topology of Table 17-1. -/
def State.topology (s : State) : Nat :=
  let down (i : Fin 2) : Bool := (s.port i).st == .down || (s.port i).st == .failed
  if down 0 && down 1 then 0
  else if !s.chain.ring then 1
  else if s.chain.downLinks ≠ [] then 3
  else 2

/-- The port that leads to a module ID, none where none does (Table 17-1); a duplicate of the module's own ID has no route
(Table 17-5). -/
def State.route (s : State) (id : Nat) : Option (Fin 2) :=
  let hops (i : Fin 2) : Option Nat := if (s.port i).st = .up then Tab.get? (s.port i).seen id else none
  if id = s.moduleId then none
  else match hops 0, hops 1 with
    | none, none => none
    | some _, none => some 0
    | none, some _ => some 1
    | some u, some d => if u < d then some 0 else some 1

/-- Sends a packet toward its destination; false where no route leads there or the module's ID is duplicated (R428, R429). -/
def State.sendTo (s : State) (p : Packet) : Bool × State :=
  if s.chain.dupId then (false, s)
  else match s.route p.dest with
    | none => (false, s)
    | some i => (true, s.sendOn i p)

/-- Sends a packet on both ports. -/
def State.sendBoth (s : State) (p : Packet) : State := (s.sendOn 0 p).sendOn 1 p

/-- A MIRROR_DONE to an origin: message number and slot as its payload, 8 and 4 bytes (R437; DESIGN CHOICE, log entry 30). -/
def State.sendMirrorDone (s : State) (origin num slot status : Nat) : State :=
  (s.sendTo ⟨0x06, 1, origin, s.moduleId, 0, 0, status, 0, leBytes 8 num ++ leBytes 4 slot⟩).2

end Sys2Proof.Machine
end

