-- ==== Sys2Proof/Machine/CmdOps.lean ====
section
/-! DEFINITION. How a fetched command ends, and what its end releases (R341, R343, R367, R437, R438, Table 13-8). -/

namespace Sys2Proof.Machine

/-- A status value of Table 13-7. -/
def stat (cls code : Nat) : Nat := cls * 256 + code

/-- The first block and block count of a command entry (Table 13-4). -/
def Cmd.first (c : Cmd) : Nat := c.e.slba.toNat
def Cmd.count (c : Cmd) : Nat := c.e.nlbM1.toNat + 1

def Cmd.isRead (c : Cmd) : Bool := !c.admin && c.e.opcode == 1
def Cmd.isFence (c : Cmd) : Bool := !c.admin && c.e.opcode == 4
def Cmd.isWrite (c : Cmd) : Bool := !c.admin && c.e.opcode == 2

/-- A write covers a block of a namespace (R341). -/
def Cmd.covers (c : Cmd) (ns : BitVec 32) (b : Nat) : Bool :=
  c.isWrite && c.e.nsid == ns && decide (c.first ≤ b) && decide (b < c.first + c.count)

/-- Two commands overlap (R341). -/
def Cmd.overlaps (c d : Cmd) : Bool :=
  c.e.nsid == d.e.nsid && decide (c.first < d.first + d.count) && decide (d.first < c.first + c.count)

/-- Where block i of a command's data lies in DRAM: its parts are of 4 MiB but for the last (R360). -/
def State.blockAddr (s : State) (c : Cmd) (i : Nat) : Option Nat :=
  (c.bufs[i / 1024]?).map (fun r => s.bufAddr r + i % 1024 * 4096)

/-- The ciphertext of block i of a write, as it rests in its buffer. -/
def State.blockData (s : State) (c : Cmd) (i : Nat) : List Byte :=
  match s.blockAddr c i with
  | some a => s.load a 4096
  | none => List.replicate 4096 0

/-! ### Metering (R489) -/

/-- Adds to counter i of a function. -/
def State.meterAdd (s : State) (f : Nat) (i : Fin 5) (n : Nat) : State :=
  let v := Tab.get (Vector.replicate 5 0) s.meter.counters f
  { s with meter := { s.meter with counters := Tab.put s.meter.counters f (v.set i.val ((v[i.val] + n) % 2 ^ 64)) } }

def cBusy : Fin 5 := 0
def cRead : Fin 5 := 1
def cWritten : Fin 5 := 2
def cMounted : Fin 5 := 3
def cCipher : Fin 5 := 4

/-- Disc-mounted time accrues up to now: for each mounted disc, each ms, to every function that owns a namespace with a standing extent on
it (R489). -/
def State.accrueMounted (s : State) : State :=
  let ms := (s.time.localNs - s.meter.lastAt) / 1000000
  let s0 := { s with meter := { s.meter with lastAt := s.meter.lastAt + ms * 1000000 } }
  if ms = 0 then s
  else
    (List.finRange 8).foldl (fun (t : State) b =>
      match (s.bays[b.val]).disc with
      | none => t
      | some d =>
        if (s.mounts[b.val]).st = .mounted ∨ (s.mounts[b.val]).st = .readOnly then
          let owners := ((s.nss.filter (fun n => s.map.any (fun r => r.nsid == n.nsid && r.disc == d))).map (·.owner)).dedup
          owners.foldl (fun u f => u.meterAdd f cMounted ms) t
        else t) s0

/-! ### The map as commands use it (R270, R342) -/

/-- A map run names a block. -/
def MapRun.has (r : MapRun) (ns : BitVec 32) (b : Nat) : Bool :=
  r.nsid == ns && decide (r.first ≤ b) && decide (b < r.first + r.count)

/-- The run that stands for a block: the one of the highest extent sequence number (R270). -/
def mapFind (m : List MapRun) (ns : BitVec 32) (b : Nat) : Option MapRun :=
  (m.filter (fun r => r.has ns b)).foldl (fun (a : Option MapRun) r => match a with
    | none => some r
    | some x => if x.seq < r.seq then some r else a) none

/-- The header frame of cluster i of a run's extent: its relocation, else its home (R55, R58). -/
def MapRun.place (r : MapRun) (i : Nat) : Nat :=
  match r.relocs.find? (fun p => p.1 == i) with
  | some p => p.2
  | none => clusterStart r.start i

/-- The place that the map names for a block. -/
def State.mapPlace (s : State) (ns : BitVec 32) (b : Nat) : Src :=
  match mapFind s.map ns b with
  | none => .none
  | some r =>
    let n := r.offset + (b - r.first)
    .disc r.disc r.sl (r.place (n / 16)) (n / 16) (n % 16) r.seq r.keyTag

/-- The key tag under which the data of a source are enciphered, where it is on a disc. -/
def Src.tag : Src → BitVec 32
  | .disc _ _ _ _ _ _ t => t
  | _ => 0

/-- A write from which a READ can take a block: neither given up for the block nor ended before its data were all in DRAM (R342). -/
def Cmd.serves (w : Cmd) (b : Nat) : Bool :=
  !(w.stage == .ended && w.units.any (fun u => u == .todo || u == .posted))
    && w.units[b - w.first]? != some .gone

/-- The write fetched last before a READ that covers a block and can serve it (R342). -/
def State.writeFor (s : State) (read : Nat) (ns : BitVec 32) (b : Nat) : Option Nat :=
  (s.cmds.filter (fun w => w.covers ns b && w.id < read && w.serves b)).foldl (fun (a : Option Nat) w => some (match a with
    | none => w.id
    | some x => max x w.id)) none

/-- The source of a block at the fetch of a READ (R342). -/
def State.sourceOf (s : State) (read : Nat) (ns : BitVec 32) (b : Nat) : Src :=
  match s.writeFor read ns b with
  | some w => .buffer w
  | none => s.mapPlace ns b

/-! ### The end of a command -/

/-- A block takes ciphertext. -/
def RBlock.take (x : RBlock) (tag : BitVec 32) (d : List Byte) : RBlock :=
  { x with lo := some (d.take 2048), hi := some (d.drop 2048), tag := tag }

/-- The source that a block falls back to once a write that it resolved to is abandoned: the write before it, one that has ended since
the fetch, or the map as it stood at the fetch (R342). -/
def State.reresolve (s : State) (read : Nat) (ns : BitVec 32) (b : Nat) (x : RBlock) : RBlock :=
  match s.writeFor read ns b, x.alt with
  | some w, some (n, t, d) => if w < n then x.take t d else { x with src := .buffer w }
  | some w, none => { x with src := .buffer w }
  | none, some (_, t, d) => x.take t d
  | none, none => { x with src := x.mapSrc, tag := x.mapSrc.tag }

/-- A READ's block when a write leaves: one that resolved to it takes the ciphertext before the buffer is released, or, where the
write's data for it never reached DRAM, resolves again; one that resolved to a later write notes the data (R342, R343). -/
def State.leaveBlock (s : State) (w : Cmd) (read : Nat) (ns : BitVec 32) (b : Nat) (x : RBlock) : RBlock :=
  if x.lo.isSome || x.data.isSome || !w.covers ns b then x
  else
    let u := w.units[b - w.first]?
    let here : Bool := u == some .done || u == some .gone
    if x.src = .buffer w.id then
      if here then x.take w.keyTag (s.blockData w (b - w.first)) else s.reresolve read ns b x
    else match x.src with
      | .buffer v =>
        let newer : Bool := match x.alt with
          | some (n, _, _) => decide (n < w.id)
          | none => true
        if u = some .done ∧ w.id < v ∧ newer = true then { x with alt := some (w.id, w.keyTag, s.blockData w (b - w.first)) } else x
      | _ => x

/-- The blocks of every READ when a write leaves. -/
def State.leaveWrite (s : State) (w : Cmd) : State :=
  let t : State := { s with cmds := s.cmds.filter (fun c => c.id != w.id) }
  { s with cmds := s.cmds.map (fun c =>
      if c.isRead ∧ w.id < c.id then
        { c with blocks := c.blocks.mapIdx (fun i x => t.leaveBlock w c.id c.e.nsid (c.first + i) x) }
      else c) }

/-- Commands that waited for a command no longer do, and those that nothing holds begin their allocation (R321, R344). -/
def State.letGo (s : State) (id : Nat) : State :=
  let s1 := { s with cmds := s.cmds.map (fun c => { c with waitFor := c.waitFor.filter (· != id), fence := c.fence.filter (· != id) }) }
  ((s.cmds.filter (fun c => c.fence == [id])).map (·.id)).foldl State.beginAlloc s1

/-- A command leaves the module: its buffers are released and it is forgotten (R364, R367). -/
def State.dropCmd (s : State) (id : Nat) : State :=
  let s1 := match s.cmd? id with
    | some c => if c.isWrite then s.leaveWrite c else s
    | none => s
  let s2 := s1.dropBufs id
  State.letGo { s2 with cmds := s2.cmds.filter (fun c => c.id != id) } id

/-- MIRROR_DONE for a message that the module recorded (R437), with the bytes metered to the owner of the namespace (R489). -/
def State.peerDone (s : State) (c : Cmd) (status : Nat) : State :=
  match s.chain.peers.find? (fun m => m.cmd == some c.id) with
  | none => s
  | some m =>
    let a := if status = 0 then 0 else 3
    let s1 := s.modChain (fun x => { x with peers := x.peers.map (fun y =>
      if y.origin = m.origin ∧ y.num = m.num then { y with answer := some a, got := [] } else y) })
    let s2 := match s.nss.find? (fun n => n.nsid == c.e.nsid) with
      | some n => if status = 0 then s1.meterAdd n.owner cWritten (4096 * c.count) else s1
      | none => s1
    s2.sendMirrorDone m.origin m.num m.slot a

/-- A FENCE no longer waits for a command that has ended; the end of a FENCE lets the commands after it start (R344). -/
def State.fenceEnds (s : State) (id : Nat) (c : Cmd) : State :=
  let s1 := { s with cmds := s.cmds.map (fun x => if x.isFence then { x with waitFor := x.waitFor.filter (· != id) } else x) }
  if c.isFence then s1.letGo id else s1

/-- A command ends with a status, a result and its first failed block: its entry is then due (R335). A command of the chain port
answers its origin, and one that is never posted is released (R437, Table 13-8). -/
def State.finish (s : State) (id status result firstFail : Nat) (logged : Bool) : State :=
  match s.cmd? id with
  | none => s
  | some c =>
    if c.stage = .ended then s
    else
      let s0 := { s with poolWaits := s.poolWaits.filter (fun w => w.cmd != id), arb := { s.arb with ended := s.arb.ended + 1 } }
      let s1 := s0.modCmd id (fun x => { x with
        stage := .ended, status := status, result := result, firstFail := firstFail, logged := logged, endTime := s.now
        endNo := s.arb.ended })
      let s2 := if c.isRead then s1.meterAdd c.f.val cRead (4096 * result) else s1
      let s3 := if c.isWrite ∧ c.stage ≠ .dataIn then s2.leaveWrite { c with stage := .ended } else s2
      let s4 := s3.fenceEnds id c
      if c.req = 2049 then (s4.peerDone c status).dropCmd id
      else if c.noPost then s4.dropCmd id
      else s4.retryQuota c.req

/-- A command fails before it transfers anything. -/
def State.failCmd (s : State) (id cls code : Nat) : State := s.finish id (stat cls code) 0 0xFFFFFFFF false

/-- A write's outcome, once no extent of it is left to record: a local failure whatever the peer reports, else the first mirror
outcome that is not success, once every message has its answer (R438, Table 17-4). -/
def State.settleWrite (s : State) (id : Nat) : State :=
  match s.cmd? id with
  | none => s
  | some c =>
    if !c.placed || c.extentsLeft != 0 then s
    else if c.status ≠ 0 then s.finish id c.status 0 c.firstFail true
    else if c.mirrorLeft = 0 then s.finish id c.mirrorStatus c.count 0xFFFFFFFF (c.mirrorStatus != 0)
    else s

/-- One extent of a write is done: on the medium with status 0, else with the status that its writes complete with. -/
def State.extentOutcome (s : State) (id status block : Nat) : State :=
  (s.modCmd id (fun c => { c with
    extentsLeft := c.extentsLeft - 1
    status := if c.status = 0 then status else c.status
    firstFail := if c.status = 0 ∧ status ≠ 0 then block else c.firstFail })).settleWrite id

end Sys2Proof.Machine
end

