-- ==== Sys2Proof/Machine/QueueOps.lean ====
section
/-! DEFINITION. Queues as the queue engine keeps them: lookups, doorbell slots, completion entries and their posting (R323–R337), and the
arbitration between submission queues (R339). -/

namespace Sys2Proof.Machine

/-! ### Functions, queues and lines -/

def State.func (s : State) (f : FuncId) : Func := Tab.get Func.reset s.funcs f.val

def State.modFunc (s : State) (f : FuncId) (g : Func → Func) : State := { s with funcs := Tab.put s.funcs f.val (g (s.func f)) }

def State.sq? (s : State) (f : FuncId) (q : Nat) : Option Sq := s.sqs.find? (fun x => x.f == f && x.q == q)
def State.cq? (s : State) (f : FuncId) (q : Nat) : Option Cq := s.cqs.find? (fun x => x.f == f && x.q == q)

def State.modSq (s : State) (f : FuncId) (q : Nat) (g : Sq → Sq) : State :=
  { s with sqs := s.sqs.map (fun x => if x.f = f ∧ x.q = q then g x else x) }

def State.modCq (s : State) (f : FuncId) (q : Nat) (g : Cq → Cq) : State :=
  { s with cqs := s.cqs.map (fun x => if x.f = f ∧ x.q = q then g x else x) }

/-- The doorbell line of a queue: 64 slots to a line (R330). -/
def lineOf (q : Nat) : Nat := q / 64

def State.line? (s : State) (f : FuncId) (sq : Bool) (n : Nat) : Option Line :=
  s.lines.find? (fun x => x.f == f && x.sq == sq && x.line == n)

def State.modLine (s : State) (f : FuncId) (sq : Bool) (n : Nat) (g : Line → Line) : State :=
  { s with lines := s.lines.map (fun x => if x.f = f ∧ x.sq = sq ∧ x.line = n then g x else x) }

/-- QUEUE.FUNC[f].count (R323). -/
def State.queueCount (s : State) (f : FuncId) : Nat := s.fld (.func f) (FUNC.count f.val)

/-- MSI-X vectors of a function (R306). -/
def vectorCount (f : FuncId) : Nat := if f.val = 0 then 2048 else 16

/-- poll_min in 10 ns; below 25 acts as 25 (Table 13-11). -/
def State.pollMin (s : State) : Nat := max 25 (s.fld .queue QUEUE.poll_min)

/-- poll_max in 10 ns. -/
def State.pollMax (s : State) : Nat := 100 * s.fld .queue QUEUE.poll_max

/-- A line that a created queue needs: an existing one is polled again where it was parked. -/
def State.addLine (s : State) (f : FuncId) (sq : Bool) (n : Nat) : State :=
  match s.line? f sq n with
  | none => { s with lines := s.lines ++ [Line.mk f sq n s.pollMin 0 false false] }
  | some _ => s.modLine f sq n (fun l => { l with interval := s.pollMin, idle := 0, parking := false, parked := false })

/-- A line with no created queue is polled no more. -/
def State.dropLine (s : State) (f : FuncId) (sq : Bool) (n : Nat) : State :=
  let used := if sq then s.sqs.any (fun x => x.f == f && lineOf x.q == n) else s.cqs.any (fun x => x.f == f && lineOf x.q == n)
  if used then s else { s with lines := s.lines.filter (fun l => !(l.f == f && l.sq == sq && l.line == n)) }

/-! ### Doorbell slots (R327, R331) -/

/-- The module's half of an SQ slot. -/
def State.sqSlot (s : State) (x : Sq) (wake : Bool) : State :=
  s.emit (.hostWrite x.f (BitVec.ofNat 64 ((s.func x.f).sqDb + 8 * x.q + 4)) (leBytes 4 (b2n wake + 2 * b2n x.error + 65536 * x.head)))

/-- The module's half of a CQ slot. -/
def State.cqSlot (s : State) (x : Cq) (wake : Bool) : State :=
  s.emit (.hostWrite x.f (BitVec.ofNat 64 ((s.func x.f).cqDb + 8 * x.q + 4)) (leBytes 4 (b2n wake + 2 * b2n x.error)))

/-- The same wake bit into the slot of every created queue of a line. -/
def State.wakeLine (s : State) (f : FuncId) (sq : Bool) (n : Nat) (wake : Bool) : State :=
  if sq then (s.sqs.filter (fun x => x.f == f && lineOf x.q == n)).foldl (fun t x => t.sqSlot x wake) s
  else (s.cqs.filter (fun x => x.f == f && lineOf x.q == n)).foldl (fun t x => t.cqSlot x wake) s

/-- The module reads a line of 64 slots (R330). -/
def State.readLine (s : State) (f : FuncId) (sq : Bool) (n : Nat) : State :=
  let db := if sq then (s.func f).sqDb else (s.func f).cqDb
  s.emit (.hostRead f (BitVec.ofNat 64 (db + 512 * n)) 512)

/-! ### Completions (R335–R337) -/

/-- A command whose completion its function will receive. -/
def Cmd.posts (c : Cmd) : Bool := !c.noPost && decide (c.req < 2049)

/-- The CQ of a command: that of its SQ. -/
def State.cmdCq (s : State) (c : Cmd) : Option Nat := (s.sq? c.f c.sq).map (·.cq)

/-- A command waits under a FENCE (R344). -/
def State.underFence (s : State) (c : Cmd) : Bool := c.fence.any (fun id => s.cmds.any (fun x => x.id == id && x.isFence))

/-- Completions owed to a CQ: commands not yet posted, and doorbell errors that it holds. -/
def State.owed (s : State) (x : Cq) : Nat :=
  (s.cmds.filter (fun c => c.f == x.f && c.posts && s.cmdCq c == some x.q)).length + (x.held.filter (fun e => e.cmd.isNone)).length

/-- Free entries of a CQ (R326). -/
def Cq.room (x : Cq) : Nat := (x.head + x.size - 1 - x.tail) % x.size

/-- The 32 bytes of an entry (Table 13-6). -/
def Entry.bytes (e : Entry) (phase : Bool) : List Byte :=
  leBytes 8 e.result ++ leBytes 4 e.sq ++ leBytes 2 e.sqHead ++ leBytes 2 e.cid ++ leBytes 2 e.status
    ++ leBytes 1 (b2n phase + 2 * b2n e.logged) ++ leBytes 1 0 ++ leBytes 8 e.time.toNat ++ leBytes 4 e.firstFail

/-- The entry of an ended command. -/
def Cmd.entry (c : Cmd) : Entry :=
  ⟨c.result, c.sq, c.sqHead, c.e.cid.toNat, c.status, c.logged, c.endTime,
    if c.status = 0 ∨ !(c.isRead || c.isWrite) then 0xFFFFFFFF else c.firstFail, some c.id⟩

/-- The vector of a CQ fires (R337). -/
def State.signal (s : State) (x : Cq) : State := (s.modCq x.f x.q (fun y => { y with unsig := 0 })).fireVector x.f x.vector

/-- An entry is written at the tail, the phase inverting at the wrap, and the vector fires once agg_count entries are not yet signalled
(R335–R337). -/
def State.writeEntry (s : State) (x : Cq) (e : Entry) : State :=
  let s1 := s.emit (.hostWrite x.f (BitVec.ofNat 64 (x.base + 32 * x.tail)) (e.bytes x.phase))
  let wrap : Bool := x.tail + 1 == x.size
  let s2 := s1.modCq x.f x.q (fun y => { y with
    tail := if wrap then 0 else y.tail + 1, phase := if wrap then !y.phase else y.phase, unsig := y.unsig + 1 })
  if max 1 x.aggCount ≤ x.unsig + 1 then s2.signal x else s2

/-- Commands of a function that are fetched and not yet posted (FUNC[f].outstanding). -/
def State.outstanding (s : State) (f : FuncId) : Nat := (s.cmds.filter (fun c => c.f == f && c.posts)).length

/-- A function's queue contexts are discarded, and it is DETACHED (R347). -/
def State.discardQueues (s : State) (f : FuncId) : State :=
  { s with
    sqs := s.sqs.filter (fun x => x.f != f)
    cqs := s.cqs.filter (fun x => x.f != f)
    lines := s.lines.filter (fun x => x.f != f)
    funcs := Tab.erase s.funcs f.val }

/-- A detaching function of which nothing is left to post is DETACHED (R347). -/
def State.detachCheck (s : State) (f : FuncId) : State :=
  if (s.func f).st = .detaching ∧ s.outstanding f = 0 then s.discardQueues f else s

/-- What follows the writing of a command's entry: metering, the end of the command, and of a DETACH (R347, R367, R489). -/
def State.afterPost (s : State) (e : Entry) : State :=
  match e.cmd.bind s.cmd? with
  | none => s
  | some c =>
    let s1 := if c.isWrite ∧ c.status = 0 then s.meterAdd c.f.val cWritten (4096 * c.count) else s
    (s1.dropCmd c.id).detachCheck c.f

/-- An entry goes to its CQ: written, or held while the CQ is full, its slot's wake set and its line polled at poll_min (R336); a CQ in
ERROR receives nothing (R329). -/
def State.postEntry (s : State) (f : FuncId) (q : Nat) (e : Entry) : State :=
  match s.cq? f q with
  | none => s
  | some x =>
    if x.error then s
    else if x.room = 0 ∨ x.held ≠ [] then
      let s1 := s.modCq f q (fun y => { y with held := y.held ++ [e] })
      let s2 := if x.held = [] then s1.cqSlot x true else s1
      s2.modLine f false (lineOf q) (fun l => { l with interval := s.pollMin, idle := 0 })
    else (s.writeEntry x e).afterPost e

/-- The held entries that a CQ has room for are written in order (R336), for n of them. -/
def State.flushHeld (s : State) (f : FuncId) (q : Nat) : Nat → State
  | 0 => s
  | n + 1 =>
    match s.cq? f q with
    | none => s
    | some x =>
      match x.held with
      | [] => s
      | e :: r =>
        if x.error || x.room == 0 then s
        else
          let s1 := s.modCq f q (fun y => { y with held := r })
          let s2 := (s1.writeEntry x e).afterPost e
          let s3 := if r = [] then s2.cqSlot x false else s2
          s3.flushHeld f q n

/-! ### Arbitration (R339) -/

/-- The next number in cyclic order after n. -/
def nextAfter (n : Nat) (l : List Nat) : Option Nat :=
  let least (l : List Nat) : Option Nat := l.foldl (fun a x => match a with
    | none => some x
    | some y => some (min x y)) none
  match least (l.filter (fun x => n < x)) with
  | some x => some x
  | none => least l

/-- Outstanding writes, tracked by the overlap table of 65,536 (R341, R343). -/
def State.overlapUsed (s : State) : Nat := (s.cmds.filter Cmd.isWrite).length

/-- An SQ from which a command can be fetched (R339). -/
def State.ready (s : State) (x : Sq) : Bool :=
  (s.func x.f).st == .attached && !x.error && x.deleting.isNone && x.head != x.tail
    && !(x.nextWrite && decide (65536 ≤ s.overlapUsed))
    && !s.cmds.any (fun c => c.f == x.f && c.sq == x.q && s.underFence c)
    && (match s.cq? x.f x.cq with
        | some c => decide (s.owed c < c.room)
        | none => false)

/-- An SQ of the urgent class. -/
def Sq.first (x : Sq) : Bool := x.q == 0 || x.urgent

/-- The commands that function f may fetch in a round. -/
def State.weightOf (s : State) (f : FuncId) : Nat := s.fld1 (.func f) FUNC.weight

/-- The SQ of the urgent class whose turn it is. -/
def State.pickUrgent (s : State) (l : List Sq) : Option Sq :=
  match nextAfter s.arb.lastUrgent (l.map (fun (x : Sq) => x.f.val)) with
  | none => none
  | some n =>
    let mine := l.filter (fun x => x.f.val == n)
    match mine.head? with
    | none => none
    | some y => (nextAfter (s.func y.f).lastUrgent (mine.map Sq.q)).bind (fun q => mine.find? (fun (x : Sq) => x.q == q))

/-- The function of the normal class whose turn it is: it stays while it has credit, and a new round begins when none that waits has any. -/
def State.normalFn (s : State) (l : List Sq) : Option (Nat × Bool) :=
  let fns := (l.filter (fun x => (s.func x.f).credit < s.weightOf x.f)).map (·.f.val)
  if fns.contains s.arb.lastNormal then some (s.arb.lastNormal, false)
  else match nextAfter s.arb.lastNormal fns with
    | some n => some (n, false)
    | none => (nextAfter s.arb.lastNormal (l.map (fun (x : Sq) => x.f.val))).map (fun n => (n, true))

/-- The SQ of the normal class whose turn it is, and whether a new round begins. -/
def State.pickNormal (s : State) (l : List Sq) : Option (Sq × Bool) :=
  match s.normalFn l with
  | none => none
  | some (n, fresh) =>
    let mine := l.filter (fun x => x.f.val == n)
    match mine.head? with
    | none => none
    | some y =>
      let fn := s.func y.f
      let stay := if fn.burst < s.fld1 .queue QUEUE.sq_burst ∧ 0 < fn.burst then mine.find? (fun (x : Sq) => x.q == fn.lastNormal) else none
      let pick := match stay with
        | some x => some x
        | none => (nextAfter fn.lastNormal (mine.map Sq.q)).bind (fun q => mine.find? (fun (x : Sq) => x.q == q))
      pick.map (fun x => (x, fresh))

/-- The SQ of the next fetch and its class: urgent, normal, or normal at the start of a round (R339). -/
inductive Pick
  | urgent (x : Sq)
  | normal (x : Sq) (fresh : Bool)
deriving DecidableEq, Repr

def Pick.sq : Pick → Sq
  | .urgent x => x
  | .normal x _ => x

/-- Arbitration (R339). -/
def State.pick (s : State) : Option Pick :=
  let l := s.sqs.filter s.ready
  let u := s.pickUrgent (l.filter Sq.first)
  let n := s.pickNormal (l.filter (fun x => !Sq.first x))
  let norm := n.map (fun p => Pick.normal p.1 p.2)
  if s.fld1 .queue QUEUE.urgent_run ≤ s.arb.urgentRun then
    match norm with
    | some p => some p
    | none => u.map .urgent
  else match u with
    | some x => some (.urgent x)
    | none => norm

/-- The arbitration's own state after a fetch. -/
def State.served (s : State) (p : Pick) : State :=
  match p with
  | .urgent x =>
    State.modFunc { s with arb := { s.arb with urgentRun := s.arb.urgentRun + 1, lastUrgent := x.f.val } } x.f
      (fun y => { y with lastUrgent := x.q })
  | .normal x fresh =>
    let s1 := if fresh then { s with funcs := s.funcs.map (fun p => (p.1, { p.2 with credit := 0 })) } else s
    State.modFunc { s1 with arb := { s1.arb with urgentRun := 0, lastNormal := x.f.val } } x.f (fun y => { y with
      credit := y.credit + 1
      burst := if y.lastNormal = x.q ∧ 0 < y.burst ∧ y.burst < s.fld1 .queue QUEUE.sq_burst then y.burst + 1 else 1
      lastNormal := x.q })

end Sys2Proof.Machine
end

