-- ==== Sys2Proof/Machine/RecordOps.lean ====
section
/-! DEFINITION. Extents in recording (R250–R252, R266–R272): how far a window's stream has come, relocation, retry, giving up,
and the moment at which an extent is on the medium. -/

namespace Sys2Proof.Machine

def srcWr (g : HeadId) : BitVec 16 := srcBay ⟨g.val / 2, by omega⟩ (6 + g.val % 2)

/-- Head of a side of a bay (R32). -/
def sideHead (b : BayId) (side : Bool) : HeadId := ⟨2 * b.val + (if side then 1 else 0), by split <;> omega⟩

/-- The bay of a head. -/
def hbay (g : HeadId) : BayId := ⟨g.val / 2, by omega⟩

/-- The bay in which a disc is mounted or mounting. -/
def State.discBay (s : State) (d : BitVec 128) : Option BayId :=
  (List.finRange 8).find? (fun b => s.bays[b.val].disc == some d)

/-! ### Windows and their streams (R57, R257, R268) -/

/-- The frame of a place's data bits: the frames that a stream begins in e wedges from the wedge in which frame f starts. -/
def framesBegun (track f e : Nat) : Nat :=
  let d := bandBits track - 432
  let off := match bandOf track with
    | some .data => (match zoneOfFrame f with
        | some z => (f - zoneFirst z) * 1584 % d
        | none => 0)
    | _ => f * 1584 % d
  ceilDiv (e * d - off) 1584

/-- A window in progress: its first frame, its frame count and the frames that its stream will have begun by the end of the
present wedge. -/
structure WindowPos where
  track : Nat
  frame : Nat
  count : Nat
  upto : Nat
deriving DecidableEq, Repr

/-- The write window whose streams run on a head. -/
def State.writePos (s : State) (g : HeadId) : Option WindowPos :=
  let bay := s.bays[(hbay g).val]
  if !(s.wrs[g.val]).stream then none
  else bay.requests.findSome? (fun r =>
    match r.kind, r.stage with
    | .writeWindow track f n, .running began =>
      if r.head = g then
        some ⟨track.toNat, f.toNat, n.toNat, f.toNat + min n.toNat (framesBegun track.toNat f.toNat (bay.wedgeAbs - began + 1))⟩
      else none
    | _, _ => none)

/-- A side-layer's high-water frame rises (R57, R268). -/
def State.raiseHigh (s : State) (b : BayId) (sl : BitVec 5) (f : Nat) : State :=
  if h : slIndex sl < 24 then
    s.modMount b (fun m => { m with highWater := m.highWater.set (slIndex sl) (max m.highWater[slIndex sl] f) })
  else s

/-- The high-water frame of a side-layer. -/
def State.highOf (s : State) (b : BayId) (sl : BitVec 5) : Nat :=
  if h : slIndex sl < 24 then s.mounts[b.val].highWater[slIndex sl] else 0

/-! ### Room (R55, R65, R267) -/

/-- The first start frame at or after f at which `need` frames lie in one zone, over n zones from z (R55, R65). -/
def fitZone (f need : Nat) : Nat → Nat → Option Nat
  | 0, _ => none
  | n + 1, z =>
    let a := max f (zoneFirst z)
    if a + need ≤ zoneFirst z + zoneFrames z then some a else fitZone f need n (z + 1)

/-- Where an extent of `need` frames starts at or after frame f. -/
def fitFrom (f need : Nat) : Option Nat := fitZone f need 32 0

/-- The data-band frames of a side-layer, per spiral (R67). -/
def layerFrames : Nat := 162203784

/-- Free frames from f on have not fallen below 2 % of a side-layer (Table 02-12). -/
def aboveReserve (f : Nat) : Bool := layerFrames ≤ (layerFrames - f) * 50

/-- Data clusters of an extent of b blocks (R52, R55). -/
def dataClusters (blocks : Nat) : Nat := ceilDiv blocks 16

/-- Frames that an extent of b blocks needs at its first placement. -/
def extentNeed (blocks : Nat) : Nat := extentFrames (dataClusters blocks) 0

/-- An extent has not begun recording at its present place. -/
def Extent.unplaced (e : Extent) : Bool := e.phase == .open || e.phase == .waiting

/-- An extent's place on a side-layer is in use. -/
def Extent.busy (e : Extent) : Bool := e.phase == .recording || e.phase == .recordDue || e.phase == .recordOut

/-- The first frame of a side-layer that nothing uses or has claimed. -/
def State.nextFrame (s : State) (d : BitVec 128) (sl : BitVec 5) : Nat :=
  let base := match s.discBay d with
    | some b => s.highOf b sl
    | none => 0
  (s.extents.filter (fun e => e.disc == d && e.sl == sl && e.area == 0 && e.busy)).foldl (fun n e => max n e.tail) base

/-- The frame after every extent that is to be recorded on a side-layer and one more of `need` frames, none where it has no room. -/
def State.layerReach (s : State) (d : BitVec 128) (sl : BitVec 5) (need : Nat) : Option Nat :=
  let f := (s.extents.filter (fun e => e.disc == d && e.sl == sl && e.area == 0 && e.unplaced)).foldl
    (fun (a : Option Nat) e => match a with
      | none => none
      | some x => (fitFrom x (extentNeed e.blocks)).map (· + extentNeed e.blocks)) (some (s.nextFrame d sl))
  match f with
  | none => none
  | some x => if aboveReserve x then fitFrom x need else none

/-- The side-layers in the order in which the model fills them (DESIGN CHOICE, log entry 31). -/
def allLayers : List (BitVec 5) := (List.range 12).map (BitVec.ofNat 5) ++ (List.range 12).map (fun n => BitVec.ofNat 5 (16 + n))

/-- A side-layer of a disc with room for an extent. -/
def State.layerFor (s : State) (d : BitVec 128) (need : Nat) : Option (BitVec 5) :=
  allLayers.find? (fun sl => (s.layerReach d sl need).isSome)

/-- The bays whose disc is mounted for writing. -/
def State.writableBays (s : State) : List BayId := (List.finRange 8).filter (fun b => (s.mounts[b.val]).st == .mounted)

/-- The bay and side-layer at which a new extent is placed: the lowest-numbered with room (R267; DESIGN CHOICE, log entry 31). -/
def State.placeFor (s : State) (need : Nat) : Option (BayId × BitVec 128 × BitVec 5) :=
  s.writableBays.findSome? (fun b => match s.bays[b.val].disc with
    | some d => (s.layerFor d need).map (fun sl => (b, d, sl))
    | none => none)

/-! ### Sequence numbers (R251) -/

/-- The next extent sequence number; a new block of 2^20 is reserved, and its end recorded, before its first number is issued. -/
def State.issueSeq (s : State) : Nat × State :=
  let s1 := if s.seqNext < s.seqEnd then s
    else { s with seqEnd := s.seqNext + 2 ^ 20, nv := { s.nv with dueOwned := true } }
  (s1.seqNext, { s1 with seqNext := s1.seqNext + 1 })

/-- An extent is closed to further packing and receives its number (R251). -/
def State.closeExtent (s : State) (e : Extent) : State :=
  if e.phase = .open then
    let r := s.issueSeq
    r.2.modExtent e.key (fun x => { x with seq := some r.1, phase := .waiting })
  else s

/-! ### The map (R270, R272) -/

/-- The relocations of an extent as they stand: index and place of every cluster not at home. -/
def Extent.relocs (e : Extent) : List (Nat × Nat) :=
  (e.clusters.mapIdx (fun i c => (i, c))).filterMap (fun p => if p.2.reloc then some (p.1, p.2.place) else none)

/-- The runs of an extent with their offsets within it. -/
def runOffsets : Nat → List ExtRun → List (Nat × ExtRun)
  | _, [] => []
  | n, r :: l => (n, r) :: runOffsets (n + r.count) l

/-- The map entries of an extent whose record stands (R272); the runs of dead writes do not enter the map. -/
def State.mapRuns (s : State) (e : Extent) (r : RecSt) : List MapRun :=
  (runOffsets 0 e.runs).filterMap (fun p =>
    if e.dead.contains p.2.write then none
    else match s.cmd? p.2.write with
      | some c => some ⟨e.nsid, c.first + p.2.first, p.2.count, e.disc, r.sl, r.frame, p.1, e.keyTag, e.seq.getD 0,
          r.start, e.clusters.length, r.relocs⟩
      | none => none)

/-- The map takes the entries of an extent, in place of those of the same number (R270, R272). -/
def State.mapPut (s : State) (e : Extent) (r : RecSt) : State :=
  let new := s.mapRuns e r
  { s with map := new ++ s.map.filter (fun x => !(x.disc == e.disc && some x.seq == e.seq)) }

/-! ### Giving up and retry (R267) -/

/-- An extent leaves recording. -/
def State.removeExtent (s : State) (key : Nat) : State := { s with extents := s.extents.filter (fun e => e.key != key) }

/-- The units of an extent that is given up serve no later READ (R342); where an amended record of it stands, they do. -/
def State.loseUnits (s : State) (e : Extent) : State :=
  if e.stood.isSome then s
  else e.runs.foldl (fun t r => t.modCmd r.write (fun c => { c with
    units := c.units.mapIdx (fun i u => if r.first ≤ i ∧ i < r.first + r.count then .gone else u) })) s

/-- The writes of an extent complete with a status; where an amended record of it stands, the map names that record (R267,
Table 10-3). -/
def State.giveUp (s : State) (e : Extent) (status : Nat) : State :=
  let s1 := match e.stood with
    | some r => s.mapPut e r
    | none => s
  let s2 := (s1.removeExtent e.key).loseUnits e
  let s3 := (s2.flag (.wr e.head) WR.retry_given_up).logEv (srcWr e.head) .retryGivenUp [e.seq.getD 0]
  e.runs.foldl (fun t r => if e.dead.contains r.write then t else t.extentOutcome r.write status r.first) s3

/-- An extent finds no writable space: nothing more of it is recorded, and its writes complete with 0x01/0x05 (R267). -/
def State.noSpace (s : State) (e : Extent) : State :=
  let s1 := match e.stood with
    | some r => s.mapPut e r
    | none => s
  e.runs.foldl (fun t r => if e.dead.contains r.write then t else t.extentOutcome r.write (stat 1 5) r.first) ((s1.removeExtent e.key).loseUnits e)

/-- An extent retry (R267): the whole extent again with the same number, on this side-layer or another of the same disc; given up
after extent_retry retries. -/
def State.retryExtent (s : State) (e : Extent) : State :=
  if s.act (.wr e.head) WR.extent_retry ≤ e.retries then s.giveUp e (stat 2 2)
  else
    let need := extentNeed e.blocks
    let t := s.modExtent e.key (fun x => { x with phase := .done })
    let sl := if (t.layerReach e.disc e.sl need).isSome then some e.sl else t.layerFor e.disc need
    match sl with
    | none => s.noSpace e
    | some l =>
      (s.modExtent e.key (fun x => { x with
        phase := .waiting, retries := x.retries + 1, clusters := [], relocWrites := 0, sl := l
        head := sideHead (hbay x.head) (slSide l) })).incSat (.wr e.head) WR.retries

/-! ### Relocation (R266, R269) -/

/-- The frame after the zone of an extent. -/
def Extent.zoneEnd (e : Extent) : Nat :=
  match zoneOfFrame e.start with
  | some z => zoneFirst z + zoneFrames z
  | none => 0

/-- A cluster is relocated: written again after every frame in use, or the extent is retried (R266, R267). One whose record has passed
to the link is amended (R269). -/
def State.relocate (s : State) (key i : Nat) : State :=
  match s.extents.find? (fun e => e.key == key) with
  | none => s
  | some e =>
    if !e.busy then s
    else
      let pos := match s.writePos e.head with
        | some w => if bandOf w.track = some .data then w.upto else 0
        | none => 0
      let at_ := max (s.nextFrame e.disc e.sl) pos
      if 16 ≤ e.relocWrites ∨ e.zoneEnd < at_ + 153 then s.retryExtent e
      else
        let amend := e.phase == .recordOut
        let s1 := s.modExtent key (fun x => { x with
          clusters := x.clusters.mapIdx (fun j c => if j = i then ⟨at_, true, 0, false, .waiting⟩ else c)
          relocWrites := x.relocWrites + 1
          tail := at_ + 153
          phase := if amend then .recording else x.phase })
        let s2 := (s1.incSat (.wr e.head) WR.relocated).logEv (srcWr e.head) .relocation [e.seq.getD 0, i, at_]
        if amend then s2.flag (.wr e.head) WR.amended else s2

/-- A cluster fails verify: the head's count of the last 256, and relocation (R261, R264, R266). -/
def State.failCluster (s : State) (key i : Nat) : State :=
  match s.extents.find? (fun e => e.key == key) with
  | none => s
  | some e => (s.modWr e.head (fun w => { w with hist := (true :: w.hist).take 256 })).relocate key i

/-- A couching record fails verify: it is written again, or the extent is retried (R267, R271). -/
def State.failRecord (s : State) (key : Nat) : State :=
  match s.extents.find? (fun e => e.key == key) with
  | none => s
  | some e =>
    match e.record with
    | none => s
    | some r =>
      if s.act (.wr e.head) WR.rec_retry < r.tries + 1 then
        s.retryExtent e
      else s.modExtent key (fun x => { x with
        phase := .recordDue
        record := some { r with tries := r.tries + 1, verified := false } })

/-! ### On the medium (R272) -/

/-- Everything that the record names is verified. -/
def Extent.complete (e : Extent) : Bool :=
  match e.record with
  | some r => e.phase == .recordOut && r.verified && e.clusters.all (fun c => c.st == .verified) && r.relocs == e.relocs
  | none => false

/-- A count of extents reaches an interval of the WR group. -/
def reached (n interval : Nat) : Bool := 0 < interval && interval ≤ n

/-- An extent goes on the medium: the map, the disc's counts, and the outcome of its writes (R272, R276). -/
def State.onMedium (s : State) (e : Extent) (r : RecSt) : State :=
  match s.discBay e.disc with
  | none => s
  | some b =>
    let s1 := (s.accrueMounted.mapPut e r).raiseHigh b e.sl e.tail
    let full := !aboveReserve (s1.highOf b e.sl)
    let s2 := s1.modMount b (fun m =>
      let n := m.sinceAnchor + 1
      let k := m.sinceCkpt + 1
      let newFull := full && !m.full.contains e.sl
      { m with
        sinceAnchor := n
        sinceCkpt := k
        anchorDue := m.anchorDue || reached n (s.act (.wr e.head) WR.anchor_interval) || newFull
        ckptDue := m.ckptDue || reached k (s.act (.wr e.head) WR.ckpt_interval)
        full := if newFull then e.sl :: m.full else m.full
        highestSeq := max m.highestSeq (e.seq.getD 0)
        lastRec := if h : slIndex e.sl < 24 then m.lastRec.set (slIndex e.sl) (some r.frame) else m.lastRec
        prevRec := some (r.sl, r.frame) })
    e.runs.foldl (fun t x =>
      if e.dead.contains x.write then t
      else (t.modCmd x.write (fun c => { c with
        discs := if c.discs.contains e.disc then c.discs else e.disc :: c.discs })).extentOutcome x.write 0 0) (s2.removeExtent e.key)

/-- An extent that is complete goes on the medium. -/
def State.checkExtent (s : State) (key : Nat) : State :=
  match s.extents.find? (fun e => e.key == key) with
  | none => s
  | some e =>
    match e.record with
    | some r => if e.complete then s.onMedium e r else s
    | none => s

/-! ### Windows that end early (R20, R86, R149, R268) -/

/-- The unverified clusters of an extent that a window was to write. -/
def Extent.unfinished (e : Extent) (w : WindowPos) : List Nat :=
  (e.clusters.mapIdx (fun i c => (i, c))).filterMap (fun p =>
    if p.2.st ≠ .verified ∧ w.frame ≤ p.2.place ∧ p.2.place < w.frame + w.count then some p.1 else none)

/-- The window's unverified clusters fail, and a record of it that is not verified (R20, R86, R149); the high-water frame is the first
that no stream has reached (R268). The head's streams have ended. -/
def State.failWindow (s : State) (g : HeadId) : State :=
  match s.writePos g with
  | none => s
  | some w =>
    if bandOf w.track ≠ some .data then s.modWr g (fun x => { x with stream := false })
    else
      let keys := (s.extents.filter (fun e => e.head == g && e.area == 0 && e.busy)).map (·.key)
      let s1 := keys.foldl (fun t k => match t.extents.find? (fun e => e.key == k) with
        | some e => match t.discBay e.disc with
          | some b => t.raiseHigh b e.sl w.upto
          | none => t
        | none => t) s
      keys.foldl (fun t k => match t.extents.find? (fun e => e.key == k) with
        | some e =>
          let t1 := (e.unfinished w).foldl (fun u i => u.failCluster k i) t
          (match e.record with
            | some r => if e.phase = .recordOut ∧ r.verified = false then t1.failRecord k else t1
            | none => t1)
        | none => t) (s1.modWr g (fun x => { x with stream := false }))

/-! ### Head busy (R489) -/

/-- The functions that a head's window serves: those of commands with codewords or extents on the head. -/
def State.servedFns (s : State) (g : HeadId) : List Nat :=
  let reads := (s.codewords.filter (fun c => c.head == g && c.phase != .converged && c.phase != .failed)).filterMap (·.cmd)
  let writes := (s.extents.filter (fun e => e.head == g && e.busy)).flatMap (fun e => e.runs.map (·.write))
  ((reads ++ writes).filterMap (fun id => (s.cmd? id).map (·.f.val))).dedup

/-- Head busy accrues at the close of a window, divided equally among the functions that it serves (R489). -/
def State.meterClose (s : State) (g : HeadId) : State :=
  match Tab.get? s.meter.busyFrom g.val with
  | none => s
  | some t =>
    let fs := s.servedFns g
    let us := (s.time.localNs - t) / 1000
    let s1 := { s with meter := { s.meter with busyFrom := Tab.erase s.meter.busyFrom g.val } }
    fs.foldl (fun t f => t.meterAdd f cBusy (us / fs.length)) s1

/-- A window of a beam closes: its final gain, baseline, asymmetry and taps are saved as the warm set of the zone (R234), and a pending frame
is gone. -/
def Beam.close (b : Beam) : Beam :=
  if b.st = .idle then b
  else { b with st := .idle, pend := none, set := none, recentre := none, defect := none, warm := Tab.put b.warm b.zone b.vals }

/-- The head's channels are suspended: every beam is idle, and a pending frame is dropped (R20, Table 09-4, Table 09-5). -/
def State.suspendBeams (s : State) (g : HeadId) : State :=
  { s with beams := vmod s.beams g (fun v => v.map Beam.close) }

end Sys2Proof.Machine
end

