-- ==== Sys2Proof/Machine/Placement.lean ====
section
/-! DEFINITION. Writes whose data are all in DRAM are placed in extents (R250, R251, R267), and the ways in which a fetched command is taken
away from its function (R318, R346, R347, Table 13-8). -/

namespace Sys2Proof.Machine

/-! ### Packing (R250) -/

/-- The parts of a write of n blocks: first block and count of each, split at every 4 MiB. -/
def writeParts (n : Nat) : List (Nat × Nat) :=
  (List.range (ceilDiv n 1024)).map (fun i => (1024 * i, min 1024 (n - 1024 * i)))

/-- The key slot of a namespace. -/
def State.slotOf (s : State) (ns : BitVec 32) : Nat :=
  match s.nss.find? (fun n => n.nsid == ns) with
  | some n => n.slot
  | none => 0

/-- An open extent takes a part: one namespace, slot and key, up to 8 writes and 4 MiB (R250). -/
def Extent.takes (e : Extent) (c : Cmd) (slot count : Nat) : Bool :=
  e.phase == .open && e.nsid == c.e.nsid && e.slot == slot && e.keyTag == c.keyTag
    && decide (e.runs.length < 8) && decide (e.blocks + count ≤ 1024) && !e.runs.any (fun r => r.write == c.id)

/-- An extent as it is begun for a part. -/
def newExtent (key : Nat) (c : Cmd) (slot : Nat) (r : ExtRun) (b : BayId) (d : BitVec 128) (sl : BitVec 5) : Extent :=
  { key := key, seq := none, disc := d, head := sideHead b (slSide sl), sl := sl, nsid := c.e.nsid, slot := slot, keyTag := c.keyTag
    runs := [r], blocks := r.count, start := 0, area := 0, clusters := [], relocWrites := 0, retries := 0, tail := 0
    record := none, stood := none, prev := none, phase := .open, dead := [] }

/-- The status of a write that finds no place: a read-only disc where every disc that is mounted is one, else no writable space
(Table 13-7). -/
def State.noPlaceStatus (s : State) : Nat :=
  if s.writableBays.isEmpty ∧ (List.finRange 8).any (fun b => (s.mounts[b.val]).st == .readOnly) = true then stat 1 3 else stat 1 5

/-- A part is placed whole in one extent (R250); an extent that is full is closed. -/
def State.placePart (s : State) (c : Cmd) (slot : Nat) (p : Nat × Nat) : State :=
  let r : ExtRun := ⟨c.id, p.1, p.2⟩
  match s.extents.find? (fun e => e.takes c slot p.2) with
  | some e =>
    let s1 := s.modExtent e.key (fun x => { x with runs := x.runs ++ [r], blocks := x.blocks + p.2 })
    if e.blocks + p.2 = 1024 ∨ e.runs.length = 7 then s1.closeExtent e else s1
  | none =>
    match s.placeFor (extentNeed p.2) with
    | none => s.extentOutcome c.id s.noPlaceStatus p.1
    | some (b, d, sl) =>
      let e := newExtent s.nextKey c slot r b d sl
      let s1 := { s with extents := s.extents ++ [e], nextKey := s.nextKey + 1 }
      if p.2 = 1024 then s1.closeExtent e else s1

/-- A write is placed: open extents that hold a write overlapping it are closed first, so that its extents receive higher numbers
(R250, R251). -/
def State.placeWrite (s : State) (id : Nat) : State :=
  match s.cmd? id with
  | none => s
  | some c =>
    let clash (e : Extent) : Bool := e.runs.any (fun r => s.cmds.any (fun w => w.id == r.write && w.overlaps c))
    let s1 := (s.extents.filter (fun e => e.phase == .open && clash e)).foldl State.closeExtent s
    let parts := writeParts c.count
    parts.foldl (fun t p => t.placePart c (s.slotOf c.e.nsid) p) (s1.modCmd id (fun x => { x with placed := true, extentsLeft := parts.length }))

/-- A write can be placed: its data are all in DRAM, and every earlier write that overlaps it has been placed or has ended. -/
def State.placeable (s : State) (c : Cmd) : Bool :=
  c.isWrite && c.stage == .dataIn && !c.placed
    && !s.cmds.any (fun w => w.isWrite && decide (w.id < c.id) && w.overlaps c && !w.placed && w.stage != .ended)

/-- Every write that can be placed is placed, in fetch order. -/
def State.placeReady (s : State) : State :=
  (s.cmds.map (·.id)).foldl (fun t id => match t.cmd? id with
    | some c => if t.placeable c then t.placeWrite id else t
    | none => t) s

/-! ### Commands that are taken away -/

/-- The codewords of a READ that ends or is abandoned: one on a decoder or in its ladder step stops at the end of it, the others go
(R318, Table 11-8, Table 13-8). -/
def State.dropCodewords (s : State) (id : Nat) : State :=
  { s with codewords := s.codewords.filterMap (fun w =>
      if w.cmd = some id then
        (match w.phase with
          | .decoding _ => some { w with stop := true, cmd := none }
          | .ladder => some { w with stop := true, cmd := none }
          | _ => none)
      else some w) }

/-- Unsent mirror messages of a write go (Table 17-5). -/
def State.dropMessages (s : State) (id : Nat) : State :=
  s.modChain (fun x => { x with msgs := x.msgs.filter (fun m => m.cmd != id || m.slot.isSome) })

/-- A command is dropped or abandoned, with no completion (Table 13-8). -/
def State.abandon (s : State) (id : Nat) : State :=
  let s1 := (s.dropCodewords id).dropMessages id
  State.dropCmd { s1 with
    cipher := { s1.cipher with queue := s1.cipher.queue.filter (fun r => r.cmd != id) } } id

/-- An admin command that has an operation under way which goes on without it. -/
def Cmd.goesOn (c : Cmd) : Bool := c.admin && (c.e.opcode == 0x84 || c.e.opcode == 0x87 || c.e.opcode == 0x88) && c.stage == .running

/-- The FLR column of Table 13-8: a write whose data are all in DRAM is recorded and never posted; everything else of the function goes.
`removed` marks the writes that go on after a surprise removal (R318). -/
def State.takeAway (s : State) (id : Nat) (removed : Bool) : State :=
  match s.cmd? id with
  | none => s
  | some c =>
    if c.isWrite ∧ c.stage = .dataIn then
      ((s.dropMessages id).modCmd id (fun x => { x with noPost := true, mirrorLeft := 0, detached := removed })).settleWrite id
    else if c.goesOn then s.modCmd id (fun x => { x with noPost := true })
    else s.abandon id

/-- Every command of a function takes the outcome of the FLR column, and its queue contexts are discarded (R346, R347). -/
def State.resetQueues (s : State) (f : FuncId) (removed : Bool) : State :=
  (((s.cmds.filter (fun c => c.f == f && c.posts)).map (·.id)).foldl (fun t id => t.takeAway id removed) (s.discardQueues f)).placeReady

/-- The commands of a function that wait under a FENCE are dropped (Table 13-8). -/
def State.dropFenced (s : State) (sel : Cmd → Bool) : State :=
  ((s.cmds.filter (fun c => sel c && s.underFence c)).map (·.id)).foldl State.abandon s

end Sys2Proof.Machine
end

