-- ==== Sys2Proof/Machine/Endpoint.lean ====
section
/-! DEFINITION. The host endpoint (chapter 12): host-link resets, VF Enable, surprise removal and re-attachment, and MSI-X entries. -/

namespace Sys2Proof.Machine

/-- A function is present: the PF, or a VF while VF Enable is set (R305, R306). -/
def State.present (s : State) (f : FuncId) : Bool := f.val == 0 || s.host.vfEnable

/-- The MSI-X table and PBA of a function at a reset that covers it (R315). -/
def State.resetMsix (s : State) (f : FuncId) : State :=
  { s with msix := Tab.dropRange s.msix (2048 * f.val) (2048 * f.val + 2048), msixFns := Tab.erase s.msixFns f.val }

/-- A Function Level Reset of one function: its MSI-X, its queues and its commands (R317, R347, Table 13-8). -/
def State.flrOne (s : State) (f : FuncId) : State := (s.resetQueues f false).resetMsix f

/-- The functions that hold something that a reset takes: an attachment or commands. -/
def State.liveFns (s : State) : List FuncId :=
  (List.finRange 2049).filter (fun f => (Tab.get? s.funcs f.val).isSome || s.cmds.any (fun c => c.f == f && c.posts))

/-- Every VF is reset and VF Enable is 0 (Table 12-6, Table 12-8). -/
def State.dropVfs (s : State) : State :=
  let s1 := (s.liveFns.filter (fun f => f.val != 0)).foldl (fun t f => t.resetQueues f false) s
  { s1 with
    msix := Tab.dropRange s1.msix 2048 (2048 * 2049)
    msixFns := Tab.dropRange s1.msixFns 1 2049
    host := { s1.host with vfEnable := false } }

/-- FLR (R317, R346, Table 12-6, Table 13-8): one of the PF clears VF Enable and acts on every VF. Nothing else of the module changes. -/
def execFlr (f : FuncId) (s : State) : Host.Outcome State Fault Refusal :=
  if !s.host.active || !s.present f then .next s
  else
    let s1 := (s.flrOne f).logEv (srcFunc f) .flr []
    if f.val = 0 then .next s1.dropVfs else .next s1

/-- What a conventional reset clears at every function (Table 12-6). -/
def State.linkReset (s : State) (removed : Bool) : State :=
  let s1 := s.liveFns.foldl (fun t f => t.resetQueues f removed) s
  { s1 with msix := [], msixFns := [], host := { s1.host with vfEnable := false } }

/-- CONVENTIONAL_RESET (R317, R346): as an FLR of every function. -/
def execConventionalReset (s : State) : Host.Outcome State Fault Refusal :=
  .next ((s.linkReset false).logEv (srcFunc 0) .reset [])

/-- VF_ENABLE_WRITE (R306, R309, Table 12-8): without effect in minimal mode; cleared, it acts as an FLR of each enabled VF. -/
def execVfEnableWrite (v : Bool) (s : State) : Host.Outcome State Fault Refusal :=
  if s.minimal || !s.host.active then .next s
  else if v then .next { s with host := { s.host with vfEnable := true } }
  else if s.host.vfEnable then .next s.dropVfs
  else .next s

/-- DL_ACTIVE_LOST (R318, R319, Table 12-7): the module is detached; every function's queues, commands, MSI-X and configuration state go as at a
controller reset, and writes whose data are all in DRAM are recorded without a completion. -/
def execDlActiveLost (s : State) : Host.Outcome State Fault Refusal :=
  if s.host.active then
    let s1 := s.linkReset true
    .next (State.logEv { s1 with host := { s1.host with active := false } } (srcFunc 0) .surpriseDown [])
  else .next s

/-- LINK_REATTACH (R321): the functions start as after a conventional reset. -/
def execLinkReattach (s : State) : Host.Outcome State Fault Refusal :=
  if s.host.active then .next s
  else .next { s with host := { s.host with active := true, vfEnable := false }, msix := [], msixFns := [] }

/-- A function's pending vectors that nothing masks any more send one message each (R316). -/
def State.sendPending (s : State) (f : FuncId) (l : List Nat) : State :=
  l.foldl (fun t v =>
    let e := t.msixEntry f v
    if e.pend ∧ e.mask = false ∧ (t.msixFn f).fmask = false ∧ (t.msixFn f).enable = true then
      (t.setMsix f v { e with pend := false }).emit (.msix f v e.addr e.data)
    else t) s

/-- An entry with one of its four words written: address low and high, data, vector control (R315). -/
def MsixEntry.write (e : MsixEntry) (word : Nat) (v : BitVec 32) : MsixEntry :=
  match word with
  | 0 => { e with addr := (e.addr.extractLsb' 32 32) ++ v }
  | 1 => { e with addr := v ++ (e.addr.extractLsb' 0 32) }
  | 2 => { e with data := v }
  | _ => { e with mask := v.getLsbD 0 }

/-- The vectors of a function with an entry in the table. -/
def State.listedVectors (s : State) (f : FuncId) : List Nat :=
  (s.msix.filter (fun p => 2048 * f.val ≤ p.1 && decide (p.1 < 2048 * f.val + 2048))).map (fun p => p.1 - 2048 * f.val)

/-- MSIX_ENTRY_WRITE (R315, R316): a word of an entry, or, with no entry, the function's message control (bit 15 enable, bit 14 Function
Mask; PRESUMED, log entry 41). A vector whose mask and Function Mask are then both 0 while it is pending sends one message. -/
def execMsixEntryWrite (f : FuncId) (entry : Option (BitVec 11)) (word : BitVec 2) (value : BitVec 32) (s : State) :
    Host.Outcome State Fault Refusal :=
  if !s.host.active || !s.present f then .next s
  else match entry with
    | some v =>
      if vectorCount f ≤ v.toNat then .next s
      else .next ((s.setMsix f v.toNat ((s.msixEntry f v.toNat).write word.toNat value)).sendPending f [v.toNat])
    | none =>
      let s1 := { s with msixFns := Tab.set MsixFn.reset s.msixFns f.val ⟨value.getLsbD 15, value.getLsbD 14⟩ }
      .next (s1.sendPending f (s1.listedVectors f))

end Sys2Proof.Machine
end

