-- ==== Sys2Proof/Machine/Governor.lean ====
section
/-! DEFINITION. The power governor's ledger, grants and queue (R22, R447–R451, Table 18-5). -/

namespace Sys2Proof.Machine

/-- Whether the blocks of domain d run (R445, Table 18-4): its rail is up, and no write has cleared its bit; a bit written in POWER_FAIL
is only recorded (R460). -/
def State.pdOn (s : State) (d : Nat) : Bool :=
  bitOf s.power.state.toNat d && (bitOf s.power.on.toNat d || s.power.powerFail)

/-- The motor stage domain of a bay, PD(8 + b div 2) (R165, Table 08-1). -/
def motorPd (b : BayId) : Nat := 8 + b.val / 2

/-- The sum of the millwatts of held grants of which `p` holds. -/
def heldMw (l : List Grant) (p : Grant → Bool) : Nat := ((l.filter p).map (·.mw)).sum

/-- Whether bay b's SPIN grant is held. -/
def State.spinHeld (s : State) (b : BayId) : Bool := s.power.held.any (fun x => x.cls == .spin && x.who == b.val)

def State.writeHeld (s : State) (b : BayId) : Bool := s.power.held.any (fun x => x.cls == .write && x.who == b.val)

def State.seekHeld (s : State) (g : HeadId) : Bool := s.power.held.any (fun x => x.cls == .seek && x.who == g.val)

/-- A spindle drive that the ledger counts at run_allow (R447). -/
def State.countsRun (s : State) (b : BayId) : Bool :=
  match s.bays[b.val].spindle.st with
  | .run | .coast | .resync => !s.spinHeld b
  | _ => false

/-- The ledger in mW (R447). -/
def State.ledger (s : State) : Nat :=
  let onBits := s.power.on.toNat ||| s.power.state.toNat
  s.fld .power POWER.overhead_mw
    + (((List.range 20).filter (bitOf onBits)).map (fun d => s.fld .power (POWER.allow_mw d))).sum
    + allowance 20
    + ((List.finRange 8).filter s.countsRun).length * s.fld .power POWER.run_allow
    + heldMw s.power.held (fun _ => true)

/-- The cap in mW: a write below 40,000 acts as 40,000, one above 120,000 as 120,000 (R447). -/
def State.cap (s : State) : Nat := max 40000 (min 120000 (s.fld .power POWER.cap_mw))

/-- Whether a SEEK or WRITE grant of `mw` fits (Table 18-5). -/
def State.fitsUnderReserve (s : State) (mw : Nat) : Bool :=
  s.ledger + mw ≤ s.cap - (s.fld .power POWER.reserve_mw - heldMw s.power.held (·.cls == .spin))

/-- The size of a SPIN grant for a bay, none where it may not be issued (Table 18-5, R449). -/
def State.spinSize (s : State) (b : Nat) : Option Nat :=
  let want := if h : b < 8 then s.fld (.spindle ⟨b, h⟩) SPINDLE.spin_power else 0
  let size := min want (s.cap - s.ledger)
  let gapOk : Bool := match s.power.lastSpin with
    | none => true
    | some t => decide (t + s.fld .power POWER.spin_gap * 1000000 ≤ s.time.localNs)
  if s.fld .power POWER.spin_min ≤ size ∧ s.ledger + size ≤ s.cap ∧
      (s.power.held.filter (·.cls == .spin)).length < s.fld1 .power POWER.spin_max ∧ gapOk = true then some size else none

/-- The grant that a request would get now, none where it must wait (R449–R451, Table 18-6; while the reference is lost as in POWER_FAIL,
R458). -/
def State.grantFor (s : State) (r : GrantReq) : Option Nat :=
  if s.power.overCap || s.power.powerFail || s.time.refLost then none
  else match r.cls with
    | .seek => let mw := s.fld .power POWER.seek_mw; if s.fitsUnderReserve mw then some mw else none
    | .write =>
      let mw := s.fld .power POWER.write_mw
      if s.power.thermalWarn then none else if s.fitsUnderReserve mw then some mw else none
    | .spin => if s.power.thermalWarn then none else s.spinSize r.who

/-- Issues a grant. -/
def State.issue (s : State) (r : GrantReq) (mw : Nat) : State :=
  { s with power := { s.power with
      queue := s.power.queue.erase r
      held := s.power.held ++ [⟨r.cls, r.who, mw⟩]
      lastSpin := if r.cls = .spin then some s.time.localNs else s.power.lastSpin } }

/-- Scans the requests of one class in arrival order; a SPIN request that does not fit holds back every later one (R449). -/
def State.scanClass (s : State) (cls : GrantClass) : List GrantReq → State
  | [] => s
  | r :: rest =>
    if r.cls = cls then
      match s.grantFor r with
      | some mw => (s.issue r mw).scanClass cls rest
      | none => if cls = .spin then s else s.scanClass cls rest
    else s.scanClass cls rest

/-- The governor's scan: SEEK, then WRITE, then SPIN (R449). -/
def State.scanGrants (s : State) : State :=
  let s1 := s.scanClass .seek s.power.queue
  let s2 := s1.scanClass .write s1.power.queue
  s2.scanClass .spin s2.power.queue

/-- A bay sequencer requests a grant; a request already waiting or granted is not repeated (R448). -/
def State.requestGrant (s : State) (cls : GrantClass) (who : Nat) : State :=
  if s.power.queue.contains (GrantReq.mk cls who) || s.power.held.any (fun x => x.cls == cls && x.who == who) then s
  else ({ s with power := { s.power with queue := s.power.queue ++ [GrantReq.mk cls who] } }).scanGrants

/-- A bay sequencer returns a grant, or withdraws its request; the ledger changes, so the queue is scanned (R22, R449). -/
def State.returnGrant (s : State) (cls : GrantClass) (who : Nat) : State :=
  ({ s with power := { s.power with
      queue := s.power.queue.filter (fun r => !(r.cls == cls && r.who == who))
      held := s.power.held.filter (fun x => !(x.cls == cls && x.who == who)) } }).scanGrants

end Sys2Proof.Machine
end

