-- ==== Sys2Proof/Machine/Doorbells.lean ====
section
/-! DEFINITION. NUDGE, attachment and doorbell lines (R324, R325, R327–R332, R347): SQ_NUDGE to DOORBELL_POLL. -/

namespace Sys2Proof.Machine

/-! ### NUDGE (R324, R332) -/

/-- A NUDGE write reaches the function: it is present, the link is up, and the module is not in minimal mode (R306, R309). -/
def State.nudgeable (s : State) (f : FuncId) : Bool := !s.minimal && s.host.active && s.present f

/-- A nudge for a queue's line: wake is cleared in its slots, and it is read and then polled at poll_min (R332). -/
def State.nudge (s : State) (f : FuncId) (sq : Bool) (q : Nat) : State :=
  match s.line? f sq (lineOf q) with
  | none => s
  | some _ =>
    ((s.wakeLine f sq (lineOf q) false).modLine f sq (lineOf q) (fun l => { l with
      interval := s.pollMin, idle := 0, parking := false, parked := false })).readLine f sq (lineOf q)

/-- SQ_NUDGE (R324, R332). -/
def execSqNudge (f : FuncId) (q : BitVec 18) (s : State) : Host.Outcome State Fault Refusal :=
  if s.nudgeable f && (s.sq? f q.toNat).isSome then .next (s.nudge f true q.toNat) else .next s

/-- CQ_NUDGE (R324, R332). -/
def execCqNudge (f : FuncId) (q : BitVec 18) (s : State) : Host.Outcome State Fault Refusal :=
  if s.nudgeable f && (s.cq? f q.toNat).isSome then .next (s.nudge f false q.toNat) else .next s

/-- NUDGE_RESERVED_OP (R324, R495): a write with a reserved op is discarded and logged. -/
def execNudgeReservedOp (f : FuncId) (op : BitVec 3) (s : State) : Host.Outcome State Fault Refusal :=
  if s.nudgeable f ∧ 5 ≤ op.toNat then .next (s.violation (srcFunc f) 2 op.toNat) else .next s

/-! ### Attachment (R325, R347) -/

/-- ATTACH_LO (R324): address bits [40:12] of the attach block. -/
def execAttachLo (f : FuncId) (arg : BitVec 29) (s : State) : Host.Outcome State Fault Refusal :=
  if s.nudgeable f then .next (s.modFunc f (fun x => { x with attachLo := arg.toNat * 4096 })) else .next s

/-- The attach block passes the checks of R325. -/
def State.attachOk (s : State) (f : FuncId) (a : AttachIn) : Bool :=
  s.mgmt.started && s.pdOn 18 && s.fld .queue QUEUE.enable == 1 && (s.func f).st == .detached && s.queueCount f != 0
    && decide (1 ≤ a.sqSizeM1.toNat) && decide (1 ≤ a.cqSizeM1.toNat) && decide (a.vector.toNat < vectorCount f)
    && a.sqBase.toNat % 4096 == 0 && a.cqBase.toNat % 4096 == 0 && a.sqDb.toNat % 512 == 0 && a.cqDb.toNat % 512 == 0

/-- The function's admin queues and their lines (R323, R325); the admin CQ fires after every entry. -/
def State.attach (s : State) (f : FuncId) (a : AttachIn) : State :=
  let s1 := s.modFunc f (fun x => { Func.reset with st := .attached, attachLo := x.attachLo, sqDb := a.sqDb.toNat, cqDb := a.cqDb.toNat })
  let sq : Sq := { f := f, q := 0, base := a.sqBase.toNat, size := a.sqSizeM1.toNat + 1, cq := 0, urgent := true, head := 0, tail := 0
                   seq := 0, error := false, deleting := none, nextWrite := false }
  let cq : Cq := { f := f, q := 0, base := a.cqBase.toNat, size := a.cqSizeM1.toNat + 1, vector := a.vector.toNat, aggCount := 0
                   aggTime := 0, head := 0, tail := 0, phase := true, seq := 0, error := false, held := [], unsig := 0 }
  (({ s1 with sqs := s1.sqs ++ [sq], cqs := s1.cqs ++ [cq] }).addLine f true 0).addLine f false 0

/-- ATTACH_HI (R325): the block is read and checked, bytes 44–55 and last the status word are written, and the function is ATTACHED or the
attach is refused. -/
def execAttachHi (f : FuncId) (arg : BitVec 29) (blk : AttachIn) (s : State) : Host.Outcome State Fault Refusal :=
  if !s.nudgeable f then .next s
  else
    let addr := (s.func f).attachLo + arg.toNat % 2 ^ 23 * 2 ^ 41
    let s1 := s.emit (.hostRead f (BitVec.ofNat 64 addr) 40)
    let ok := s.attachOk f blk
    let s2 := if ok then s1.attach f blk else s1
    let s3 := s2.emit (.hostWrite f (BitVec.ofNat 64 (addr + 44)) (leBytes 4 (s.queueCount f) ++ leBytes 8 s.now.toNat))
    .next (s3.emit (.hostWrite f (BitVec.ofNat 64 (addr + 40)) (leBytes 4 (if ok then 1 else 2))))

/-- DETACH (R347, Table 13-8): fetching stops, what waits under a FENCE is dropped, and the grace begins; with nothing left to post the function is
DETACHED. -/
def execDetach (f : FuncId) (s : State) : Host.Outcome State Fault Refusal :=
  if s.nudgeable f ∧ (s.func f).st = .attached then
    let s1 := (s.modFunc f (fun x => { x with st := .detaching, grace := some s.time.localNs })).dropFenced (fun c => c.f == f)
    .next (s1.detachCheck f)
  else .next s

/-- DETACH_GRACE_EXPIRY (R347): every command not yet posted takes the FLR column, and the function is DETACHED. -/
def execDetachGraceExpiry (f : FuncId) (s : State) : Host.Outcome State Fault Refusal :=
  if (s.func f).st = .detaching then .next (s.resetQueues f false) else .next s

/-! ### Doorbell polls (R327–R331, R336) -/

/-- An SQ enters ERROR: its slot, the log, and the completion with command ID 0xFFFF and a status on its CQ (R329, R402). -/
def State.sqErrorWith (s : State) (x : Sq) (status : Nat) : State :=
  let y := { x with error := true }
  let s1 := (((s.modSq x.f x.q (fun _ => y)).sqSlot y false).flag .queue QUEUE.doorbell_error).logEv (srcFunc x.f) .doorbellError [0, x.q]
  s1.postEntry x.f x.cq ⟨0, x.q, x.head, 0xFFFF, status, true, s.now, 0xFFFFFFFF, none⟩

/-- An SQ enters ERROR for its doorbell, with status 0x03/0x05 (R329). -/
def State.sqError (s : State) (x : Sq) : State := s.sqErrorWith x (stat 3 5)

/-- A CQ enters ERROR: its slot and the log; nothing further is posted to it (R329). -/
def State.cqError (s : State) (x : Cq) : State :=
  let y := { x with error := true }
  (((s.modCq x.f x.q (fun _ => y)).cqSlot y false).flag .queue QUEUE.doorbell_error).logEv (srcFunc x.f) .doorbellError [1, x.q]

/-- A tail that lies outside the ring, or that would overrun the head (R329). -/
def Sq.badTail (x : Sq) (t : Nat) : Bool :=
  decide (x.size ≤ t) || decide ((t + x.size - x.head) % x.size < (x.tail + x.size - x.head) % x.size)

/-- A head that lies outside the ring, or beyond the tail (R329). -/
def Cq.badHead (x : Cq) (h : Nat) : Bool :=
  decide (x.size ≤ h) || decide ((x.tail + x.size - x.head) % x.size < (h + x.size - x.head) % x.size)

/-- The host half of an SQ slot as read: a new seq counts as a write (R328). -/
def State.takeSq (s : State) (x : Sq) (w : BitVec 32) : State :=
  let seq := w.toNat / 65536
  let t := w.toNat % 65536
  if seq = x.seq ∨ x.error = true then s
  else if x.badTail t then (s.modSq x.f x.q (fun y => { y with seq := seq })).sqError { x with seq := seq }
  else s.modSq x.f x.q (fun y => { y with seq := seq, tail := t })

/-- The host half of a CQ slot as read; entries held for it are written where it now has room (R328, R336). -/
def State.takeCq (s : State) (x : Cq) (w : BitVec 32) : State :=
  let seq := w.toNat / 65536
  let h := w.toNat % 65536
  if seq = x.seq ∨ x.error = true then s
  else if x.badHead h then (s.modCq x.f x.q (fun y => { y with seq := seq })).cqError { x with seq := seq }
  else (s.modCq x.f x.q (fun y => { y with seq := seq, head := h })).flushHeld x.f x.q x.held.length

/-- A slot of the line holds a new write. -/
def State.newWrite (s : State) (f : FuncId) (sq : Bool) (q : Nat) (w : BitVec 32) : Bool :=
  if sq then (match s.sq? f q with
    | some x => !x.error && w.toNat / 65536 != x.seq
    | none => false)
  else (match s.cq? f q with
    | some x => !x.error && w.toNat / 65536 != x.seq
    | none => false)

/-- A slot of a created queue is taken. -/
def State.takeSlot (s : State) (f : FuncId) (sq : Bool) (q : Nat) (w : BitVec 32) : State :=
  if sq then (match s.sq? f q with
    | some x => s.takeSq x w
    | none => s)
  else (match s.cq? f q with
    | some x => s.takeCq x w
    | none => s)

/-- A queue of the line holds fetched commands, or a CQ of it entries that it has no room for (R330, R336). -/
def State.lineBusy (s : State) (f : FuncId) (sq : Bool) (n : Nat) : Bool :=
  if sq then s.cmds.any (fun c => c.f == f && c.posts && lineOf c.sq == n)
  else s.cmds.any (fun c => c.f == f && c.posts && (s.cmdCq c).any (fun q => lineOf q == n))

/-- The poll interval after a poll of a line (R330, R331). -/
def State.repoll (s : State) (l : Line) (new : Bool) : State :=
  let set (t : State) (g : Line → Line) : State := t.modLine l.f l.sq l.line g
  if new then
    let s1 := if l.parking then s.wakeLine l.f l.sq l.line false else s
    set s1 (fun x => { x with interval := s.pollMin, idle := 0, parking := false })
  else if l.parking then set s (fun x => { x with parking := false, parked := true })
  else if !l.sq && s.cqs.any (fun x => x.f == l.f && lineOf x.q == l.line && !x.held.isEmpty) then
    set s (fun x => { x with interval := s.pollMin, idle := 0 })
  else if l.interval < s.pollMax then set s (fun x => { x with interval := min s.pollMax (2 * x.interval), idle := 0 })
  else if s.fld1 .queue QUEUE.idle_polls ≤ l.idle + 1 ∧ s.lineBusy l.f l.sq l.line = false then
    set ((s.wakeLine l.f l.sq l.line true).readLine l.f l.sq l.line) (fun x => { x with idle := 0, parking := true })
  else set s (fun x => { x with idle := x.idle + 1 })

/-- DOORBELL_POLL (R328–R331, R336): the line's slots are read, a write counted by its seq, and the next interval set; the read that follows the
wake writes of a line about to be parked is a poll of its own. -/
def execDoorbellPoll (f : FuncId) (sq : Bool) (line : BitVec 12) (slots : Vector (BitVec 32) 64) (s : State) :
    Host.Outcome State Fault Refusal :=
  match s.line? f sq line.toNat with
  | none => .next s
  | some l =>
    if l.parked || !s.host.active then .next s
    else
      let qs := (List.finRange 64).map (fun i => (64 * line.toNat + i.val, slots[i.val]))
      let new := qs.any (fun p => s.newWrite f sq p.1 p.2)
      let s1 := qs.foldl (fun t p => t.takeSlot f sq p.1 p.2) s
      .next (s1.repoll l new)

end Sys2Proof.Machine
end

