-- ==== Sys2Proof/Machine/Fetch.lean ====
section
/-! DEFINITION. COMMAND_FETCH (R333, R334, R338–R345, R350, R360, R436): one entry is fetched, checked and becomes a command. -/

namespace Sys2Proof.Machine

/-! ### Checks of an entry (R333, R334, R338, R350) -/

/-- The little-endian value of n command-specific bytes from offset o of the entry (Table 13-4). -/
def specLe (e : EntryIn) (o n : Nat) : Nat := ofLe ((e.spec.toList.drop (o - 36)).take n)

/-- One command-specific byte. -/
def specByte (e : EntryIn) (o : Nat) : Nat := specLe e o 1

/-- Every command-specific byte outside the given ranges (offset, length) is 0. -/
def specZero (e : EntryIn) (used : List (Nat × Nat)) : Bool :=
  (List.range 28).all (fun i => used.any (fun r => r.1 ≤ 36 + i && decide (36 + i < r.1 + r.2)) || specByte e (36 + i) == 0)

/-- The bytes that a READ or WRITE moves, and how they are laid out, are as R334 gives. -/
def dataOk (e : EntryIn) : Bool :=
  let n := (e.nlbM1.toNat + 1) * 4096
  decide (e.nlbM1.toNat ≤ 65535) && e.dataAddr.toNat % 4 == 0 &&
    (!e.flags.getLsbD 0 ||
      (decide (1 ≤ e.ndesc.toNat) && decide (e.ndesc.toNat ≤ 4096) && decide (e.descriptors.length = e.ndesc.toNat)
        && e.descriptors.all (fun d => d.1.toNat % 4 == 0 && d.2.toNat % 4 == 0)
        && (e.descriptors.map (fun d => d.2.toNat)).sum == n))

/-- The fields of an I/O command are valid: flags, reserved bytes and command-specific bytes (R333, Table 13-5). -/
def ioFieldsOk (e : EntryIn) : Bool :=
  decide (e.flags.toNat < 4) && e.reserved == 0 &&
    (match e.opcode.toNat with
      | 1 => specZero e [] && dataOk e
      | 2 => specZero e [] && dataOk e
      | _ => specZero e [(36, 1)] && decide (specByte e 36 < 2))

/-- The fields of an admin command are valid: flags, reserved and command-specific bytes (R333, Tables 13-9 and 16-3). -/
def adminFieldsOk (e : EntryIn) : Bool :=
  decide (e.flags.toNat < 4) && e.reserved == 0 &&
    (match e.opcode.toNat with
      | 0x80 => specZero e [(36, 10)]
      | 0x81 => specZero e [(36, 6), (44, 5)] && decide (specByte e 48 < 2)
      | 0x82 => specZero e [(36, 4)]
      | 0x83 => specZero e [(36, 4)]
      | 0x84 => specZero e [(36, 1)] && (specByte e 36 == 1 || specByte e 36 == 2 || specByte e 36 == 0xF)
      | 0x85 => specZero e []
      | 0x86 => (match specByte e 36 with
          | 1 => specZero e [(36, 1), (40, 6), (48, 12)]
          | 2 => specZero e [(36, 1), (40, 4)]
          | 3 => specZero e [(36, 1), (40, 4)]
          | _ => false)
      | 0x87 => (match specByte e 36 with
          | 1 => specZero e [(36, 2), (40, 6)] && decide (specByte e 37 < 2)
          | 2 => specZero e [(36, 1), (40, 4)]
          | 3 => specZero e [(36, 1), (40, 4)]
          | _ => false)
      | 0x88 => specZero e [(36, 1), (40, 4)] && decide (specByte e 36 < 3)
      | _ => false)

/-- An admin opcode of Table 13-9 that the function may use. -/
def adminOpOk (f : FuncId) (op : Nat) : Bool :=
  (0x80 ≤ op && decide (op ≤ 0x83)) || op == 0x85 || (f.val == 0 && (op == 0x84 || op == 0x86 || op == 0x87 || op == 0x88))

/-- A command names a namespace that its function must own: READ, WRITE and a FENCE of one namespace (R422; DEDUCED, log entry 42). -/
def namesNs (e : EntryIn) : Bool := e.opcode == 1 || e.opcode == 2 || (e.opcode == 4 && specByte e 36 == 1)

/-- The status with which a fetched command fails at once, 0 where it goes on. -/
def State.entryStatus (s : State) (f : FuncId) (q : Nat) (e : EntryIn) : Nat :=
  if q = 0 then
    if !adminOpOk f e.opcode.toNat then stat 0 1
    else if !adminFieldsOk e then stat 0 2
    else 0
  else if e.opcode.toNat = 0 ∨ 4 < e.opcode.toNat then stat 0 1
  else if !ioFieldsOk e then stat 0 2
  else if namesNs e then
    (match s.nss.find? (fun n => n.nsid == e.nsid && n.owner == f.val) with
      | none => stat 1 1
      | some n =>
        if (e.opcode = 1 ∨ e.opcode = 2) ∧ n.limit < e.slba.toNat + e.nlbM1.toNat + 1 then stat 1 2 else 0)
  else 0

/-! ### What a fetched command waits for -/

/-- A FENCE holds a command of its scope (R344). -/
def Cmd.holds (x c : Cmd) : Bool :=
  x.isFence && x.stage != .ended && x.f == c.f && x.posts
    && (specByte x.e 36 == 0 || (!c.admin && c.e.nsid == x.e.nsid))

/-- A command is in the scope of a FENCE (R344). -/
def Cmd.inScope (x c : Cmd) : Bool := x.f == c.f && c.posts && (specByte x.e 36 == 0 || (!c.admin && c.e.nsid == x.e.nsid))

/-- The pending FENCEs and the detached writes that hold a command (R321, R344). -/
def State.heldBy (s : State) (c : Cmd) : List Nat :=
  (s.cmds.filter (fun x => x.holds c || (x.detached && (c.isRead || c.isWrite) && x.overlaps c))).map (·.id)

/-- The earlier commands that a FLUSH or a FENCE waits for (R344, R345). -/
def State.waitsFor (s : State) (c : Cmd) : List Nat :=
  if c.e.opcode = 3 then (s.cmds.filter (fun x => x.f == c.f && x.isWrite && x.posts)).map (·.id)
  else if c.e.opcode = 4 then (s.cmds.filter (fun x => c.inScope x && x.stage != .ended)).map (·.id)
  else []

/-- The blocks of a READ, resolved at its fetch (R342). -/
def State.readBlocks (s : State) (id : Nat) (e : EntryIn) : List RBlock :=
  (List.range (e.nlbM1.toNat + 1)).map (fun i =>
    let b := e.slba.toNat + i
    let src := s.sourceOf id e.nsid b
    ⟨src, s.mapPlace e.nsid b, none, none, src.tag, none, false, false, none, 0⟩)

/-- The MIRROR entry in force for a namespace: the lowest that names it (R436, Table 17-6). -/
def State.mirrorFor (s : State) (ns : BitVec 32) : Option (Fin 64) :=
  (List.finRange 64).find? (fun m => s.act (.cmirror m) CMIRROR.enable == 1 && s.act (.cmirror m) CMIRROR.ns_id == ns.toNat)

/-- The mirror messages of a write, one for each part, numbered in fetch order (R436). -/
def State.addMessages (s : State) (id : Nat) (m : Fin 64) (parts : Nat) : State :=
  let peer := s.act (.cmirror m) CMIRROR.peer_id
  let base := s.act (.cmirror m) CMIRROR.chain_base_lo + 2 ^ 32 * s.act (.cmirror m) CMIRROR.chain_base_hi
  let slots := s.act (.cmirror m) CMIRROR.slots
  s.modChain (fun x => { x with
    msgs := x.msgs ++ (List.range parts).map (fun i => MirrorMsg.mk (x.nextMsg + i) m.val peer base slots none id i none false)
    nextMsg := x.nextMsg + parts })

/-! ### The fetch -/

/-- The command of a fetched entry. -/
def newCmd (id : Nat) (x : Sq) (head : Nat) (e : EntryIn) : Cmd :=
  { id := id, req := x.f.val, f := x.f, sq := x.q, sqHead := head, admin := x.q == 0, e := e, stage := .held, noPost := false, status := 0
    result := 0, firstFail := 0xFFFFFFFF, logged := false, endTime := 0, endNo := 0, fence := [], parts := [], charge := 0, charged := false
    bufs := [], blocks := [], units := [], keyTag := 0, detached := false, placed := false, extentsLeft := 0, discs := [], mirrorLeft := 0
    mirrorStatus := 0, waitFor := [], anchors := [], chain := none }

/-- The parts of a READ or WRITE, each with its pool; `none` where a part has none (R360). -/
def State.poolsOf (s : State) (c : Cmd) : Option (List (Fin 16)) :=
  if c.isRead || c.isWrite then s.partPools c.kind (partSizes (4096 * c.count)) else some []

/-- A command that the pools can never serve ends at once with 0x00/0x04 (R361). -/
def State.allocFail (s : State) (id : Nat) : State :=
  ((s.flag .bufpool BUFPOOL.alloc_fail).logEv (srcBlock 6) .allocFail [id]).finish id (stat 0 4) 0 0xFFFFFFFF true

/-- A command that passes its checks: what it waits for, its blocks or units, its messages, and its allocation (R341–R345, R360, R436). -/
def State.acceptCmd (s : State) (c : Cmd) : State :=
  let pools := s.poolsOf c
  let c1 := { c with
    fence := s.heldBy c
    waitFor := s.waitsFor c
    blocks := if c.isRead then s.readBlocks c.id c.e else []
    units := if c.isWrite then List.replicate c.count .todo else [] }
  if (c.isRead || c.isWrite) && s.allocFails c.req pools then State.allocFail { s with cmds := s.cmds ++ [c1] } c.id
  else
    let parts := pools.getD []
    let mir := if c.isWrite then s.mirrorFor c.e.nsid else none
    let c2 := { c1 with
      parts := parts, charge := s.chargeOf parts
      mirrorLeft := match mir with
        | some _ => (writeParts c.count).length
        | none => 0 }
    let s1 := match mir with
      | some m => State.addMessages { s with cmds := s.cmds ++ [c2] } c.id m (writeParts c.count).length
      | none => { s with cmds := s.cmds ++ [c2] }
    s1.beginAlloc c.id

/-- A running self-test suspends at the fetch of an I/O command (R352). -/
def State.suspendTest (s : State) : State :=
  match s.selfTest with
  | none => s
  | some t =>
    if t.suspended then s
    else { s with selfTest := some { t with suspended := true, ran := t.ran + (s.time.localNs - t.began), began := s.time.localNs } }

/-- An entry is fetched from an SQ: the head, the slot, the command (R327, R339, R340). -/
def State.fetch (s : State) (p : Pick) (e : EntryIn) : State :=
  let x := p.sq
  let head := if x.head + 1 = x.size then 0 else x.head + 1
  let s1 := (s.emit (.hostRead x.f (BitVec.ofNat 64 (x.base + 64 * x.head)) 64)).served p
  let s2 := (s1.modSq x.f x.q (fun y => { y with head := head, nextWrite := false })).sqSlot { x with head := head } false
  let id := s2.nextCmd
  let c := newCmd id x head e
  let s3 := { s2 with nextCmd := id + 1 }
  let s4 := if x.q = 0 then s3 else s3.suspendTest
  match s4.entryStatus x.f x.q e with
  | 0 => s4.acceptCmd c
  | st => State.finish { s4 with cmds := s4.cmds ++ [c] } id st 0 0xFFFFFFFF false

/-- COMMAND_FETCH (R339): the entry of the SQ whose turn it is. A WRITE that meets the overlap table full is not fetched, and its SQ is skipped
until the table has room (R343). -/
def execCommandFetch (e : EntryIn) (s : State) : Host.Outcome State Fault Refusal :=
  if s.arb.paused || !s.host.active then .next s
  else match s.pick with
    | none => .next s
    | some p =>
      let x := p.sq
      if x.q ≠ 0 ∧ e.opcode = 2 ∧ 65536 ≤ s.overlapUsed then
        .next ((s.modSq x.f x.q (fun y => { y with nextWrite := true })).flag .queue QUEUE.overlap_full)
      else .next (s.fetch p e)

end Sys2Proof.Machine
end

