-- ==== Sys2Proof/Machine/IoCmds.lean ====
section
/-! DEFINITION. The I/O commands and the posting of completions (R27, R29, R335–R337, R341–R345): READ, WRITE, FLUSH, FENCE, CQ_COMPLETION
and CQ_AGG_TIMER. -/

namespace Sys2Proof.Machine

/-! ### Host data (R334) -/

/-- The segments of host memory that a command's data occupy. -/
def segments (e : EntryIn) : List (Nat × Nat) :=
  if e.flags.getLsbD 0 then e.descriptors.map (fun d => (d.1.toNat, d.2.toNat))
  else [(e.dataAddr.toNat, (e.nlbM1.toNat + 1) * 4096)]

/-- Bytes laid over segments from the first on. -/
def scatter : List (Nat × Nat) → List Byte → List (Nat × List Byte)
  | [], _ => []
  | (a, n) :: r, l => if l.isEmpty then [] else (a, l.take n) :: scatter r (l.drop n)

/-- The module writes a command's data to host memory. -/
def State.dmaOut (s : State) (c : Cmd) (l : List Byte) : State :=
  (scatter (segments c.e) l).foldl (fun t p => t.emit (.hostWrite c.f (BitVec.ofNat 64 p.1) p.2)) s

/-- The module reads a command's data from host memory. -/
def State.dmaIn (s : State) (c : Cmd) : State :=
  (segments c.e).foldl (fun t p => t.emit (.hostRead c.f (BitVec.ofNat 64 p.1) p.2)) s

/-! ### READ (R27, R290, R342) -/

/-- The two codewords of a block: they carry its halves (R52). -/
def newCodeword (id : Nat) (g : HeadId) (d : BitVec 128) (sl : BitVec 5) (cluster index blk seq cmd block half : Nat) : Codeword :=
  { id := id, head := g, disc := d, sl := sl, cluster := cluster, c := 2 * blk + half, extent := seq, index := index, cmd := some cmd
    block := block, half := half, phase := .collecting, step := 0, at_ := 0, aged := false, set := none, rereads := 0, trials := 0, point := 0
    stop := false, info := [] }

/-- The codewords of a block are wanted. -/
def State.wantBlock (s : State) (cmd i : Nat) (b : BayId) (d : BitVec 128) (sl : BitVec 5) (cluster index blk seq : Nat) : State :=
  let g := sideHead b (slSide sl)
  { s with
    codewords := s.codewords ++ [newCodeword s.nextCw g d sl cluster index blk seq cmd i 0, newCodeword (s.nextCw + 1) g d sl cluster index blk seq cmd i 1]
    nextCw := s.nextCw + 2 }

/-- A block of a command changes. -/
def State.modBlock (s : State) (cmd i : Nat) (f : RBlock → RBlock) : State :=
  s.modCmd cmd (fun c => { c with blocks := c.blocks.mapIdx (fun j x => if j = i then f x else x) })

/-- A block of a READ goes on: from its write's buffer once those data are in DRAM, from the disc, or from nothing written (R342). A block
on a disc in no bay fails (Table 13-7), and one on a disc that is mounting waits (R350). -/
def State.readBlock (s : State) (c : Cmd) (i : Nat) (x : RBlock) : State :=
  if x.data.isSome || x.failed != 0 || x.lo.isSome || x.asked then s
  else match x.src with
    | .none => s.modBlock c.id i (fun y => { y with data := some (Config.unwritten c.e.nsid (c.first + i)) })
    | .buffer w =>
      (match s.cmd? w with
        | none => s
        | some v =>
          let u := v.units[c.first + i - v.first]?
          if u = some .done ∨ u = some .gone then
            s.modBlock c.id i (fun y => y.take v.keyTag (s.blockData v (c.first + i - v.first)))
          else s)
    | .disc d sl cluster index blk seq _ =>
      match s.discBay d with
      | none => s.modBlock c.id i (fun y => { y with failed := stat 1 4 })
      | some b =>
        if (s.mounts[b.val]).st = .mounted ∨ (s.mounts[b.val]).st = .readOnly then
          (s.wantBlock c.id i b d sl cluster index blk seq).modBlock c.id i (fun y => { y with asked := true })
        else s

/-- A READ of which every block has its data or has failed ends: the data before the first failed block go to the host, and its status is
that block's (R27, R338). -/
def State.readCheck (s : State) (id : Nat) : State :=
  match s.cmd? id with
  | none => s
  | some c =>
    if c.stage = .running ∧ c.isRead = true ∧ c.blocks.all (fun x => x.data.isSome || x.failed != 0) = true then
      let good := c.blocks.takeWhile (fun x => x.failed == 0)
      let bytes := good.flatMap (fun x => x.data.getD [])
      let st := match c.blocks[good.length]? with
        | some x => x.failed
        | none => 0
      (((s.dmaOut c bytes).dropCodewords id).finish id st good.length
        (if st = 0 then 0xFFFFFFFF else good.length) (st / 256 == 2))
    else s

/-- READ (R27, R342): every block that can goes on, and the command ends when none is left. -/
def execRead (cmd : BitVec 64) (s : State) : Host.Outcome State Fault Refusal :=
  match s.cmd? cmd.toNat with
  | none => .next s
  | some c =>
    if c.isRead ∧ c.stage = .running then
      let s1 := (c.blocks.mapIdx (fun i x => (i, x))).foldl (fun t p => t.readBlock c p.1 p.2) s
      .next (s1.readCheck c.id)
    else .next s

/-! ### WRITE (R29, R250, R267, R343) -/

/-- A write that fails before its data are all in DRAM: nothing is recorded (R421). -/
def State.failWrite (s : State) (id status block : Nat) (logged : Bool) : State :=
  let s1 := s.dropMessages id
  (State.finish { s1 with cipher := { s1.cipher with queue := s1.cipher.queue.filter (fun r => r.cmd != id) } } id status 0 block logged).placeReady

/-- WRITE (R29, R250): the host data are read, or an access fails and the command ends with 0x00/0x03 (the first failed block is then a free
value); a write whose data are all in DRAM is placed in extents. -/
def execWrite (cmd : BitVec 64) (dataOk : Bool) (s : State) : Host.Outcome State Fault Refusal :=
  match s.cmd? cmd.toNat with
  | none => .next s
  | some c =>
    if !c.isWrite then .next s
    else if c.stage = .running then
      if dataOk then (if c.units.all (fun u => u == .todo) then .next (s.dmaIn c) else .next s)
      else
        let d := s.draw
        .next (d.2.failWrite c.id (stat 0 3) (d.1 % c.count) false)
    else if c.stage = .dataIn then .next s.placeReady
    else .next s

/-! ### FLUSH and FENCE (R344, R345) -/

/-- Every standing extent of a namespace lies on read-only discs (R345). -/
def State.onReadOnly (s : State) (ns : BitVec 32) : Bool :=
  let mine := s.map.filter (fun r => r.nsid == ns)
  !mine.isEmpty && mine.all (fun r => match s.discBay r.disc with
    | some b => (s.mounts[b.val]).st == .readOnly
    | none => false)

/-- The discs mounted for writing that have been written since their last generation (Table 13-5). -/
def State.discsSinceAnchor (s : State) : List (BitVec 128) :=
  s.writableBays.filterMap (fun b => if (s.mounts[b.val]).sinceAnchor ≠ 0 then s.bays[b.val].disc else none)

/-- FLUSH (R345): it ends once the writes before it have completed and, where its flag asks, each disc has its generation. -/
def execFlush (cmd : BitVec 64) (s : State) : Host.Outcome State Fault Refusal :=
  match s.cmd? cmd.toNat with
  | none => .next s
  | some c =>
    if c.admin ∨ c.e.opcode ≠ 3 ∨ c.stage ≠ .running then .next s
    else if s.onReadOnly c.e.nsid then .next (s.finish c.id 0 0 0xFFFFFFFF false)
    else if c.waitFor ≠ [] ∨ c.anchors ≠ [] then .next s
    else
      let ds := if specByte c.e 36 = 1 then s.discsSinceAnchor else []
      if ds = [] then .next (s.finish c.id 0 0 0xFFFFFFFF false)
      else .next (s.modCmd c.id (fun x => { x with anchors := ds }))

/-- FENCE (R344): it ends once every earlier command of its scope has ended, and the commands after it start. -/
def execFence (cmd : BitVec 64) (s : State) : Host.Outcome State Fault Refusal :=
  match s.cmd? cmd.toNat with
  | none => .next s
  | some c =>
    if c.isFence ∧ c.stage = .running ∧ c.waitFor = [] then .next (s.finish c.id 0 0 0xFFFFFFFF false)
    else .next s

/-! ### Completion (R335–R337) -/

/-- A command is the earliest ended one of its CQ that is not yet written or held (R336). -/
def State.nextToPost (s : State) (c : Cmd) : Bool :=
  !s.cmds.any (fun x => x.f == c.f && x.posts && x.stage == .ended && decide (x.endNo < c.endNo) && s.cmdCq x == s.cmdCq c
    && !s.cqs.any (fun q => q.held.any (fun e => e.cmd == some x.id)))

/-- CQ_COMPLETION (R335, R336): the entry of an ended command is written to its CQ, or held while that is full; the entries of one CQ in the
order in which their commands ended. -/
def execCqCompletion (cmd : BitVec 64) (s : State) : Host.Outcome State Fault Refusal :=
  match s.cmd? cmd.toNat with
  | none => .next s
  | some c =>
    if c.stage ≠ .ended ∨ c.posts = false ∨ s.nextToPost c = false ∨ s.cqs.any (fun q => q.held.any (fun e => e.cmd == some c.id)) = true then .next s
    else match s.cmdCq c with
      | none => .next s
      | some q => .next (s.postEntry c.f q c.entry)

/-- CQ_AGG_TIMER (R337): agg_time after the first entry not yet signalled, the CQ fires its vector. -/
def execCqAggTimer (f : FuncId) (q : BitVec 18) (s : State) : Host.Outcome State Fault Refusal :=
  match s.cq? f q.toNat with
  | none => .next s
  | some x => if x.unsig ≠ 0 ∧ x.aggTime ≠ 0 then .next (s.signal x) else .next s

end Sys2Proof.Machine
end

