-- ==== Sys2Proof/Machine/AdminCmds.lean ====
section
/-! DEFINITION. The admin commands for queues, self-test and metering (R349–R352, R490): CREATE_CQ to GET_METERING. -/

namespace Sys2Proof.Machine

/-- An admin command that has been fetched and has not ended, by its opcode. -/
def State.adminCmd? (s : State) (cmd : BitVec 64) (op : Byte) : Option Cmd :=
  match s.cmd? cmd.toNat with
  | some c => if c.admin ∧ c.stage = .running ∧ c.e.opcode = op then some c else none
  | none => none

/-- An admin command ends with a result. -/
def State.adminOk (s : State) (c : Cmd) (result : Nat) : State := s.finish c.id 0 result 0xFFFFFFFF false

/-! ### Queues (R349, R350) -/

/-- A ring of n entries has a size that R326 allows. -/
def ringSizeOk (n : Nat) : Bool := decide (2 ≤ n) && decide (n ≤ 65536)

/-- The status of a CREATE_CQ, in the order of the list under Table 13-9; 0 where it is created. -/
def State.createCqStatus (s : State) (c : Cmd) : Nat :=
  let q := specLe c.e 36 4
  if q = 0 ∨ s.queueCount c.f ≤ q then stat 3 1
  else if !ringSizeOk (specLe c.e 40 2 + 1) then stat 3 2
  else if c.e.dataAddr.toNat % 4096 ≠ 0 then stat 0 2
  else if (s.cq? c.f q).isSome then stat 3 3
  else if vectorCount c.f ≤ specLe c.e 42 2 then stat 3 4
  else 0

/-- CREATE_CQ (R350): the queue and its doorbell line; agg_count 0 acts as 1. -/
def execCreateCq (cmd : BitVec 64) (s : State) : Host.Outcome State Fault Refusal :=
  match s.adminCmd? cmd 0x80 with
  | none => .next s
  | some c =>
    match s.createCqStatus c with
    | 0 =>
      let q := specLe c.e 36 4
      let x : Cq := { f := c.f, q := q, base := c.e.dataAddr.toNat, size := specLe c.e 40 2 + 1, vector := specLe c.e 42 2
                      aggCount := specByte c.e 44, aggTime := specByte c.e 45, head := 0, tail := 0, phase := true, seq := 0, error := false
                      held := [], unsig := 0 }
      .next ((State.addLine { s with cqs := s.cqs ++ [x] } c.f false (lineOf q)).adminOk c 0)
    | st => .next (s.finish c.id st 0 0xFFFFFFFF false)

/-- The status of a CREATE_SQ. -/
def State.createSqStatus (s : State) (c : Cmd) : Nat :=
  let q := specLe c.e 36 4
  if q = 0 ∨ s.queueCount c.f ≤ q ∨ s.cq? c.f (specLe c.e 44 4) = none then stat 3 1
  else if !ringSizeOk (specLe c.e 40 2 + 1) then stat 3 2
  else if c.e.dataAddr.toNat % 4096 ≠ 0 then stat 0 2
  else if (s.sq? c.f q).isSome then stat 3 3
  else 0

/-- CREATE_SQ (R350). -/
def execCreateSq (cmd : BitVec 64) (s : State) : Host.Outcome State Fault Refusal :=
  match s.adminCmd? cmd 0x81 with
  | none => .next s
  | some c =>
    match s.createSqStatus c with
    | 0 =>
      let q := specLe c.e 36 4
      let x : Sq := { f := c.f, q := q, base := c.e.dataAddr.toNat, size := specLe c.e 40 2 + 1, cq := specLe c.e 44 4
                      urgent := specByte c.e 48 == 1, head := 0, tail := 0, seq := 0, error := false, deleting := none, nextWrite := false }
      .next ((State.addLine { s with sqs := s.sqs ++ [x] } c.f true (lineOf q)).adminOk c 0)
    | st => .next (s.finish c.id st 0 0xFFFFFFFF false)

/-- An SQ is deleted, its line with it where no other queue needs it. -/
def State.removeSq (s : State) (f : FuncId) (q : Nat) : State :=
  State.dropLine { s with sqs := s.sqs.filter (fun x => !(x.f == f && x.q == q)) } f true (lineOf q)

/-- Commands fetched from an SQ that are neither posted nor dropped, and its doorbell error that a CQ holds (R349, Table 13-10). -/
def State.sqOwes (s : State) (f : FuncId) (q : Nat) : Bool :=
  s.cmds.any (fun c => c.f == f && c.posts && c.sq == q) || s.cqs.any (fun x => x.f == f && x.held.any (fun e => e.cmd.isNone && e.sq == q))

/-- DELETE_SQ (R349, Tables 13-8 and 13-10): fetching from the SQ stops, its pending FENCEs and the commands that wait under one are dropped, and
it is deleted once everything fetched from it has been posted or dropped. -/
def execDeleteSq (cmd : BitVec 64) (s : State) : Host.Outcome State Fault Refusal :=
  match s.adminCmd? cmd 0x82 with
  | none => .next s
  | some c =>
    let q := specLe c.e 36 4
    match s.sq? c.f q with
    | none => .next (s.finish c.id (stat 3 1) 0 0xFFFFFFFF false)
    | some _ =>
      if q = 0 then .next (s.finish c.id (stat 3 1) 0 0xFFFFFFFF false)
      else
        let mine (x : Cmd) : Bool := x.f == c.f && x.sq == q && x.posts
        let s1 := (s.modSq c.f q (fun x => { x with deleting := some c.id })).dropFenced mine
        let s2 := ((s1.cmds.filter (fun x => mine x && x.isFence && x.stage != .ended)).map (·.id)).foldl State.abandon s1
        if s2.sqOwes c.f q then .next s2 else .next ((s2.removeSq c.f q).adminOk c 0)

/-- DELETE_CQ (R349): refused while an SQ uses it. -/
def execDeleteCq (cmd : BitVec 64) (s : State) : Host.Outcome State Fault Refusal :=
  match s.adminCmd? cmd 0x83 with
  | none => .next s
  | some c =>
    let q := specLe c.e 36 4
    if q = 0 ∨ s.cq? c.f q = none then .next (s.finish c.id (stat 3 1) 0 0xFFFFFFFF false)
    else if s.sqs.any (fun x => x.f == c.f && x.cq == q) then .next (s.finish c.id (stat 3 3) 0 0xFFFFFFFF false)
    else
      let s1 := State.dropLine { s with cqs := s.cqs.filter (fun x => !(x.f == c.f && x.q == q)) } c.f false (lineOf q)
      .next (s1.adminOk c 0)

/-! ### Self-test (R351, R352) -/

/-- An I/O command of any function is outstanding. -/
def State.ioOutstanding (s : State) : Bool := s.cmds.any (fun c => c.posts && !c.admin)

/-- Test time so far in ms; suspended time does not count (R352). -/
def State.testMs (s : State) (t : SelfTest) : Nat :=
  (if t.suspended then t.ran else t.ran + (s.time.localNs - t.began)) / 1000000

/-- A self-test starts, suspended where I/O commands are outstanding (R351, R352, Table 13-10); one runs at a time. -/
def State.startTest (s : State) (cmd : BitVec 64) (code : Nat) (extended : Bool) : State :=
  match s.adminCmd? cmd 0x84 with
  | none => s
  | some c =>
    if specByte c.e 36 ≠ code ∨ s.selfTest.any (fun t => t.cmd == c.id) then s
    else match s.selfTest with
      | some _ => s.finish c.id (stat 3 6) 0 0xFFFFFFFF false
      | none => { s with selfTest := some ⟨c.id, extended, s.ioOutstanding, s.time.localNs, 0⟩ }

/-- The self-test ends with an outcome and a failing area, and its command with the result of R352. -/
def State.endTest (s : State) (outcome area : Nat) : State :=
  match s.selfTest with
  | none => s
  | some t =>
    let s1 := State.logEv { s with selfTest := none } (srcBlock 16) .selfTest [outcome, area]
    s1.finish t.cmd 0 (outcome + 256 * area + 2 ^ 32 * s.testMs t) 0xFFFFFFFF true

/-- SELF_TEST_SHORT (R351). -/
def execSelfTestShort (cmd : BitVec 64) (s : State) : Host.Outcome State Fault Refusal := .next (s.startTest cmd 1 false)

/-- SELF_TEST_EXTENDED (R351). -/
def execSelfTestExtended (cmd : BitVec 64) (s : State) : Host.Outcome State Fault Refusal := .next (s.startTest cmd 2 true)

/-- SELF_TEST_ABORT (R352): a running test ends with outcome 2. -/
def execSelfTestAbort (cmd : BitVec 64) (s : State) : Host.Outcome State Fault Refusal :=
  match s.adminCmd? cmd 0x84 with
  | none => .next s
  | some c => if specByte c.e 36 = 0xF then .next ((s.endTest 2 0).adminOk c 0) else .next s

/-- SELF_TEST_RESUME (R352): a suspended test goes on once no I/O command is outstanding. -/
def execSelfTestResume (s : State) : Host.Outcome State Fault Refusal :=
  match s.selfTest with
  | none => .next s
  | some t =>
    if t.suspended ∧ s.ioOutstanding = false then
      .next { s with selfTest := some { t with suspended := false, began := s.time.localNs } }
    else .next s

/-- SELF_TEST_MAX_SUSP (R352): a test suspended for more than max_susp ends with outcome 2. -/
def execSelfTestMaxSusp (s : State) : Host.Outcome State Fault Refusal :=
  if s.selfTest.any (fun t => t.suspended) then .next (s.endTest 2 0) else .next s

/-- SELF_TEST_DONE (R352): outcome 0, or 1 with the failing area. -/
def execSelfTestDone (fail : Option (Fin 7)) (s : State) : Host.Outcome State Fault Refusal :=
  if s.selfTest.any (fun t => !t.suspended) then
    match fail with
    | none => .next (s.endTest 0 0)
    | some a => .next (s.endTest 1 (a.val + 1))
  else .next s

/-! ### Metering (R489, R490) -/

/-- The counter block of a function (Table 20-10). -/
def State.meterBlock (s : State) (f : Nat) : List Byte :=
  (Tab.get (Vector.replicate 5 0) s.meter.counters f).toList.flatMap (leBytes 8)

/-- A read of a function's counters clears its restored flag (R490). -/
def State.meterTaken (s : State) (f : Nat) : State := { s with meter := { s.meter with restored := s.meter.restored.filter (· != f) } }

/-- GET_METERING (R490): the 4 KiB buffer with the counters of the issuing function. -/
def execGetMetering (cmd : BitVec 64) (s : State) : Host.Outcome State Fault Refusal :=
  match s.adminCmd? cmd 0x85 with
  | none => .next s
  | some c =>
    let s1 := s.accrueMounted
    let head : List Byte := [0x45, 0x42, 0x4D, 0x54] ++ leBytes 2 c.f.val ++ leBytes 2 (b2n (s1.meter.restored.contains c.f.val))
      ++ leBytes 8 s1.now.toNat ++ s1.meterBlock c.f.val
    let s2 := s1.emit (.hostWrite c.f c.e.dataAddr (head ++ List.replicate (4096 - head.length) 0))
    .next ((s2.meterTaken c.f.val).adminOk c 0)

end Sys2Proof.Machine
end

