-- ==== Sys2Proof/Machine/CalibStore.lean ====
section
/-! DEFINITION. The calibration store's commits (R461) and the end of a trial before its time (R472). -/

namespace Sys2Proof.Machine

/-- The range of a trim in its steps (Table 19-1), by HEAD_SETS code and index. -/
def trimRange (code index : Nat) : Int × Int :=
  match code with
  | 1 | 3 => (-1024, 1024)
  | 2 => (0, 32767)
  | 4 => (300, 2000)
  | 5 => (5000, 35000)
  | 6 => (0, 63)
  | 7 | 8 => (-16, 15)
  | 9 => (0, 127)
  | 10 => (-60, 120)
  | 11 => (-256, 256)
  | 12 => (-200, 200)
  | 13 => if index = 0 then (96, 255) else (16, 128)
  | 14 => (-256, 256)
  | _ => if index % 32 = 0 then (0x800, 0x2000) else if index % 32 ≤ 2 then (-8192, 8192) else (-16384, 16384)

/-- The parts of a trim key. -/
def keyCode (k : Nat) : Nat := k / 65536 / 65536
def keyInst (k : Nat) : Nat := k / 65536 % 65536
def keyIndex (k : Nat) : Nat := k % 65536

/-- The head that a trim belongs to (Table 20-3): its instance is the head, or a beam or emitter 4 g + k. -/
def keyHead (k : Nat) : Nat :=
  if [4, 5, 9, 11, 12, 14, 15].contains (keyCode k) then keyInst k % 32768 / 4 else keyInst k

/-- A value is committed to the calibration store, clamped to its range (R461). While a sweep stands on the head, a trim that it moves joins
the base set (Table 19-5). -/
def State.commitTrim (s : State) (key : Nat) (v : Int) : State :=
  let r := trimRange (keyCode key) (keyIndex key)
  let w := clampI v r.1 r.2
  let s1 := if w = v then s else (s.flag .calib CALIB.trim_limit).logEv (srcBlock 15) .trimLimit [key, keyHead key]
  match Tab.get? s1.sweeps (keyHead key) with
  | some x =>
    if (Tab.get? x.base key).isSome then { s1 with sweeps := Tab.put s1.sweeps (keyHead key) { x with base := Tab.put x.base key w } }
    else { s1 with trims := Tab.put s1.trims key w }
  | none => { s1 with trims := Tab.put s1.trims key w }

/-- A trial on the head is abandoned: the value before it is committed again (Table 19-5). -/
def State.abandonTrial (s : State) (g : HeadId) : State :=
  match Tab.get? s.calib.trials g.val with
  | none => s
  | some t => State.commitTrim { s with calib := { s.calib with trials := Tab.erase s.calib.trials g.val } } t.key t.base

end Sys2Proof.Machine
end

