-- ==== Sys2Proof/Machine/BayOps.lean ====
section
/-! DEFINITION. What the blocks of a bay share: mailbox reports, losing and regaining a head, session speeds, trims in force and
the conditions under which a bay starts (chapters 01, 05, 07, 19). -/

namespace Sys2Proof.Machine

/-! ### Reports and loss (R17–R20, R24) -/

/-- The bay sequencer generates a report (R18). -/
def State.report (s : State) (b : BayId) (r : Report) : State :=
  s.modBay b (fun x => { x with reports := x.reports ++ [r] })

/-- A request whose READY was generated. -/
def MailReq.opened (r : MailReq) : Bool :=
  match r.stage with
  | .ready _ => true
  | .running _ => true
  | _ => false

/-- A write window's request. -/
def MailReq.isWrite (r : MailReq) : Bool :=
  match r.kind with
  | .writeWindow .. => true
  | _ => false

def MailReq.isRead (r : MailReq) : Bool :=
  match r.kind with
  | .readWindow .. => true
  | _ => false

def MailReq.isPosition (r : MailReq) : Bool :=
  match r.kind with
  | .position .. => true
  | _ => false

/-- Whether a window of head g is open. -/
def State.windowOpen (s : State) (g : HeadId) : Bool :=
  s.bays[(bayOf g).val].requests.any (fun r => r.head == g && r.opened)

/-- Whether a write window of head g is open. -/
def State.writeWindowOpen (s : State) (g : HeadId) : Bool :=
  s.bays[(bayOf g).val].requests.any (fun r => r.head == g && r.opened && r.isWrite)

/-- A READY report of head g that a LOST withdraws (Table 01-4). -/
def Report.readyOf (g : HeadId) : Report → Bool
  | .ready _ h _ => h == g
  | _ => false

/-- LOST for a head (R20): every open window of the head closes, with the unfinished clusters of a write window failed and the beams
idle; an undelivered READY is withdrawn, requests that had not opened are held, the report is generated, and a trial of the head ends
(Table 19-5). -/
def State.loseHead (s : State) (g : HeadId) (cause : Fin 9) : State :=
  let s0 := if s.windowOpen g then ((s.failWindow g).meterClose g).suspendBeams g else s.suspendBeams g
  let s1 := s0.modBay (bayOf g) (fun x => { x with
    requests := (x.requests.filter (fun r => !(r.head == g && r.opened))).map
      (fun r => if r.head = g then { r with stage := .held } else r)
    reports := x.reports.filter (fun r => !r.readyOf g) ++ [.lost g cause] })
  (s1.modHead g (fun h => { h with lost := true })).abandonTrial g

/-- The trim of a code, instance and index in a table; a trim that none supplies is 0 (R461, R476). -/
def trimKey (code inst index : Nat) : Nat := (code * 65536 + inst) * 65536 + index

/-- A trim as committed (R21). -/
def State.trimC (s : State) (code inst index : Nat) : Int := Tab.get 0 s.trims (trimKey code inst index)

/-- A trim as adopted by its user on head g (Table 01-3). -/
def State.trimA (s : State) (g : HeadId) (code inst index : Nat) : Int :=
  Tab.get 0 s.heads[g.val].adopted (trimKey code inst index)

/-- The head adopts the committed values of a trim code (Table 01-3). -/
def State.adoptTrims (s : State) (g : HeadId) (codes : List Nat) : State :=
  s.modHead g (fun h => { h with
    adopted := (s.trims.filter (fun e => codes.contains (e.1 / 65536 / 65536))).foldl
      (fun t e => Tab.put t e.1 e.2) h.adopted })

/-! ### Speeds (R37, R179, R469) -/

/-- Read speed step n: round(5400 × s[31 − n] / s[31]) (R469). -/
def stepRpm (n : Nat) : Nat := (2 * 5400 * zoneBits (31 - n) + 12421) / (2 * 12421)

/-- The read speed step asked of a bay: the more of the decoder steps and its own (R469, Table 19-5). -/
def State.speedWant (s : State) (b : BayId) : Nat :=
  min (min 8 (s.fld .calib CALIB.speed_step_max)) (max s.calib.decoderSteps (s.calib.limits[b.val]))

/-- The read speed of a bay (Table 10-1, R469). -/
def State.readRpm (s : State) (b : BayId) : Nat := stepRpm s.bays[b.val].speedStep

/-- The write speed. -/
def writeRpm : Nat := 2700

/-- The spindle is at a session speed: at_speed is 1 and the target is a session speed (R179). -/
def State.sessionSpeed (s : State) (b : BayId) : Bool :=
  let rpm := s.fld (.spindle b) SPINDLE.rpm
  s.bays[b.val].spindle.atSpeed && (rpm == writeRpm || rpm == s.readRpm b)

/-- The speed class of the runout tables: 0 at write speed, 1 at any read speed (R154). -/
def State.speedClass (s : State) (b : BayId) : Bool := s.fld (.spindle b) SPINDLE.rpm != writeRpm

/-! ### Bare groups (R102, R528, Table 21-3) -/

/-- The shadow-group tags (Table 21-4). -/
def tagEng (g : HeadId) (l : Nat) : Nat := 0x0100 + 7 * g.val + l
def tagFoc (g : HeadId) : Nat := 0x0200 + g.val
def tagTrk (g : HeadId) : Nat := 0x0300 + g.val
def tagSpindle (b : BayId) : Nat := 0x0400 + b.val
def tagAxis : AxisId → Nat
  | .sled g => 0x0500 + g.val
  | .sa g => 0x0520 + g.val
  | .transport n => 0x0540 + n.val
def tagChan (g : HeadId) : Nat := 0x0600 + g.val
def tagWr (g : HeadId) : Nat := 0x0700 + g.val
def tagVchan (g : HeadId) : Nat := 0x0720 + g.val

/-- The ENG block of a loop. -/
def engBlk (g : HeadId) (l : Fin 6) : Blk := .eng g ⟨l.val, by omega⟩

/-- STATUS.factory_set: the committed set is the Bare set or equals the factory set in every RW-S field (R102). -/
def State.factorySet (s : State) (g : HeadId) (l : Fin 6) : Bool :=
  !s.committedOnce (tagEng g l.val) ||
    (s.pendingSet (tagEng g l.val) && (blkShadow (engBlk g l)).all (fun p => s.act p.1 p.2 == p.2.bare)) ||
    (blkShadow (engBlk g l)).all (fun p => s.act p.1 p.2 == p.2.factory)

/-- A group of the bay holds a bare value, a loop holds its factory or Bare set, or a field that R191 or R216 names is 0. -/
def State.spindleBare (s : State) (b : BayId) : Bool :=
  [SPINDLE.pole_pairs, SPINDLE.rs, SPINDLE.ls, SPINDLE.flux, SPINDLE.inertia, SPINDLE.accel].any
      (fun f => s.fld (.spindle b) f == 0)
    || s.act (.spindle b) SPINDLE.cur_bw == 0 || s.act (.spindle b) SPINDLE.spd_bw == 0

/-- An axis group whose committed set holds 0 in a VMAX, AMAX, CURRENT or CHOP field (R216). -/
def State.axisBare (s : State) (a : AxisId) : Bool :=
  let k := axisKind a
  [AXIS.vmax k, AXIS.amax k, AXIS.run_current k, AXIS.hold_current k, AXIS.t_off, AXIS.t_blank, AXIS.fast_rise,
    AXIS.fast_fall, AXIS.hold_delay].any (fun f => s.act (axisBlk a) f == 0)

/-- A head's own groups that keep the bay sequencer from starting it (R102, R137, R163, R248, R278). -/
def State.headBare (s : State) (g : HeadId) : Bool :=
  !s.committedOnce (tagFoc g) || !s.committedOnce (tagTrk g) || !s.committedOnce (tagChan g)
    || !s.committedOnce (tagWr g) || !s.committedOnce (tagVchan g)
    || (List.finRange 6).any (s.factorySet g) || s.axisBare (.sled g) || s.axisBare (.sa g)

/-- SEQ.STATUS.bare_group (Table 21-3). -/
def State.bareGroup (s : State) (b : BayId) : Bool :=
  s.spindleBare b || s.headBare (headOf b 0) || s.headBare (headOf b 1)

/-! ### Engine commands (R101, R120) -/

/-- A sequencer commands an engine; it acts at the next sample boundary. -/
def State.cmdLoop (s : State) (g : HeadId) (l : Fin 6) (c : EngCmd) : State :=
  s.modLoop g l (fun x => { x with cmd := some c })

def lFocus : Fin 6 := 0
def lTrack : Fin 6 := 1
def lTilt : Fin 6 := 2
def lSkew : Fin 6 := 3
def lSa : Fin 6 := 4
def lSled : Fin 6 := 5

/-- The tilt engine's command outside RUN: its preset until it has first left it, HOLD after (R134). -/
def State.tiltWait (s : State) (g : HeadId) : State :=
  if s.heads[g.val].foc.tiltFree then s.cmdLoop g lTilt .hold
  else s.cmdLoop g lTilt (.override (BitVec.ofNat 18 (s.act (.foc g) FOC.tilt_preset)))

/-- The skew engine's command outside FOLLOW (R142). -/
def State.skewWait (s : State) (g : HeadId) : State :=
  if s.heads[g.val].trk.skewFree then s.cmdLoop g lSkew .hold
  else s.cmdLoop g lSkew (.override (BitVec.ofNat 18 (s.act (.trk g) TRK.skew_preset)))

/-- Tracking, skew, tilt and sled-follow go to HOLD, and the tracking sequencer leaves any state but OFF for HOLD
(R126, R130, Table 06-1). A seek's pricking completes (Table 06-3). -/
def State.holdTracking (s : State) (g : HeadId) : State :=
  let s1 := ((s.cmdLoop g lTrack .hold).cmdLoop g lSled .hold).tiltWait g
  (s1.skewWait g).modTrk g (fun t =>
    if t.st = .off then t else { t with st := .hold, lens := none, running := false, lockRun := 0 })

end Sys2Proof.Machine
end

