-- ==== Sys2Proof/Machine/TrimOps.lean ====
section
/-! DEFINITION. The calibration store (R462–R464): the value in force and the recompute for a head. -/

namespace Sys2Proof.Machine

/-- A head set at temperature T in 1/16 °C (R462). -/
def setAt (v : Vector Int 5) (temp : Int) : Int :=
  let t := clampI temp 240 880
  let i := min 3 ((t - 240) / 160).toNat
  let w := t - 240 - 160 * i
  roundHE ((160 - w) * v.toList.getD i 0 + w * v.toList.getD (i + 1) 0) 160

/-- The per-disc delta of a trim of the disc in the head's bay (R464). -/
def State.discDelta (s : State) (g : HeadId) (key : Nat) : Int :=
  if s.fld .calib CALIB.disc_trim_enable = 1 ∧ keyCode key ≤ 3 then
    match s.bays[(bayOf g).val].disc with
    | some d => ((s.discStore.find? (fun e => e.disc == d)).map (fun e => Tab.get 0 e.deltas (4 * keyIndex key + keyCode key))).getD 0
    | none => 0
  else 0

/-- The value in force of a trim that a head set supplies (R462). -/
def State.trimValue (s : State) (g : HeadId) (key : Nat) (v : Vector Int 5) : Int :=
  setAt v (s.heads[g.val]).temp + s.discDelta g key

/-- Every trim of a head is computed again and committed (R462). -/
def State.recomputeTrims (s : State) (g : HeadId) : State :=
  let s1 := (s.calib.sets.filter (fun e => keyHead e.1 == g.val)).foldl (fun t e => t.commitTrim e.1 (s.trimValue g e.1 e.2)) s
  { s1 with calib := { s1.calib with temps := Tab.put s1.calib.temps g.val (s.heads[g.val]).temp } }

end Sys2Proof.Machine
end

