-- ==== Sys2Proof/Machine/AxisOps.lean ====
section
/-! DEFINITION. Stepper axes: the microstep wave, pricking segments and their check, the planners, homing, faults and limits
(R192–R207, R212–R214). -/

namespace Sys2Proof.Machine

/-! ### The microstep wave (R194) -/

/-- T[k] = round(1023 sin(π k / 512)), k = 0 to 256. -/
def waveTable : List Nat :=
  [0, 6, 13, 19, 25, 31, 38, 44, 50, 56, 63, 69, 75, 82, 88, 94] ++
  [100, 107, 113, 119, 125, 131, 138, 144, 150, 156, 163, 169, 175, 181, 187, 193] ++
  [200, 206, 212, 218, 224, 230, 236, 242, 249, 255, 261, 267, 273, 279, 285, 291] ++
  [297, 303, 309, 315, 321, 327, 333, 339, 345, 351, 356, 362, 368, 374, 380, 386] ++
  [391, 397, 403, 409, 415, 420, 426, 432, 437, 443, 449, 454, 460, 466, 471, 477] ++
  [482, 488, 493, 499, 504, 510, 515, 521, 526, 531, 537, 542, 547, 553, 558, 563] ++
  [568, 574, 579, 584, 589, 594, 599, 604, 609, 614, 619, 624, 629, 634, 639, 644] ++
  [649, 654, 659, 663, 668, 673, 678, 682, 687, 692, 696, 701, 705, 710, 714, 719] ++
  [723, 728, 732, 737, 741, 745, 750, 754, 758, 762, 766, 771, 775, 779, 783, 787] ++
  [791, 795, 799, 803, 806, 810, 814, 818, 822, 825, 829, 833, 836, 840, 844, 847] ++
  [851, 854, 858, 861, 864, 868, 871, 874, 877, 881, 884, 887, 890, 893, 896, 899] ++
  [902, 905, 908, 911, 914, 917, 919, 922, 925, 927, 930, 933, 935, 938, 940, 943] ++
  [945, 948, 950, 952, 954, 957, 959, 961, 963, 965, 967, 969, 971, 973, 975, 977] ++
  [979, 981, 983, 984, 986, 988, 989, 991, 992, 994, 995, 997, 998, 999, 1001, 1002] ++
  [1003, 1005, 1006, 1007, 1008, 1009, 1010, 1011, 1012, 1013, 1014, 1015, 1015, 1016, 1017, 1017] ++
  [1018, 1019, 1019, 1020, 1020, 1021, 1021, 1021, 1022, 1022, 1022, 1023, 1023, 1023, 1023, 1023] ++
  [1023]

/-- sinw(e) (R194). -/
def sinw (e : Nat) : Int :=
  if e ≤ 256 then (waveTable.getD e 0 : Int)
  else if e ≤ 512 then (waveTable.getD (512 - e) 0 : Int)
  else if e ≤ 768 then -(waveTable.getD (e - 512) 0 : Int)
  else -(waveTable.getD (1024 - e) 0 : Int)

/-- cosw(e) (R194). -/
def cosw (e : Nat) : Int := sinw ((e + 256) % 1024)

/-- The electrical index of a position (R194). -/
def elecIndex (pos : Int) (invert : Bool) : Nat := ((if invert then -pos else pos) % 1024).toNat

/-- The class full scale, mA peak (Table 08-1). -/
def classFull (k : AxisKind) : Nat := k.pick 1700 425 3000

/-- The current in force, a value above the class full scale acting as the full scale (R194). -/
def State.axisCurrent (s : State) (a : AxisId) : Nat :=
  let k := axisKind a
  let b := axisBlk a
  let v := match (s.axis a).cur with
    | .run => s.act b (AXIS.run_current k)
    | .hold => s.act b (AXIS.hold_current k)
    | .home => s.act b (AXIS.home_current k)
  min v (classFull k)

/-- The two phase setpoints at the commanded position (R194). -/
def State.phaseSetpoints (s : State) (a : AxisId) : Int × Int :=
  let e := elecIndex (s.axis a).pos (s.fld (axisBlk a) AXIS.invert == 1)
  let i : Int := s.axisCurrent a
  (roundNear (i * cosw e) 1023, roundNear (i * sinw e) 1023)

/-- The axis sets its phase currents from its commanded position (R193). -/
def State.setPhases (s : State) (a : AxisId) : State :=
  let p := s.phaseSetpoints a
  s.modAxis a (fun x => { x with
    chop := vmod (vmod x.chop 0 (fun c => { c with setpoint := p.1 })) 1 (fun c => { c with setpoint := p.2 }) })

/-! ### Limits in base units -/

/-- The motion limits of an axis: microsteps/s, microsteps/s², microsteps/s³ and positions. -/
structure AxPar where
  vmax : Nat
  amax : Nat
  jmax : Nat
  lo : Int
  hi : Int
deriving DecidableEq, Repr

/-- The limits in force (Table 08-7). -/
def State.axPar (s : State) (a : AxisId) : AxPar :=
  let k := axisKind a
  let b := axisBlk a
  ⟨s.act b (AXIS.vmax k), 1000 * s.act b (AXIS.amax k), 100000 * s.act b (AXIS.jmax k),
    s.actS b (AXIS.pos_min k), s.actS b (AXIS.pos_max k)⟩

/-! ### Pricking segments (R200, R201) -/

/-- The position at t ns of a segment that starts at p0 with v0 (R200), rounded to a microstep. -/
def segPos (p0 v0 : Int) (g : Seg) (t : Nat) : Int :=
  let d : Int := 1000 * g.dur
  let x : Int := t
  let num := (2 * x ^ 3 - 3 * x ^ 2 * d + d ^ 3) * p0 * 1000000000
    + (x ^ 3 - 2 * x ^ 2 * d + x * d ^ 2) * d * v0
    + (-2 * x ^ 3 + 3 * x ^ 2 * d) * g.pos * 1000000000
    + (x ^ 3 - x ^ 2 * d) * d * g.vel
  roundNear num (max 1 (d ^ 3 * 1000000000))

/-- The velocity at t ns of a segment (R200). -/
def segVel (p0 v0 : Int) (g : Seg) (t : Nat) : Int :=
  let d : Int := 1000 * g.dur
  let x : Int := t
  let num := (6 * x ^ 2 - 6 * x * d) * (p0 - g.pos) * 1000000000
    + (3 * x ^ 2 - 4 * x * d + d ^ 2) * d * v0 + (3 * x ^ 2 - 2 * x * d) * d * g.vel
  roundNear num (max 1 (d ^ 3))

/-- Peak velocity within vmax and peak acceleration within amax (R201); acceleration is linear, so its peak is at an end. -/
def segOk (par : AxPar) (p0 v0 : Int) (g : Seg) : Bool :=
  let t : Int := g.dur
  let d := g.pos - p0
  let am : Int := par.amax
  let vm : Int := par.vmax
  let a := 3 * (v0 + g.vel) * t - 6000000 * d
  let b := 6000000 * d - (4 * v0 + 2 * g.vel) * t
  let vertex := (0 < a ∧ 0 < -b ∧ -b < 2 * a) ∨ (a < 0 ∧ 0 < b ∧ b < -2 * a)
  decide (0 < t) && decide (v0.natAbs ≤ par.vmax) && decide (g.vel.natAbs ≤ par.vmax)
    && decide (((6000000 * d - (4 * v0 + 2 * g.vel) * t) * 1000000).natAbs ≤ (am * t ^ 2).toNat)
    && decide (((-6000000 * d + (2 * v0 + 4 * g.vel) * t) * 1000000).natAbs ≤ (am * t ^ 2).toNat)
    && (!decide vertex || decide ((4 * a * (v0 * t) - b ^ 2).natAbs ≤ (vm * t * 4).toNat * a.natAbs))

/-- The least duration in lo..hi that passes, by halving (hi passes). -/
def segBisect (par : AxPar) (p0 v0 : Int) (g : Seg) : Nat → Nat → Nat → Nat
  | 0, _, hi => hi
  | n + 1, lo, hi =>
    if hi ≤ lo + 1 then hi
    else
      let m := (lo + hi) / 2
      if segOk par p0 v0 { g with dur := m } then segBisect par p0 v0 g n lo m else segBisect par p0 v0 g n m hi

/-- The segment as it runs: lengthened to the shortest whole number of microseconds that passes (R201); the second component
says whether it was. A segment that no duration lets pass runs at the longest. -/
def stretchSeg (par : AxPar) (p0 v0 : Int) (g : Seg) : Seg × Bool :=
  if segOk par p0 v0 g then (g, false)
  else ({ g with dur := segBisect par p0 v0 g 24 g.dur 16777215 }, true)

/-- A pricking's segments as they run, from a start position and velocity. -/
def stretchAll (par : AxPar) (p0 v0 : Int) : List Seg → List Seg × Bool
  | [] => ([], false)
  | g :: r =>
    let x := stretchSeg par p0 v0 g
    let y := stretchAll par g.pos g.vel r
    (x.1 :: y.1, x.2 || y.2)

/-- A pricking that is rejected whole (R201): a duration of 0, a velocity above vmax, a last velocity that is not 0, or a
position outside the limits. -/
def prickBad (par : AxPar) (l : List Seg) : Bool :=
  l.any (fun g => g.dur == 0 || decide (par.vmax < g.vel.natAbs) || decide (g.pos < par.lo) || decide (par.hi < g.pos))
    || (l.getLast?.map (fun g => decide (g.vel ≠ 0))).getD true

/-! ### Planners (R151, R202) -/

/-- Accelerate, cruise and decelerate over d > 0 from velocity v ≥ 0 toward it, with 2·amax·d ≥ v²; end points are distances. -/
def planForward (par : AxPar) (d v : Nat) : List Seg :=
  let a := max 1 par.amax
  let vm := max 1 par.vmax
  -- distances of the full-speed ramps
  let up := (vm ^ 2 - v ^ 2) / (2 * a)
  let down := vm ^ 2 / (2 * a)
  if v ≤ vm ∧ up + down ≤ d then
    let t1 := ceilDiv ((vm - v) * 1000000) a
    let t2 := ceilDiv ((d - up - down) * 1000000) vm
    let t3 := ceilDiv (vm * 1000000) a
    (if t1 = 0 then [] else [⟨t1, up, vm⟩]) ++ (if t2 = 0 then [] else [⟨t2, (d - down : Nat), vm⟩]) ++ [⟨t3, d, 0⟩]
  else
    -- peak at the point where both ramps meet
    let vp := Nat.sqrt ((2 * a * d + v ^ 2) / 2)
    let vp := max vp v
    let up := (vp ^ 2 - v ^ 2) / (2 * a)
    let t1 := ceilDiv ((vp - v) * 1000000) a
    let t2 := ceilDiv (vp * 1000000) a
    (if t1 = 0 then [] else [⟨t1, up, vp⟩]) ++ [⟨max 1 t2, d, 0⟩]

/-- The same from an absolute position in a direction. -/
def placeSegs (p : Int) (neg : Bool) (l : List Seg) : List Seg :=
  l.map (fun g => { g with pos := if neg then p - g.pos else p + g.pos, vel := if neg then -g.vel else g.vel })

/-- A move to a target at rest from a position and velocity (R202). -/
def planRest (par : AxPar) (p v target : Int) : List Seg :=
  let a := max 1 par.amax
  let d := target - p
  let toward := (0 ≤ v ∧ 0 ≤ d) ∨ (v ≤ 0 ∧ d ≤ 0)
  if d = 0 ∧ v = 0 then []
  else if toward ∧ v.natAbs ^ 2 ≤ 2 * a * d.natAbs then placeSegs p (d < 0 ∨ v < 0) (planForward par d.natAbs v.natAbs)
  else
    let stop := p + v * v.natAbs / (2 * a : Nat)
    let first : Seg := ⟨max 1 (ceilDiv (v.natAbs * 1000000) a), stop, 0⟩
    let d2 := target - stop
    first :: (if d2 = 0 then [] else placeSegs stop (d2 < 0) (planForward par d2.natAbs 0))

/-- The first segment of R202 alone: to rest at constant deceleration (R203). -/
def planStop (par : AxPar) (p v : Int) : List Seg :=
  if v = 0 then []
  else
    let a := max 1 par.amax
    [⟨max 1 (ceilDiv (v.natAbs * 1000000) a), p + v * v.natAbs / (2 * a : Nat), 0⟩]

/-- A retarget is taken at the next tick; of two in one tick the later stands (R202, Table 08-6). -/
def State.retarget (s : State) (a : AxisId) (l : List Seg) : State :=
  s.modAxis a (fun x => { x with next := some l })

/-- The end point of the axis's present segment list, its position where none runs. -/
def Axis.endPoint (x : Axis) : Int :=
  match x.next with
  | some l => ((l.getLast?).map (·.pos)).getD x.pos
  | none => match x.prick.drop x.seg with
    | [] => x.pos
    | l => ((l.getLast?).map (·.pos)).getD x.pos

/-- The SA engine's output retargets the axis (R204); ignored while a jump's segment runs (R205). -/
def State.saFollow (s : State) (g : HeadId) (target : Int) : State :=
  let x := s.sas[g.val]
  let par := s.axPar (.sa g)
  let t := clampI target par.lo par.hi
  let s1 := if t = target then s else s.flag (.sa g) AXIS.at_limit
  let d := t - x.endPoint
  if x.jumpSeg || !(x.st == .hold || x.st == .moving) then s
  else if d.natAbs < max 1 (s.act (.sa g) SLSA.sa_deadband) then s
  else
    let dist := (t - x.pos).natAbs
    let t1 := ceilDiv (3 * dist * 1000000) (2 * max 1 par.vmax)
    let sq := 6 * dist * 1000000000000 / max 1 par.amax
    let t2 := if Nat.sqrt sq ^ 2 = sq then Nat.sqrt sq else Nat.sqrt sq + 1
    (s1.retarget (.sa g) [⟨max 1 (max t1 t2), t, 0⟩]).modSa g (fun y => { y with mode := 3 })

/-- The focus jump's retarget: one segment of duration sa_time, ending at rest (R205). -/
def State.saJump (s : State) (g : HeadId) (target : Int) : State :=
  (s.retarget (.sa g) [⟨max 1 (s.act (.foc g) FOC.sa_time), target, 0⟩]).modSa g
    (fun y => { y with jumpSeg := true, mode := 1 })

/-! ### Transport profiles (R206) -/

/-- A motion state scaled by 10^9. -/
structure Kin where
  p : Int
  v : Int
  a : Int
deriving DecidableEq, Repr

/-- The state after t ns of constant jerk. -/
def Kin.after (k : Kin) (jerk : Int) (t : Nat) : Kin :=
  let x : Int := t
  ⟨k.p + k.v * x / 1000000000 + k.a * x ^ 2 / 2000000000000000000 + jerk * x ^ 3 / 6000000000000000000,
    k.v + k.a * x / 1000000000 + jerk * x ^ 2 / 2000000000, k.a + jerk * x⟩

/-- The state t ns into a list of phases; at its end, the state at its end. -/
def Kin.run (k : Kin) : List Phase → Nat → Kin
  | [], _ => k
  | ph :: r, t => if t ≤ ph.dur then k.after ph.jerk t else (k.after ph.jerk ph.dur).run r (t - ph.dur)

/-- The whole duration of a list of phases. -/
def phasesDur (l : List Phase) : Nat := (l.map (·.dur)).sum

/-- The jerk-limited change from velocity v0 and acceleration a0 to velocity v1 at acceleration 0. -/
def velChange (par : AxPar) (v0 a0 v1 : Int) : List Phase :=
  let j := max 1 par.jmax
  let am := max 1 par.amax
  let vz := v0 + a0 * a0.natAbs / (2 * j : Nat)
  let neg := v1 < vz
  let dv := if neg then v0 - v1 else v1 - v0
  let b := if neg then -a0 else a0
  let sq := dv * j + b ^ 2 / 2
  let ap : Int := min (am : Int) (Nat.sqrt sq.toNat)
  let t1 := ((ap - b) * 1000000000 / j).toNat
  let t3 := (ap * 1000000000 / j).toNat
  let rest := dv - (2 * ap ^ 2 - b ^ 2) / (2 * j : Nat)
  let t2 := if ap ≤ 0 then 0 else (rest * 1000000000 / ap).toNat
  let jj : Int := if neg then -(j : Int) else j
  [⟨t1, jj⟩, ⟨t2, 0⟩, ⟨t3, -jj⟩]

/-- The distance, scaled by 10^9, of a velocity change. -/
def changeDist (par : AxPar) (v0 a0 v1 : Int) : Int :=
  let l := velChange par v0 a0 v1
  (Kin.run ⟨0, v0 * 1000000000, a0 * 1000000000⟩ l (phasesDur l)).p

/-- The highest peak velocity whose ramps fit in the distance, by halving. -/
def peakBisect (par : AxPar) (v0 a0 dist : Int) : Nat → Nat → Nat → Nat
  | 0, lo, _ => lo
  | n + 1, lo, hi =>
    if hi ≤ lo + 1 then lo
    else
      let m := (lo + hi) / 2
      if changeDist par v0 a0 m + changeDist par m 0 0 ≤ dist then peakBisect par v0 a0 dist n m hi
      else peakBisect par v0 a0 dist n lo m

/-- The phases to a target ahead, for motion mirrored so that the distance is positive. -/
def planPhases (par : AxPar) (d v a : Int) : List Phase :=
  let dist := d * 1000000000
  let vp := peakBisect par v a dist 32 0 (par.vmax + 1)
  let used := changeDist par v a vp + changeDist par vp 0 0
  let cruise := if vp = 0 then 0 else ((dist - used) / vp).toNat
  velChange par v a vp ++ [⟨cruise, 0⟩] ++ velChange par vp 0 0

/-- Jerk negated where the motion was mirrored. -/
def mirror (neg : Bool) (l : List Phase) : List Phase := if neg then l.map (fun x => { x with jerk := -x.jerk }) else l

/-- The profile from a present position, velocity and acceleration to a target at rest; a target behind the point of rest is
taken up from rest (R206). -/
def planProfile (par : AxPar) (p v a target : Int) : Profile :=
  let neg : Bool := target < p ∨ (target = p ∧ v < 0)
  let d := if neg then p - target else target - p
  let v' := if neg then -v else v
  let a' := if neg then -a else a
  let stop := changeDist par v' a' 0
  if v' < 0 ∨ d * 1000000000 < stop then
    ⟨p + (if neg then -stop else stop) / 1000000000, p, v, a, mirror neg (velChange par v' a' 0), 0, some target⟩
  else ⟨target, p, v, a, mirror neg (planPhases par d v' a'), 0, none⟩

/-- Braking to rest under the jerk and acceleration limits (R206). -/
def planBrake (par : AxPar) (p v a : Int) : Profile :=
  let stop := changeDist par v a 0
  ⟨p + stop / 1000000000, p, v, a, velChange par v a 0, 0, none⟩

/-- The farthest and nearest positions of a profile's path. -/
def Profile.reach (pr : Profile) : Int × Int :=
  let e := pr.thenTo.getD pr.target
  (min pr.p0 (min pr.target e), max pr.p0 (max pr.target e))

/-! ### Transport interlocks (R213) -/

/-- ZONE[b] is disabled (R213). -/
def State.zoneOff (s : State) (b : BayId) : Bool := s.fld (.zone b) ZONE.t1_hi < s.fld (.zone b) ZONE.t1_lo

/-- T1 faces bay b. -/
def State.facesBay (s : State) (b : BayId) : Bool :=
  let t1 := s.trans[1].ax.pos / 256
  !s.zoneOff b && decide ((s.fld (.zone b) ZONE.t1_lo : Int) ≤ t1) && decide (t1 ≤ (s.fld (.zone b) ZONE.t1_hi : Int))

/-- T2 is inside bay b (R213). -/
def State.t2Inside (s : State) (b : BayId) : Bool :=
  s.facesBay b && decide (s.fldS (.zone b) ZONE.t2_enter ≤ s.trans[2].ax.pos)

/-- The bay's drive is in IDLE or OFF (R188). -/
def State.driveAtRest (s : State) (b : BayId) : Bool :=
  match s.bays[b.val].spindle.st with
  | .idle | .off => true
  | _ => false

/-- A T2 move whose path reaches `hi` enters a bay whose drive is not at rest. -/
def State.t2Blocked (s : State) (hi : Int) : Bool :=
  (List.finRange 8).any (fun b => s.facesBay b && !s.driveAtRest b && decide (s.fldS (.zone b) ZONE.t2_enter ≤ hi))

/-- The lowest T2 position that interlocked bays let GEAR and STEPDIR reach, with pos_max (R213). -/
def State.t2Limit (s : State) (hi : Int) : Int :=
  (List.finRange 8).foldl (fun m b =>
    if s.facesBay b && !s.driveAtRest b then min m (s.fldS (.zone b) ZONE.t2_enter - 1) else m) hi

/-! ### States, homing and faults (R197, R198, R214) -/

/-- The axis comes to rest: HOLD, its run current kept until hold_delay (R194, R197). -/
def Axis.rest (x : Axis) : Axis :=
  { x with
      st := .hold, vel := 0, acc := 0, frac := 0, prick := x.prick, seg := x.prick.length, jumpSeg := false,
      profile := none, stopping := false, next := none, velTarget := 0 }

/-- Motion dropped, the bridges off (R197). -/
def Axis.drop (x : Axis) (st : AxState) : Axis :=
  { x with
      st := st, homed := false, vel := 0, acc := 0, frac := 0, seg := x.prick.length, jumpSeg := false,
      profile := none, stopping := false, next := none, velTarget := 0, home := none, cur := .hold }

/-- Refuses a command of an axis: cmd_refused (R199, R201, R202, R207, R213, R214). -/
def State.refuseAxis (s : State) (a : AxisId) : State := s.flag (axisBlk a) AXIS.cmd_refused

/-- An axis fault (Table 08-5): bridges off, FAULT, logged; a sled or SA fault reports LOST with cause seek, a transport fault
brakes the other transport axes, which refuse moves (R214). -/
def State.axisFault (s : State) (a : AxisId) (cause : BitVec 3) : State :=
  let e := s.errTest (srcAxis a)
  let s1 := (e.2.modAxis a (fun x => { x.drop .fault with faultCause := cause, testPass := if e.1 then some false else none })).logEv
    (srcAxis a) .axisFault [cause.toNat]
  match a with
  | .sled g => s1.loseHead g 6
  | .sa g => s1.loseHead g 6
  | .transport n => (List.finRange 4).foldl (fun (t : State) m =>
      if m = n then t else t.modTrans m (fun y =>
        { y with faultHold := true
                 ax := if y.ax.st = .moving then
                     { y.ax with profile := some (planBrake (t.axPar (.transport m)) y.ax.pos y.ax.vel y.ax.acc), mode := 0 }
                   else y.ax })) s1

/-- Homing ends (Table 08-4, step 5). -/
def Axis.homed' (x : Axis) : Axis := { x.rest with home := none, cur := .hold, homed := true, lostHome := false }

/-- pos = home_pos and homed = 1; a home_pos outside the limits is followed by a move to the nearer limit (Table 08-4). -/
def State.homeSet (s : State) (a : AxisId) : State :=
  let k := axisKind a
  let b := axisBlk a
  let hp := s.actS b (AXIS.home_pos k)
  let par := s.axPar a
  let lim := clampI hp par.lo par.hi
  if lim = hp then s.modAxis a (fun x => { x with pos := hp }.homed')
  else
    let v := 256 * s.act b (AXIS.home_vel k)
    let dir : Int := if lim < hp then -(v : Int) else v
    s.modAxis a (fun x => { x with
      st := .homing, pos := hp, homed := true, lostHome := false, home := some .toLimit, cur := .home,
      prick := [⟨max 1 (ceilDiv ((lim - hp).natAbs * 1000000) (max 1 v)), lim, dir⟩], seg := 0, segT := 0, p0 := hp, v0 := dir })

/-- A homing run starts (Table 08-4); with home_dist = 0 the position is set at once (R198). -/
def State.homeStart (s : State) (a : AxisId) : State :=
  let k := axisKind a
  let b := axisBlk a
  let d := 256 * s.act b (AXIS.home_dist k)
  let v := 256 * s.act b (AXIS.home_vel k)
  if d = 0 then s.homeSet a
  else s.modAxis a (fun x => { x with
    st := .homing, home := some .toStop, cur := .home, homed := false,
    prick := [⟨max 1 (ceilDiv (d * 1000000) (max 1 v)), x.pos - d, -(v : Int)⟩], seg := 0, segT := 0, p0 := x.pos, v0 := -(v : Int) })

/-- Whether an axis may leave DISABLED: enabled, its fields set (R216), for T2 no zone disabled (R213), and for a sled or SA axis no
power failure and no lost reference (Table 18-6, R458). -/
def State.axisMayEnable (s : State) (a : AxisId) : Bool :=
  s.fld (axisBlk a) AXIS.enable == 1 && !s.axisBare a &&
    (match a with
     | .transport n => n != 2 || !(List.finRange 8).any s.zoneOff
     | _ => !s.power.powerFail && !s.time.refLost)

/-- The axis's domain (Table 08-1). -/
def axisPd : AxisId → Nat
  | .sled g => motorPd (bayOf g)
  | .sa g => motorPd (bayOf g)
  | .transport _ => 12

end Sys2Proof.Machine
end

