-- ==== Sys2Proof/Machine/RunoutOps.lean ====
section
/-! DEFINITION. Runout tables: the term that the engines apply, the learner, swaps, the store and its keys (R154–R161). -/

namespace Sys2Proof.Machine

/-- An entry of a bank; an unlisted entry is 0. -/
def bankGet (t : Tab Q17) (w : Nat) : Q17 := Tab.get 0 t w

/-- A bank with one entry changed. -/
def bankSet (t : Tab Q17) (w : Nat) (v : Q17) : Tab Q17 := Tab.set 0 t w v

/-- The entry that the engine applies at wedge w: ACTIVE, or the blend of R158. -/
def Runout.entry (r : Runout) (blendRevs w : Nat) : Int :=
  let a := (bankGet r.active w).toInt
  match r.blend with
  | none => a
  | some j =>
    if blendRevs = 0 then a
    else
      let o := (bankGet r.retiring w).toInt
      o + roundHE ((a - o) * j) (720 * blendRevs : Nat)

/-- The runout term at a wedge and a fraction of the wedge period (R154); 0 while a fetch is pending (R161). -/
def Runout.term (r : Runout) (blendRevs w : Nat) (frac : BitVec 16) : Int :=
  if r.fetching then 0
  else
    let t0 := r.entry blendRevs (w % 720)
    let t1 := r.entry blendRevs ((w + 1) % 720)
    t0 + roundHE ((t1 - t0) * frac.toNat) 65536

/-- The runout term of loop l of head g at its last strobe's angle. -/
def State.runoutTerm (s : State) (g : HeadId) (l : Fin 3) : Int :=
  let h := s.heads[g.val]
  h.runout[l.val].term (s.act (.trk g) TRK.blend_revs) s.bays[(bayOf g).val].wedge h.wedgeFrac

/-- A pass begins with SHADOW as a copy of ACTIVE (R157). -/
def Runout.beginPass (r : Runout) : Runout :=
  { r with shadow := r.active, learning := true, rebuild := r.nextRebuild, nextRebuild := false, conv := 0,
           updates := 0, maxUpdate := 0, table := .learning }

/-- One update of the learner when wedge v ends: entry w = v − lead_wedges, from the mean out of wedge w and the mean input of
wedge v, for a loop that was in RUN throughout (R156). -/
def Runout.learn (r : Runout) (v lead shift : Nat) (errGain : Int) : Runout :=
  let span := r.means.take (lead + 1)
  if r.learning = false ∨ span.length ≤ lead ∨ span.any (fun m => !m.ok) = true then r
  else
    let w := (v + 720 - lead % 720) % 720
    let a := ((span.getLast?).map (·.out)).getD 0
    let e := ((span.head?).map (·.inp)).getD 0
    let target := a + roundHE (errGain * e) 32768
    let old := (bankGet r.shadow w).toInt
    let new := satQ17 (old + roundHE (target - old) (2 ^ shift : Nat))
    { r with shadow := bankSet r.shadow w new, updates := r.updates + 1,
             maxUpdate := max r.maxUpdate (new.toInt - old).natAbs }

/-- The wedge that just ended is closed: its means join the list (kept for 17 wedges). -/
def Runout.closeWedge (r : Runout) : Runout :=
  let n : Int := max 1 r.count
  { r with
    means := (⟨roundHE r.sumOut n, roundHE r.sumIn n, r.ok && r.count != 0⟩ :: r.means).take 17
    sumOut := 0, sumIn := 0, count := 0, ok := true }

/-- SHADOW less its mean (R157). -/
def Runout.zeroMean (r : Runout) : Runout :=
  let m := roundHE ((r.shadow.map (fun e => e.2.toInt)).sum) 720
  { r with shadow := ((List.range 720).map (fun w => (w, satQ17 ((bankGet r.shadow w).toInt - m)))).filter (fun e => e.2 ≠ 0) }

/-- Some entry of SHADOW differs from ACTIVE by more than a level. -/
def Runout.differs (r : Runout) (level : Nat) : Bool :=
  (List.range 720).any (fun w => decide (level < ((bankGet r.shadow w).toInt - (bankGet r.active w).toInt).natAbs))

/-- The convergence test at wedge 0 (R157). -/
def Runout.converge (r : Runout) (convLevel convRevs : Nat) : Runout :=
  if r.learning = false then { r with updates := 0, maxUpdate := 0 }
  else
    let c := if 700 ≤ r.updates ∧ r.maxUpdate < convLevel then r.conv + 1 else 0
    let r1 := { r with conv := c, updates := 0, maxUpdate := 0 }
    if convRevs ≤ c then
      let r2 := r1.zeroMean
      if r2.differs convLevel then { r2 with swapPending := true, learning := false } else { r2 with conv := 0, rebuild := false }
    else r1

/-- The banks swap (R158). -/
def Runout.swap (r : Runout) (blendRevs : Nat) : Runout :=
  let r1 := { r with retiring := r.active, active := r.shadow, swapPending := false, table := .blending, blend := some 0 }
  if blendRevs = 0 then { r1 with blend := none, retiring := [] }.beginPass else r1

/-- The blend ends and a new pass begins (R158); a pass that a fetch resumed goes on (R161). -/
def Runout.endBlend (r : Runout) : Runout :=
  if r.learning then { r with blend := none, retiring := [], table := .learning }
  else { r with blend := none, retiring := [] }.beginPass

/-- A fetched table becomes ACTIVE, blended from what was there (R161). -/
def Runout.adoptFetched (r : Runout) (blendRevs : Nat) : Runout :=
  match r.fetched with
  | none => r
  | some (t, sh, _) =>
    let r1 := { r with retiring := r.active, active := t, shadow := sh.getD t, fetched := none, learning := true,
                       rebuild := false, conv := 0, updates := 0, maxUpdate := 0 }
    if blendRevs = 0 then { r1 with table := .learning } else { r1 with table := .blending, blend := some 0 }

/-- The rms of the input over the first full revolution exceeds reuse_level (R159): the next pass is a rebuild pass. -/
def Runout.reuseTest (r : Runout) (level : Nat) : Runout :=
  if r.firstRev = 1 then
    if level ^ 2 * r.sqCount < r.sqSum then { r with firstRev := 2, nextRebuild := true }.beginPass
    else { r with firstRev := 2 }
  else if r.firstRev = 0 then { r with firstRev := 1, sqSum := 0, sqCount := 0 }
  else r

/-! ### The store (R160, R161) -/

/-- The key of a loop's table at a side-layer, where a disc is loaded. -/
def State.runoutKey (s : State) (g : HeadId) (sl : BitVec 5) (l : Fin 3) : Option RunoutKey :=
  (s.bays[(bayOf g).val].disc).map (fun d => ⟨d, g, sl, l, s.speedClass (bayOf g)⟩)

/-- Stores a loop's table, with the SHADOW and counted revolutions of a pass in progress. -/
def State.storeRunout (s : State) (g : HeadId) (l : Fin 3) : State :=
  let r := s.heads[g.val].runout[l.val]
  match r.key with
  | none => s
  | some k =>
    if r.table = .none then s
    else { s with runoutStore :=
      ⟨k, r.active, if r.learning then some r.shadow else none, r.conv⟩ :: s.runoutStore.filter (fun x => x.key != k) }

/-- Unloads the three loops' banks and begins the fetch of a side-layer's (R161). -/
def State.loadRunout (s : State) (g : HeadId) (sl : BitVec 5) : State :=
  (List.finRange 3).foldl (fun (t : State) l =>
    let k := t.runoutKey g sl l
    if t.heads[g.val].runout[l.val].key = k ∧ k ≠ none then t
    else (t.storeRunout g l).modRunout g l (fun r =>
      { r with active := [], shadow := [], retiring := [], table := .none, learning := false, rebuild := false,
               swapPending := false, blend := none, conv := 0, updates := 0, maxUpdate := 0,
               fetching := k.isSome, fetched := none, key := k })) s

/-- The rebuild pass of an absent table: ACTIVE is all zeros (R159). -/
def Runout.absent (r : Runout) : Runout :=
  { r with active := [], shadow := [], retiring := [], blend := none, fetching := false, fetched := none, learning := true,
           rebuild := true, nextRebuild := false, conv := 0, table := .learning }

/-- The shift in force (R156). -/
def State.learnShift (s : State) (g : HeadId) (r : Runout) : Nat :=
  if r.rebuild then s.act (.trk g) TRK.learn_shift_new else s.act (.trk g) TRK.learn_shift

end Sys2Proof.Machine
end

