-- ==== Sys2Proof/Machine/HeadOps.lean ====
section
/-! DEFINITION. What the focus and tracking sequencers do at their transitions (R120–R132, R144–R152), and the ON_TRACK and
READY reports. -/

namespace Sys2Proof.Machine

def srcFoc (g : HeadId) : BitVec 16 := srcBay (bayOf g) (2 + g.val % 2)
def srcTrk (g : HeadId) : BitVec 16 := srcBay (bayOf g) (4 + g.val % 2)

/-- The output that a loop drove at the last strobe. -/
def State.loopOut (s : State) (g : HeadId) (l : Fin 6) : Q17 := s.heads[g.val].loops[l.val].out

def State.focState (s : State) (g : HeadId) : FocState := s.heads[g.val].foc.st
def State.trkState (s : State) (g : HeadId) : TrkState := s.heads[g.val].trk.st

/-! ### The focus sequencer -/

/-- FAILED with a cause: the focus engine in OVERRIDE at 0, and LOST with cause focus unless it was reported since the last LOCKED
(R132). -/
def State.focFail (s : State) (g : HeadId) (cause : BitVec 2) : State :=
  let reported := s.heads[g.val].foc.lostReported
  let s1 := (s.cmdLoop g lFocus (.override 0)).modFoc g (fun f => { f with
    st := .failed, failCause := cause, jump := none, holdOn := false, lostReported := true })
  let s2 := ((s1.holdTracking g).modTrk g (fun t => { t with failCause := 3 })).logEv (srcFoc g) .focusFailed [cause.toNat]
  if reported then s2 else s2.loseHead g 0

/-- SWEEP from an output (R121): the ramp starts or resumes there. -/
def State.focSweepAt (s : State) (g : HeadId) (v : Q17) : State :=
  (s.cmdLoop g lFocus (.override v)).modFoc g (fun f => { f with
    st := .sweep, crossing := .none, lockRun := 0, jump := none, holdOn := false })

/-- sweep_start, as committed. -/
def State.sweepStart (s : State) (g : HeadId) : Q17 := BitVec.ofNat 18 (s.act (.foc g) FOC.sweep_start)

/-- An attempt is counted; SWEEP goes on at an output, or FAILED with cause 1 when acq_retry attempts have been counted since the
last entry into LOCKED (Table 05-1). -/
def State.focAttempt (s : State) (g : HeadId) (v : Q17) : State :=
  let n := s.heads[g.val].foc.attempts + 1
  let s1 := s.modFoc g (fun f => { f with attempts := n })
  if s.fld1 (.foc g) FOC.acq_retry ≤ n then s1.focFail g 1 else s1.focSweepAt g v

/-- The head starts: SWEEP from sweep_start, the tracking sequencer to HOLD, the SA engine to RUN (R120, R144; DEDUCED, log entry 12). -/
def State.focStart (s : State) (g : HeadId) : State :=
  let s1 := (s.focSweepAt g (s.sweepStart g)).modFoc g (fun f => { f with
    began := s.time.localNs, attempts := 0, wantStart := false, failCause := 0, target := f.target })
  let s2 := (s1.cmdLoop g lSa (.run false none)).modTrk g (fun t => if t.st = .off then { t with st := .hold } else t)
  if (s.trkState g) = .off then s2.holdTracking g else s2

/-- After homing a start that waited goes on (R199). -/
def State.resumeStart (s : State) (g : HeadId) : State :=
  if s.heads[g.val].foc.wantStart && s.sleds[g.val].homed && s.sas[g.val].homed
      && s.sleds[g.val].home.isNone && s.sas[g.val].home.isNone then s.focStart g else s

/-- The bay sequencer starts a head: with no group bare and its sled and SA axes homed, which it homes first (R102, R199). -/
def State.startHead (s : State) (g : HeadId) : State :=
  let b := bayOf g
  if s.headBare g || !s.pdOn b.val then s
  else
    let sled := s.sleds[g.val]
    let sa := s.sas[g.val]
    if sled.homed && sa.homed then s.focStart g
    else
      let s1 := s.modFoc g (fun f => { f with wantStart := true })
      let s2 := if !sled.homed && sled.st == .hold then s1.homeStart (.sled g) else s1
      (if !sa.homed && sa.st == .hold then s2.homeStart (.sa g) else s2).resumeStart g

/-- Homing of a head's axis has ended (Table 08-4): a start that waited for it goes on. -/
def State.afterHoming (s : State) (a : AxisId) : State :=
  match a with
  | .sled g => s.resumeStart g
  | .sa g => s.resumeStart g
  | .transport _ => s

/-- The bay starts its heads at a session speed: those in OFF, and those in FAILED with cause 3 (Table 05-1, R132). -/
def State.startHeads (s : State) (b : BayId) : State :=
  if s.sessionSpeed b then
    (List.finRange 2).foldl (fun (t : State) h =>
      let g := headOf b h
      let f := t.heads[g.val].foc
      if f.st = .off ∨ (f.st = .failed ∧ f.failCause = 3) then t.startHead g else t) s
  else s

/-- Focus is lost (R130): OVERRIDE at the last good output, RECAPTURE from last − recap_span (R131), the flag, the count, the log and
LOST with cause focus; the other loops to HOLD. -/
def State.focusLoss (s : State) (g : HeadId) : State :=
  let f := s.heads[g.val].foc
  let start := satQ17 (f.lastGood.toInt - s.act (.foc g) FOC.recap_span)
  let s1 := (s.cmdLoop g lFocus (.override start)).modFoc g (fun f => { f with
    st := .recapture, holdOn := false, feRun := 0, crossing := .none, recapUp := true, lossSl := f.sl, jump := none,
    lossCount := satInc 8 f.lossCount, lostReported := true })
  let s2 := (s1.flag (.foc g) FOC.loss).holdTracking g
  (s2.logEv (srcFoc g) .focusLoss [f.lossCount + 1]).loseHead g 0

/-- RECAPTURE after a jump step that failed (R127). -/
def State.jumpRecapture (s : State) (g : HeadId) : State :=
  let f := s.heads[g.val].foc
  let held := (f.jump.map (·.held)).getD f.lastGood
  let start := satQ17 (held.toInt - s.act (.foc g) FOC.recap_span)
  (s.cmdLoop g lFocus (.override start)).modFoc g (fun f => { f with
    st := .recapture, crossing := .none, recapUp := true, lastGood := held, lossSl := f.sl, jump := none })

/-- The layer one step deeper or shallower on the same side (R127). -/
def nextLayer (sl : BitVec 5) (deeper : Bool) : BitVec 5 := if deeper then sl - 1 else sl + 1

/-- Step 1 of Table 05-3: SA_ref switches to the next layer's trim as committed at that moment, and the SA retarget is issued. -/
def State.jumpStep (s : State) (g : HeadId) (cur target : BitVec 5) : State :=
  let deeper : Bool := slLayer target < slLayer cur
  let next := nextLayer cur deeper
  let ref := s.trimC 2 g.val next.toNat
  let from_ := s.sas[g.val].pos
  (s.saJump g ref).modFoc g (fun f => { f with
    st := .jump, saRef := ref,
    jump := some ⟨.saMove, deeper, f.lastGood, next, from_, ref, s.time.localNs⟩ })

/-- JUMP toward a target layer (R126): the other loops to HOLD, the runout banks change (R161), the first step. -/
def State.beginJump (s : State) (g : HeadId) (cur target : BitVec 5) : State :=
  (((s.holdTracking g).loadRunout g target).modFoc g (fun f => { f with cancelJump := false, lockRun := 0 })).jumpStep g cur target

/-- A head enters ACQUIRE (R145): tracking in OVERRIDE at 0 plus its runout term, the bias cleared (R141). -/
def State.trkAcquire (s : State) (g : HeadId) : State :=
  (s.cmdLoop g lTrack (.override 0)).modTrk g (fun t => { t with
    st := .acquire, bias := 0, running := false, lockRun := 0, agree := [], lens := none, sinceCross := 0, lastSign := none })

/-- LOCKED (Table 05-1): sum_ref is measured anew (R117), the FOC group is adopted (Table 05-4), and the tracking sequencer goes from
HOLD to ACQUIRE, or the recorded target starts a jump (R136). -/
def State.enterLocked (s : State) (g : HeadId) (sl : BitVec 5) : State :=
  let f := s.heads[g.val].foc
  let s0 := if f.sl = some sl then s else s.recomputeTrims g
  let s1 := (s0.adopt (tagFoc g)).modFoc g (fun f => { f with
    st := .locked, sl := some sl, attempts := 0, corrections := 0, sumAcc := some (256, 0), lostReported := false, jump := none,
    holdOn := false, holdGood := 0, feRun := 0, headers := [], saRef := s.trimA g 2 g.val sl.toNat,
    lastAcq := min 65535 ((s.time.localNs - f.began) / 10000) })
  let s2 := s1.loadRunout g sl
  match f.target with
  | some t =>
    if t ≠ sl ∧ f.cancelJump = false then s2.beginJump g sl t
    else (s2.modFoc g (fun f => { f with cancelJump := false, target := if f.cancelJump then some sl else f.target })).trkAcquire g
  | none => s2.trkAcquire g

/-! ### ON_TRACK, READY and the requests (R17–R19, R147) -/

/-- The wedge at which a window's first frame starts (R60, R66). -/
def startWedge (track : Nat) (frame : Nat) : Nat :=
  match bandOf track with
  | some .data => ((locateFrame frame).map (·.wedge)).getD 0
  | some .outer => (locateAreaFrame (if track < 210400 then 210000 else 210400) frame).wedge
  | _ => (locateAreaFrame (if track < 200400 then 200000 else if track < 204000 then 200400 else 204000) frame).wedge

/-- The entry of a disc in the per-disc store (R464). -/
def State.discEntry (s : State) (d : BitVec 128) : Option DiscEntry := s.discStore.find? (fun e => e.disc == d)

/-- The power-calibration results of a head on a side-layer of the disc in its bay: by emitter, inner or outer (R260, R464). -/
def State.opcResult (s : State) (g : HeadId) (sl : BitVec 5) (k : BeamId) (outer : Bool) : Option Nat :=
  match s.bays[(bayOf g).val].disc with
  | none => none
  | some d => (s.discEntry d).bind (fun e =>
      (e.opc.find? (fun r => r.head == g && r.sl == sl && r.beam == k && r.outer == outer)).map (·.power))

/-- The head has a result for every emitter on a side-layer (R254). -/
def State.hasOpc (s : State) (g : HeadId) (sl : BitVec 5) : Bool :=
  (List.finRange 4).all (fun k => (s.opcResult g sl k false).isSome || (s.opcResult g sl k true).isSome)

/-- The head may make calibration runs: write service but for the results (R254). -/
def State.opcService (s : State) (g : HeadId) : Bool :=
  let h := s.heads[g.val]
  s.fld (.wr g) WR.write_enable == 1 && s.fld (.vchan g) VCHAN.enable == 1 && !h.trk.noWrite && h.lanes.all (fun l => l.st == .up)

/-- STATUS.write_service (R254, R255). -/
def State.writeService (s : State) (g : HeadId) : Bool :=
  match s.heads[g.val].foc.sl with
  | none => false
  | some sl => s.opcService g && s.hasOpc g sl && !(s.wrs[g.val]).lv3.contains sl

/-- The track of a window request. -/
def MailReq.track (r : MailReq) : Nat :=
  match r.kind with
  | .readWindow t _ _ => t.toNat
  | .writeWindow t _ _ => t.toNat
  | .position _ t _ => t.toNat

/-- A held or posted window request opens when its head is on track and no window of it is open; a write window when its grant is held,
write speed is reached, the head is in write service and no calibration run is due; a read window while the DECODE group is
committed; none above 850 Mbit/s (R19, R38, R143, R254, R261, R301, Table 10-1). -/
def State.mayOpen (s : State) (g : HeadId) (r : MailReq) : Bool :=
  let h := s.heads[g.val]
  let b := bayOf g
  let bay := s.bays[b.val]
  !h.lost && h.trk.st == .follow && bay.disc.isSome && !bay.unusable && s.sessionSpeed b && !r.isPosition
    && rateAllowed (bandBits r.track) (s.fld (.spindle b) SPINDLE.rpm)
    && (if r.isWrite then s.writeHeld b && bay.sess == .writing && s.writeService g && (s.wrs[g.val]).run.isNone
          && (s.wrs[g.val]).due.isEmpty
        else (bay.sess == .read || bay.sess == .writing) && s.committedOnce 0x0800)

/-! ### Power calibration runs that are due (R258, R261) -/

/-- The turns of a calibration area (R258). -/
def opcTurns (outer : Bool) : Nat := if outer then 100 else 800

/-- Turns used in an area of a side-layer (Table 10-5). -/
def State.opcUsed (s : State) (g : HeadId) (sl : BitVec 5) (outer : Bool) : Nat := Tab.get 0 (s.wrs[g.val]).used (2 * sl.toNat + b2n outer)

/-- An area is full (R261). -/
def State.opcFull (s : State) (g : HeadId) (sl : BitVec 5) (outer : Bool) : Bool := decide (opcTurns outer ≤ s.opcUsed g sl outer)

/-- The runs of a side-layer that are made: an inner and then an outer one, in the areas that are not full (R261). -/
def State.opcRuns (s : State) (g : HeadId) (sl : BitVec 5) : List Bool := [false, true].filter (fun o => !s.opcFull g sl o)

/-- A trigger of R261 but for CTRL.opc_now. -/
def State.opcTrigger (s : State) (g : HeadId) (sl : BitVec 5) : Bool :=
  let w := s.wrs[g.val]
  !s.hasOpc g sl
    || (match w.lastTemp with
        | some t => decide (16 * s.act (.wr g) WR.opc_temp_delta < ((s.heads[g.val]).temp - t).natAbs)
        | none => false)
    || decide (60000000000 * s.act (.wr g) WR.opc_interval ≤ w.writeNs ∧ 0 < w.writeNs)
    || decide (s.act (.wr g) WR.opc_fail_limit < (w.hist.filter id).length)

/-- In WRITING, before a write window of the head opens, its runs fall due where R261 asks for them. -/
def State.opcCheck (s : State) (g : HeadId) : State :=
  let bay := s.bays[(bayOf g).val]
  let w := s.wrs[g.val]
  match s.heads[g.val].foc.sl with
  | none => s
  | some sl =>
    if bay.sess == .writing && w.due.isEmpty && w.run.isNone && !s.windowOpen g && s.opcService g
        && bay.requests.any (fun r => r.head == g && r.isWrite && !r.opened) && s.opcTrigger g sl then
      s.modWr g (fun x => { x with due := s.opcRuns g sl })
    else s

/-- READY for every request of a head that may open and has not (R17, R19), once a calibration that is due has been found (R261). -/
def State.openRequests (s0 : State) (g : HeadId) : State :=
  let b := bayOf g
  let s := s0.opcCheck g
  s.bays[b.val].requests.foldl (fun (t : State) r =>
    if r.head = g ∧ r.opened = false ∧ t.mayOpen g r = true ∧ t.windowOpen g = false then
      let w := match r.kind with
        | .readWindow track frame _ => startWedge track.toNat frame.toNat
        | .writeWindow track frame _ => startWedge track.toNat frame.toNat
        | .position .. => 0
      (t.modBay b (fun x => { x with
        requests := x.requests.map (fun q => if q.tag = r.tag ∧ q.head = g then { q with stage := .ready w } else q) })).report b
          (.ready r.tag g (BitVec.ofNat 10 w))
    else t) s

/-- ON_TRACK (R17, R20, R147): the POSITION that asked for it finishes, the head is no longer lost, HLEN*_N returns low (R149), and
requests that were held are served. -/
def State.onTrack (s : State) (g : HeadId) (gray : BitVec 18) : State :=
  let b := bayOf g
  let t := s.heads[g.val].trk
  let tag := t.request.getD 0
  let s1 := (s.report b (.onTrack tag g gray)).modBay b (fun x => { x with
    requests := (x.requests.filter (fun r => !(r.head == g && r.isPosition && some r.tag == t.request))).map
      (fun r => if r.head = g ∧ r.stage = .held ∧ r.isPosition = false then { r with stage := .active } else r) })
  let s2 := s1.modHead g (fun h => { h with
    lost := false
    trk := { h.trk with inhibit := false, corrections := 0, cancelled := false,
                        lastSeek := if h.trk.request.isSome then min 65535 ((s.time.localNs - h.trk.requested) / 10000)
                          else h.trk.lastSeek }
    loops := h.loops.map (fun l => if l.excessOver then { l with excess := false, excessOver := false } else l) })
  s2.openRequests g

/-- FOLLOW (Table 06-1): all loops in RUN (R134, R142, R203). -/
def State.trkFollow (s : State) (g : HeadId) (track : BitVec 18) : State :=
  let s1 := (((s.cmdLoop g lTrack (.run false none)).cmdLoop g lSkew (.run false none)).cmdLoop g lTilt (.run false none)).cmdLoop
    g lSled (.run false none)
  (s1.modTrk g (fun t => { t with st := .follow, track := track, offRun := 0, skewFree := true })).modFoc g
    (fun f => { f with tiltFree := true })

/-- The tracking sequencer's FAILED (Table 06-1). -/
def State.trkFail (s : State) (g : HeadId) (cause : BitVec 2) : State :=
  (((s.cmdLoop g lTrack (.override 0)).cmdLoop g lSled .hold).cmdLoop g lSkew .hold).modTrk g (fun t => { t with
    st := .failed, failCause := cause, lens := none, running := false })

/-- A lens jump begins (Table 06-2, step 1). -/
def State.lensJump (s : State) (g : HeadId) (outward : Bool) (n : Nat) (holdJump : Bool) : State :=
  let held := satQ17 ((s.loopOut g lTrack).toInt - s.runoutTerm g 1)
  let kick : Int := s.act (.trk g) TRK.kick_amp
  let v := satQ17 (held.toInt + (if outward then kick else -kick))
  let s1 := (((s.cmdLoop g lTrack (.override v)).cmdLoop g lSkew .hold).cmdLoop g lTilt .hold).cmdLoop g lSled .hold
  s1.modTrk g (fun t => { t with
    st := .jump, lockRun := 0, sinceCross := 0,
    lens := some ⟨.kick, outward, n, held, 0, s.time.localNs, holdJump⟩ })

/-- A seek is wanted: its grant is requested, or the one held is kept (R151, R152). -/
def State.trkSeek (s : State) (g : HeadId) : State :=
  let s1 := ((s.cmdLoop g lTrack (.override 0)).cmdLoop g lSkew .hold).cmdLoop g lTilt .hold
  ((s1.cmdLoop g lSled .hold).modTrk g (fun t => { t with
    st := .seek, seek := some .waitGrant, lens := none, running := false })).requestGrant .seek g.val

/-- A correction from a read M0 track toward the expected one (R146): by JUMP up to lens_max tracks, by SEEK beyond, and by SEEK from a
guard band. -/
def State.trkCorrect (s : State) (g : HeadId) (m : Nat) (guardMiss : Bool) : State :=
  let t := s.heads[g.val].trk
  if s.fld1 (.trk g) TRK.seek_retry ≤ t.corrections then
    (((s.trkFail g 1).flag (.trk g) TRK.seek_fault).logEv (srcTrk g) .seekFault [m]).loseHead g 6
  else
    let e := (t.expected.getD 0).toNat
    let d := radius e - radius m
    let s1 := s.modTrk g (fun t => { t with corrections := t.corrections + 1, track := BitVec.ofNat 18 m })
    if guardMiss || decide (s.act (.trk g) TRK.lens_max < d.natAbs) then s1.trkSeek g
    else s1.lensJump g (0 < d) d.natAbs false

/-- Toward the expected track from FOLLOW, for a new POSITION (R147, R151). -/
def State.trkGo (s : State) (g : HeadId) : State :=
  let t := s.heads[g.val].trk
  let e := (t.expected.getD t.track).toNat
  let d := radius e - radius t.track.toNat
  if d = 0 then s
  else if s.act (.trk g) TRK.lens_max < d.natAbs then s.trkSeek g
  else s.lensJump g (0 < d) d.natAbs false

/-- Slip (R148): the flag, the log, LOST with cause tracking, and CONFIRM or ACQUIRE as the lock test holds or not. -/
def State.trkSlip (s : State) (g : HeadId) (locked : Bool) : State :=
  let s1 := ((s.flag (.trk g) TRK.slip).logEv (srcTrk g) .slip []).loseHead g 1
  let s2 := ((s1.cmdLoop g lSkew .hold).cmdLoop g lTilt .hold).cmdLoop g lSled .hold
  if locked then s2.modTrk g (fun t => { t with st := .confirm, agree := [], corrections := 0, offRun := 0 })
  else (s2.modTrk g (fun t => { t with corrections := 0, offRun := 0 })).trkAcquire g

/-- The write inhibit (R149): HLEN*_N high; every open stream of the head ends (R87), and R86 applies to its windows. -/
def State.writeInhibit (s : State) (g : HeadId) : State :=
  (s.failWindow g).modHead g (fun h => { h with
    trk := { h.trk with inhibit := true }
    lanes := h.lanes.map (fun l => { l with stream := false }) })

/-- HLEN*_N of a head: high from reset, without laser_permit, with the signal domain off, under the write inhibit, and in a power
failure (R75, R149, R445, Table 18-6). -/
def State.hlenHigh (s : State) (g : HeadId) : Bool :=
  s.fld (.link g) LINK.laser_permit == 0 || !s.pdOn (bayOf g).val || s.heads[g.val].trk.inhibit || s.power.powerFail || s.time.refLost

end Sys2Proof.Machine
end

