-- ==== Sys2Proof/Machine/Axes.lean ====
section
/-! DEFINITION. The stepper and transport commands (chapter 08): AXIS_TICK to AXIS_COMMIT. -/

namespace Sys2Proof.Machine

/-! ### The tick (R193) -/

/-- The fields that a move in progress adopts at the next tick: current and chopper fields (Table 08-6). -/
def tickField (k : AxisKind) (f : Field) : Bool :=
  [AXIS.run_current k, AXIS.hold_current k, AXIS.t_off, AXIS.t_blank, AXIS.fast_rise, AXIS.fast_fall, AXIS.hold_delay].contains f

/-- Adoption of the axis group at a tick: during a move the current and chopper fields alone, the rest from the next plan or
retarget (Table 08-6). -/
def State.adoptAxis (s : State) (a : AxisId) : State :=
  let x := s.axis a
  if (x.st == .moving || x.st == .homing) && x.next.isNone then s.adoptPart (tagAxis a) (tickField (axisKind a)) false
  else s.adopt (tagAxis a)

/-- Where t ns into a list of segments from p0 and v0 lies: segments passed, start state and time of the one that runs; none
where the list has ended, at its last position. -/
def runSegs (p0 v0 : Int) : List Seg → Nat → Nat → Nat × Int × Int × Nat × Bool
  | [], i, _ => (i, p0, v0, 0, true)
  | g :: r, i, t => if t < 1000 * g.dur then (i, p0, v0, t, false) else runSegs g.pos g.vel r (i + 1) (t - 1000 * g.dur)

/-- The commanded position changes by at most 256 microsteps a tick (R193). -/
def tickMove (old new : Int) : Int := clampI new (old - 256) (old + 256)

/-- One tick of a segment list; the Bool says that the list has ended. -/
def Axis.segTick (x : Axis) : Axis × Bool :=
  let r := runSegs x.p0 x.v0 (x.prick.drop x.seg) x.seg (x.segT + 2500)
  if r.2.2.2.2 then
    ({ x with pos := tickMove x.pos r.2.1, vel := 0, seg := r.1, p0 := r.2.1, v0 := 0, segT := 0 }, true)
  else
    match x.prick[r.1]? with
    | some g =>
      let t := r.2.2.2.1
      ({ x with
          pos := tickMove x.pos (segPos r.2.1 r.2.2.1 g t), vel := segVel r.2.1 r.2.2.1 g t,
          seg := r.1, p0 := r.2.1, v0 := r.2.2.1, segT := t }, false)
    | none => (x, true)

/-- A new pricking starts at this tick from the commanded position and velocity, checked and lengthened (R201, R202). -/
def State.takePrick (s : State) (a : AxisId) (l : List Seg) : State :=
  let x := s.axis a
  let y := stretchAll (s.axPar a) x.pos x.vel l
  let s1 := if y.2 then s.flag (axisBlk a) AXIS.stretched else s
  s1.modAxis a (fun x => { x with
    st := .moving, mode := if x.mode = 3 then 3 else 1, cur := .run,
    prick := y.1, seg := 0, segT := 0, p0 := x.pos, v0 := x.vel, next := none })

/-- What follows when a sled or SA axis comes to rest: HOLD, and a seek goes on to its settling (R151). -/
def State.restAxis (s : State) (a : AxisId) : State :=
  let s1 := s.modAxis a (fun x => { x.rest with mode := 0 })
  match a with
  | .sled g => s1.modTrk g (fun t => if t.seek = some .moving then { t with seek := some .settling } else t)
  | _ => s1

/-- One tick under a velocity target: the velocity moves at no more than amax, and the axis brakes to rest at a limit it
approaches, sets at_limit and enters HOLD (R203, R212). -/
def State.velTick (s : State) (a : AxisId) : State :=
  let x := s.axis a
  let par := s.axPar a
  let dv : Int := ((max 1 (par.amax / 400000) : Nat) : Int)
  let stop : Int := ((x.vel.natAbs ^ 2 / (2 * max 1 par.amax) : Nat) : Int)
  let room := if x.vel < 0 then x.pos - par.lo else par.hi - x.pos
  let limited : Bool := x.vel ≠ 0 ∧ room ≤ stop
  let want := if limited then 0 else clampI x.velTarget (-(par.vmax : Int)) par.vmax
  let v := if x.vel < want then min want (x.vel + dv) else max want (x.vel - dv)
  let fine := x.frac + v
  let p := clampI (tickMove x.pos (x.pos + fine / 400000)) par.lo par.hi
  if limited && v == 0 then (s.restAxis a).flag (axisBlk a) AXIS.at_limit
  else s.modAxis a (fun y => { y with
    pos := p, vel := v, frac := fine % 400000, st := if v = 0 then .hold else .moving, cur := if v = 0 then y.cur else .run })

/-- One tick of homing (Table 08-4). -/
def State.homeTick (s : State) (a : AxisId) : State :=
  let x := s.axis a
  match x.home with
  | some .toStop =>
    let r := x.segTick
    if r.2 then s.modAxis a (fun _ => { r.1 with home := some .hold, vel := 0 }) else s.modAxis a (fun _ => r.1)
  | some .toLimit =>
    let r := x.segTick
    if r.2 then (s.modAxis a (fun _ => { r.1.homed' with mode := 0 })).afterHoming a else s.modAxis a (fun _ => r.1)
  | _ => s

/-- The signed master count of T2's gear (R208, R209). -/
def State.masterCount (s : State) : Int :=
  let i : Fin 2 := if s.fld (.taxis 2) TAXIS.enc_sel = 1 then 1 else 0
  s.encs[i.val].count.toInt

/-- The geared target, scaled by 2^32, at x master counts after the last ratio change (R209, R210). -/
def gearTarget (t : Transport) (x : Int) : Int :=
  let r1 := t.p * 4294967296 / (max 1 t.q : Nat)
  let r0 := t.fromP * 4294967296 / (max 1 t.fromQ : Nat)
  let b : Int := t.blendLen
  if b = 0 then t.anchor + r1 * x
  else if x.natAbs < t.blendLen then t.anchor + r0 * x + (r1 - r0) * x * x.natAbs / (2 * b)
  else t.anchor + (r0 + r1) * b / 2 * x.sign + r1 * (x - b * x.sign)

/-- A transport axis leaves GEAR or STEPDIR, brakes to rest and enters PROFILE (R209, R210, R212). -/
def State.leaveMode (s : State) (n : Fin 4) : State :=
  let x := s.trans[n.val].ax
  let s1 := s.modTrans n (fun t => { t with
    armed := false, p := 0, q := 1, fromP := 0, fromQ := 1, blendLen := 0, remaining := 0,
    ax := if x.vel = 0 ∧ x.acc = 0 then { x.rest with mode := 0 }
      else { x with st := .moving, mode := 0, profile := some (planBrake (s.axPar (.transport n)) x.pos x.vel x.acc) } })
  s1.setFld (.taxis n) AXIS.CTRL_mode 0

/-- Leaves the mode at a limit or an interlock (R212, R213). -/
def State.limitLeave (s : State) (n : Fin 4) (interlock : Bool) : State :=
  let s1 := (s.leaveMode n).flag (.taxis n) AXIS.at_limit
  if interlock then s1.flag (.taxis n) AXIS.interlock else s1

/-- One tick toward a velocity for a transport axis in GEAR or STEPDIR. -/
def State.followTick (s : State) (n : Fin 4) (v : Int) : State :=
  let x := s.trans[n.val].ax
  let par := s.axPar (.transport n)
  let hi := if n = 2 then s.t2Limit par.hi else par.hi
  let stop : Int := ((v.natAbs ^ 2 / (2 * max 1 par.amax) : Nat) : Int)
  let room := if v < 0 then x.pos - par.lo else hi - x.pos
  if v ≠ 0 ∧ room ≤ stop then s.limitLeave n (hi < par.hi)
  else
    let fine := x.frac + v
    s.modTrans n (fun t => { t with ax := { x with
      pos := tickMove x.pos (x.pos + fine / 400000), frac := fine % 400000, vel := v,
      st := if v = 0 then .hold else .moving, cur := if v = 0 then x.cur else .run } })

/-- One tick of GEAR (R209): the slave follows through a limiter with vmax and amax. -/
def State.gearTick (s : State) (n : Fin 4) : State :=
  let t := s.trans[n.val]
  let x := t.ax
  let par := s.axPar (.transport n)
  let target := gearTarget t (s.masterCount - t.master)
  let err := target / 4294967296 - x.pos
  if (s.act (.taxis n) TAXIS.gear_lag : Int) < err.natAbs then (s.leaveMode n).flag (.taxis n) AXIS.gear_fault
  else
    let want := clampI (err * 400000) (-(par.vmax : Int)) par.vmax
    let dv : Int := ((max 1 (par.amax / 400000) : Nat) : Int)
    s.followTick n (clampI want (x.vel - dv) (x.vel + dv))

/-- One tick of STEPDIR (R211): the remaining distance at constant velocity over the last interval. -/
def State.stepTick (s : State) (n : Fin 4) : State :=
  let t := s.trans[n.val]
  let par := s.axPar (.transport n)
  let v := clampI (t.remaining * 1000000 / (max 1 t.stepInterval : Nat)) (-(par.vmax : Int)) par.vmax
  if t.remaining = 0 then s.modTrans n (fun y => { y with ax := { y.ax.rest with mode := 2 } })
  else
    let s1 := s.followTick n (if t.ax.velTarget = 0 then v else t.ax.velTarget)
    let moved := s1.trans[n.val].ax.pos - t.ax.pos
    let rest := t.remaining - moved
    s1.modTrans n (fun y => { y with remaining := if rest * t.remaining ≤ 0 then 0 else rest })

/-- One tick of a transport profile (R206): exactly on the target microstep at its end; a target that lies behind is then taken
up from rest. -/
def State.profileTick (s : State) (n : Fin 4) (pr : Profile) : State :=
  let t := pr.t + 2500
  if phasesDur pr.phases ≤ t then
    let s1 := s.modTrans n (fun y => { y with ax := { y.ax.rest with pos := tickMove y.ax.pos pr.target, mode := y.ax.mode } })
    match pr.thenTo with
    | none => s1
    | some g => s1.modTrans n (fun y => { y with ax := { y.ax with
        st := .moving, cur := .run, profile := some (planProfile (s.axPar (.transport n)) y.ax.pos 0 0 g) } })
  else
    let k := Kin.run ⟨pr.p0 * 1000000000, pr.v0 * 1000000000, pr.a0 * 1000000000⟩ pr.phases t
    s.modTrans n (fun y => { y with ax := { y.ax with
      pos := tickMove y.ax.pos (roundNear k.p 1000000000), vel := k.v / 1000000000, acc := k.a / 1000000000,
      profile := some { pr with t := t } } })

/-- The tick of an axis that may move. -/
def State.moveTick (s : State) (a : AxisId) : State :=
  let x := s.axis a
  match a with
  | .transport n =>
    match x.profile with
    | some pr => s.profileTick n pr
    | none => if x.mode = 1 then s.gearTick n else if x.mode = 2 then s.stepTick n else s
  | _ =>
    -- the pricking in force is evaluated to this instant; a retarget then starts from there
    let running := x.st == .moving && decide (x.seg < x.prick.length)
    let r := if running then x.segTick else (x, false)
    let s1 := s.modAxis a (fun _ => r.1)
    match x.next with
    | some [] => s1.restAxis a
    | some l => s1.takePrick a l
    | none => if running then (if r.2 then s1.restAxis a else s1) else if x.mode = 2 then s1.velTick a else s1

/-- AXIS_TICK (R193): the group's adoption, the commanded position for the instant and the phase currents. -/
def execAxisTick (a : AxisId) (s : State) : Host.Outcome State Fault Refusal :=
  let s1 := s.adoptAxis a
  let x := s1.axis a
  .next (match x.st with
    | .off => s1
    | .fault => s1
    | .disabled =>
      if s1.axisMayEnable a then (s1.modAxis a (fun y => { y with st := .hold, cur := .hold })).setPhases a else s1
    | .homing => (s1.homeTick a).setPhases a
    | .hold => (s1.moveTick a).setPhases a
    | .moving => (s1.moveTick a).setPhases a)

/-! ### Choppers and faults -/

/-- f of a cycle (R196): 16 in the first off-time after a sign change, fast_rise for a magnitude at or above the previous
cycle's, fast_fall for a lower one. -/
def chopF (s : State) (a : AxisId) (c : Chop) : Nat :=
  if c.setpoint.sign * c.prev.sign < 0 then 16
  else if c.prev.natAbs ≤ c.setpoint.natAbs then s.act (axisBlk a) AXIS.fast_rise
  else s.act (axisBlk a) AXIS.fast_fall

/-- The setpoint is at least 25 % of run_current (Table 08-2, step 3). -/
def openTest (s : State) (a : AxisId) (phase : Fin 2) : Bool :=
  s.act (axisBlk a) (AXIS.run_current (axisKind a)) ≤ 4 * ((s.axis a).chop[phase.val]).setpoint.natAbs

/-- t_blank in ns (Table 08-7). -/
def blankNs (s : State) (a : AxisId) : Nat := 250 * (s.act (axisBlk a) AXIS.t_blank + 1)

/-- CHOPPER_CYCLE (R195, R196): one cycle whose current meets the setpoint `reached` ns after its start; the on-time is at least
t_blank, and a current that has not met it 200 µs after t_blank is a phase-open fault where the setpoint is large enough. -/
def execChopperCycle (a : AxisId) (phase : Fin 2) (reached : BitVec 24) (s : State) : Host.Outcome State Fault Refusal :=
  let x := s.axis a
  if x.st = .off ∨ x.st = .disabled ∨ x.st = .fault then .next s
  else if blankNs s a + 200000 < reached.toNat ∧ openTest s a phase = true then .next (s.axisFault a 2)
  else
    let c := x.chop[phase.val]
    let f := chopF s a c
    let off := 500 * s.act (axisBlk a) AXIS.t_off
    .next (s.modAxis a (fun y => { y with
      chop := vmod y.chop phase (fun c => { c with
        prev := c.setpoint, fast := f, onTime := max (blankNs s a) reached.toNat, offTime := off, fastTime := f * off / 16 }) }))

/-- STEPPER_PHASE_OPEN (R195, Table 08-5): a fault where the setpoint is at least 25 % of run_current. -/
def execStepperPhaseOpen (a : AxisId) (phase : Fin 2) (s : State) : Host.Outcome State Fault Refusal :=
  let x := s.axis a
  if x.st = .off ∨ x.st = .disabled ∨ x.st = .fault then .next s
  else if openTest s a phase then .next (s.axisFault a 2)
  else .next s

/-- AXIS_OVERCURRENT (Table 08-5, cause 1). -/
def execAxisOvercurrent (a : AxisId) (s : State) : Host.Outcome State Fault Refusal := .next (s.axisFault a 1)

/-- HOLD_DELAY_END (R194): hold_delay after motion, the axis drops to hold_current. -/
def execHoldDelayEnd (a : AxisId) (s : State) : Host.Outcome State Fault Refusal :=
  if (s.axis a).st = .hold then .next ((s.modAxis a (fun x => { x with cur := .hold })).setPhases a) else .next s

/-! ### Register commands -/

/-- AXIS_ENABLE_WRITE (R197): 0 sends any state but OFF to DISABLED, 1 sends DISABLED to HOLD unless R213 or R216 keeps it. -/
def execAxisEnableWrite (a : AxisId) (v : Bool) (s : State) : Host.Outcome State Fault Refusal :=
  if !s.answers (axisBlk a) then .next (s.absent (axisBlk a) AXIS.enable.off) else
  let s1 := s.setFld (axisBlk a) AXIS.enable (b2n v)
  let x := s1.axis a
  if v then
    if x.st = .disabled ∧ s1.axisMayEnable a = true then .next (s1.modAxis a (fun y => { y with st := .hold, cur := .hold }))
    else .next s1
  else if x.st = .off then .next s1
  else .next (s1.modAxis a (fun y => y.drop .disabled))

/-- AXIS_HOME (R198): a homing run from HOLD. -/
def execAxisHome (a : AxisId) (s : State) : Host.Outcome State Fault Refusal :=
  if !s.answers (axisBlk a) then .next (s.absent (axisBlk a) AXIS.home.off) else
  if (s.axis a).st = .hold then .next ((s.homeStart a).afterHoming a) else .next s

/-- HOME_STOP_HOLD_END (R198): 50 ms at the stop pass. -/
def execHomeStopHoldEnd (a : AxisId) (s : State) : Host.Outcome State Fault Refusal :=
  if (s.axis a).st = .homing ∧ (s.axis a).home = some .hold then .next ((s.homeSet a).afterHoming a) else .next s

/-- AXIS_CLEAR_FAULT (R214): FAULT to DISABLED once the self-test has passed; refused and logged otherwise. When no transport
axis is in FAULT any more, the others take moves again. -/
def execAxisClearFault (a : AxisId) (s : State) : Host.Outcome State Fault Refusal :=
  if !s.answers (axisBlk a) then .next (s.absent (axisBlk a) AXIS.clear_fault.off) else
  let x := s.axis a
  if x.st = .fault then
    if x.testPass = some true then
      let s1 := s.modAxis a (fun y => { y with st := .disabled, faultCause := 0, testPass := none })
      match a with
      | .transport _ =>
        if (List.finRange 4).any (fun n => s1.trans[n.val].ax.st == .fault) then .next s1
        else .next { s1 with trans := s1.trans.map (fun t => { t with faultHold := false }) }
      | _ => .next s1
    else .next ((s.refuseAxis a).logEv (srcAxis a) .axisRefused [0])
  else .next s

/-- AXIS_STOP (R206, R210): in PROFILE and GEAR the axis brakes to rest; GEAR ends. -/
def execAxisStop (n : Fin 4) (s : State) : Host.Outcome State Fault Refusal :=
  if !s.answers (.taxis n) then .next (s.absent (.taxis n) AXIS.stop.off) else
  let x := s.trans[n.val].ax
  if x.mode = 1 then .next (s.leaveMode n)
  else if x.mode = 0 ∧ x.st = .moving then
    .next (s.modTrans n (fun t => { t with ax := { t.ax with
      profile := some (planBrake (s.axPar (.transport n)) x.pos x.vel x.acc), stopping := true } }))
  else .next s

/-- The pricking that the PRICK table holds (Table 08-8). -/
def State.prickTable (s : State) (b : Blk) : List Seg :=
  (List.range (s.fld b SLSA.pcount)).map (fun i =>
    ⟨s.fld b (SLSA.prick_duration i), s.fldS b (SLSA.prick_position i), s.fldS b (SLSA.prick_velocity i)⟩)

/-- RUN_PRICK (R202): the host's pricking runs only while the head's tracking sequencer is OFF or FAILED; a pricking that R201
rejects, and a write in any other case, is refused. -/
def execRunPrick (a : AxisId) (s : State) : Host.Outcome State Fault Refusal :=
  if !s.answers (axisBlk a) then .next (s.absent (axisBlk a) AXIS.run_prick.off) else
  let go (g : HeadId) : State :=
    let x := s.axis a
    let l := s.prickTable (axisBlk a)
    let t := s.heads[g.val].trk.st
    if (t == .off || t == .failed) && (x.st == .hold || x.st == .moving) && !prickBad (s.axPar a) l then s.retarget a l
    else s.refuseAxis a
  match a with
  | .sled g => .next (go g)
  | .sa g => .next (go g)
  | .transport _ => .next s

/-- AXIS_TARGET_WRITE (R206, R207): starts or retargets a move; refused outside the limits, unhomed, held by a fault, or into an
interlocked bay (R199, R213, R214). -/
def execAxisTargetWrite (n : Fin 4) (target : BitVec 32) (s : State) : Host.Outcome State Fault Refusal :=
  if !s.answers (.taxis n) then .next (s.absent (.taxis n) AXIS.target.off) else
  let a := AxisId.transport n
  let s1 := s.setFld (.taxis n) AXIS.target target.toNat
  let t := s1.trans[n.val]
  let x := t.ax
  let par := s1.axPar a
  if target.toInt < par.lo ∨ par.hi < target.toInt then .next (s1.refuseAxis a)
  else if x.mode ≠ 0 then .next s1
  else if !(x.st == .hold || x.st == .moving) || !x.homed || t.faultHold then .next (s1.refuseAxis a)
  else
    let pr := planProfile par x.pos x.vel x.acc target.toInt
    if n = 2 ∧ s1.t2Blocked pr.reach.2 = true then .next ((s1.refuseAxis a).flag (.taxis n) AXIS.interlock)
    else .next (s1.modTrans n (fun y => { y with ax := { y.ax with st := .moving, cur := .run, profile := some pr } }))

/-- AXIS_MODE_WRITE (R199, R209, R501): an RW-I field; GEAR for T2 alone, in HOLD; unhomed axes refuse GEAR and STEPDIR. -/
def execAxisModeWrite (n : Fin 4) (mode : BitVec 2) (s : State) : Host.Outcome State Fault Refusal :=
  if !s.answers (.taxis n) then .next (s.absent (.taxis n) AXIS.CTRL_mode.off) else
  let a := AxisId.transport n
  let x := s.trans[n.val].ax
  if mode.toNat = x.mode then .next s
  else if x.st = .moving ∨ x.st = .homing then
    .next (s.violation (srcFunc 0) 1 (Blk.base (.taxis n)))
  else if mode = 3 then .next s
  else if mode ≠ 0 ∧ x.homed = false then .next (s.refuseAxis a)
  else if mode = 1 ∧ (n ≠ 2 ∨ x.st ≠ .hold) then .next (s.refuseAxis a)
  else
    .next ((s.setFld (.taxis n) AXIS.CTRL_mode mode.toNat).modTrans n (fun t => { t with
      anchor := x.pos * 4294967296, master := s.masterCount, p := 0, q := 1, fromP := 0, fromQ := 1, blendLen := 0,
      armed := false, remaining := 0, ax := { x with mode := mode.toNat, profile := none, velTarget := 0 } }))

/-- The ratio in force at x counts after the last change, over 2^32 (R210). -/
def ratioNow (t : Transport) (x : Int) : Int :=
  let r1 := t.p * 4294967296 / (max 1 t.q : Nat)
  let r0 := t.fromP * 4294967296 / (max 1 t.fromQ : Nat)
  if t.blendLen = 0 ∨ t.blendLen ≤ x.natAbs then r1 else r0 + (r1 - r0) * x.natAbs / (t.blendLen : Nat)

/-- A ratio change begins at the present master count (R210). -/
def State.beginRatio (s : State) : State :=
  let m := s.masterCount
  let b : Blk := .taxis 2
  let q := max 1 (s.fld b TAXIS.ratio_next_q)
  s.modTrans 2 (fun t => { t with
    anchor := gearTarget t (m - t.master), master := m, fromP := ratioNow t (m - t.master), fromQ := 4294967296,
    p := s.fldS b TAXIS.ratio_next_p, q := q, blendLen := s.fld b TAXIS.blend, armed := false })

/-- GEAR_ARM (R210): the change begins when the master count next equals switch_at. -/
def execGearArm (n : Fin 4) (s : State) : Host.Outcome State Fault Refusal :=
  if !s.answers (.taxis n) then .next (s.absent (.taxis n) TAXIS.arm.off) else
  if n = 2 ∧ s.trans[2].ax.mode = 1 then
    let s1 := s.modTrans 2 (fun t => { t with armed := true })
    if s.masterCount = s.fldS (.taxis 2) TAXIS.switch_at then .next s1.beginRatio else .next s1
  else .next s

/-- GEAR_ARM_NOW (R210): the change begins at once. -/
def execGearArmNow (n : Fin 4) (s : State) : Host.Outcome State Fault Refusal :=
  if !s.answers (.taxis n) then .next (s.absent (.taxis n) TAXIS.arm_now.off) else
  if n = 2 ∧ s.trans[2].ax.mode = 1 then .next s.beginRatio else .next s

/-! ### Encoder and step inputs -/

/-- The quadrature step from one line state to the next: +1 and −1 for one line, 0 for none, nothing where both change (R208). -/
def quadStep (a b a' b' : Bool) : Option Int :=
  if a = a' ∧ b = b' then some 0
  else if a ≠ a' ∧ b ≠ b' then none
  else if a ≠ a' then some (if a' = b then -1 else 1)
  else some (if b' = a then 1 else -1)

/-- The count changes by d; a switch of the gear begins when it comes to equal switch_at (R210). -/
def State.countEncoder (s : State) (i : Fin 2) (d : Int) : State :=
  let s1 := s.modEnc i (fun e => { e with count := e.count + BitVec.ofInt 32 d })
  let sel : Fin 2 := if s.fld (.taxis 2) TAXIS.enc_sel = 1 then 1 else 0
  if i = sel ∧ s1.trans[2].ax.mode = 1 ∧ s1.trans[2].armed = true ∧ s1.masterCount = s1.fldS (.taxis 2) TAXIS.switch_at
  then s1.beginRatio else s1

/-- An illegal transition: ERRORS counts it, and 16 within 1 ms while the encoder is a gear master end the gear (Table 08-5). -/
def State.encoderError (s : State) (i : Fin 2) : State :=
  let e := s.encs[i.val]
  let fresh : Bool := e.recentBegan + 1000000 ≤ s.time.localNs
  let n := if fresh then 1 else e.recent + 1
  let s1 := s.modEnc i (fun e => { e with
    errors := satInc 16 e.errors, recent := n, recentBegan := if fresh then s.time.localNs else e.recentBegan })
  let sel : Fin 2 := if s.fld (.taxis 2) TAXIS.enc_sel = 1 then 1 else 0
  if i = sel ∧ s1.trans[2].ax.mode = 1 ∧ 16 ≤ n then
    ((s1.leaveMode 2).flag (.taxis 2) AXIS.gear_fault).logEv (srcTransport (8 + i.val)) .gearFault [n]
  else s1

/-- ENCODER_EDGE (R208): the lines' new levels and the time since the previous edge of the line that changed; an edge sooner than
the filter is discarded. -/
def execEncoderEdge (i : Fin 2) (a b : Bool) (since : BitVec 32) (s : State) : Host.Outcome State Fault Refusal :=
  let e := s.encs[i.val]
  if s.fld (.enc i) ENC.enable = 0 then .next (s.modEnc i (fun e => { e with a := a, b := b }))
  else if since.toNat < 5 * s.fld (.enc i) ENC.filter then .next s
  else
    let s1 := s.modEnc i (fun e => { e with
      a := a, b := b,
      edgeA := if e.a = a then e.edgeA else s.time.localNs, edgeB := if e.b = b then e.edgeB else s.time.localNs })
    match quadStep e.a e.b a b with
    | none => .next (s1.encoderError i)
    | some d => .next (s1.countEncoder i (if s.fld (.enc i) ENC.invert = 1 then -d else d))

/-- STEP_EDGE (R211): an active edge moves 256 / 2^res microsteps in STEPDIR; every active edge is counted. -/
def execStepEdge (n : Fin 4) (level dir : Bool) (since : BitVec 32) (s : State) : Host.Outcome State Fault Refusal :=
  let b : Blk := .taxis n
  let active := level == (s.fld b TAXIS.step_edge == 0)
  if !active then .next s
  else
    let pos := dir != (s.fld b TAXIS.dir_invert == 1)
    let one : Int := if pos then 1 else -1
    let dist := one * (256 / 2 ^ (min 4 (s.fld b TAXIS.res)) : Nat)
    let s1 := s.modTrans n (fun t => { t with stepCount := t.stepCount + BitVec.ofInt 32 one })
    let t := s1.trans[n.val]
    if t.ax.mode = 2 ∧ (t.ax.st = .hold ∨ t.ax.st = .moving) ∧ t.faultHold = false then
      let iv := max 1 (min since.toNat (s.act b TAXIS.sd_timeout))
      let rem := t.remaining + dist
      let par := s.axPar (.transport n)
      .next (s1.modTrans n (fun t => { t with
        remaining := rem, stepInterval := iv,
        ax := { t.ax with
          st := .moving, cur := .run,
          velTarget := clampI (rem * 1000000 / (iv : Nat)) (-(par.vmax : Int)) par.vmax } }))
    else .next s1

/-- AXIS_COMMIT (R216): the axis group is captured and its set awaits the tick. -/
def execAxisCommit (a : AxisId) (s : State) : Host.Outcome State Fault Refusal :=
  if !s.answers (axisBlk a) then .next (s.absent (axisBlk a) AXIS.go.off) else
  .next (s.commitWith (tagAxis a) true (srcAxis a) none)

end Sys2Proof.Machine
end

