-- ==== Sys2Proof/Machine/Cache.lean ====
section
/-! DEFINITION. The context cache (R368–R379, R381): lookups, tree pseudo-LRU, the victim buffer, the streaming detector, operations, way
power and the enable. -/

namespace Sys2Proof.Machine

def State.modCache (s : State) (f : Cache → Cache) : State := { s with cache := f s.cache }

/-! ### Regions and lines (R368, R369) -/

/-- The first DRAM address of a region. -/
def State.regionBase (s : State) (i : Fin 3) : Nat := s.fld (.region i) REGION.base_hi * 2 ^ 32 + s.fld (.region i) REGION.base_lo * 64

/-- The region that holds an address. -/
def State.regionOf (s : State) (a : Nat) : Option (Fin 3) :=
  (List.finRange 3).find? (fun i => decide (s.regionBase i ≤ a) && decide (a < s.regionBase i + 64 * s.fld (.region i) REGION.lines))

/-- The set of a line (R369). -/
def setOf (line : Nat) : Nat := line % 4096

/-- The slot of set and way. -/
def slotAt (set way : Nat) : Nat := 16 * set + way

def Cache.at_ (c : Cache) (set way : Nat) : Option CLine := Tab.get? c.lines (slotAt set way)

/-- The way that holds a line. -/
def Cache.wayOf (c : Cache) (line : Nat) : Option Nat :=
  (List.range 16).find? (fun w => (c.at_ (setOf line) w).any (fun x => x.line == line))

def Cache.put (c : Cache) (way : Nat) (x : CLine) : Cache := { c with lines := Tab.put c.lines (slotAt (setOf x.line) way) x }

def Cache.drop (c : Cache) (set way : Nat) : Cache := { c with lines := Tab.erase c.lines (slotAt set way) }

/-- A way takes allocations: on, unlocked and not draining (R370). -/
def Cache.open_ (c : Cache) (way : Nat) : Bool := bitOf c.powered way && !bitOf c.locked way && !bitOf c.draining way

/-! ### Tree pseudo-LRU (R370) -/

/-- The tree after an access to a way: every node on its path points away from it. -/
def lruTouch (t way : Nat) : Nat :=
  ([3, 2, 1, 0].foldl (fun (p : Nat × Nat) b =>
    let d := way / 2 ^ b % 2
    (setBit p.1 p.2 (d == 0), 2 * p.2 + d)) (t, 1)).1

/-- The way that the tree points to among those that qualify, below a node that covers ways lo to lo + 2^n − 1. -/
def lruPick (t : Nat) (ok : Nat → Bool) : Nat → Nat → Nat → Option Nat
  | 0, _, lo => if ok lo then some lo else none
  | n + 1, node, lo =>
    let l := lruPick t ok n (2 * node) lo
    let r := lruPick t ok n (2 * node + 1) (lo + 2 ^ n)
    if bitOf t node then (match r with
      | some w => some w
      | none => l)
    else (match l with
      | some w => some w
      | none => r)

def Cache.touch (c : Cache) (set way : Nat) : Cache := { c with lru := Tab.put c.lru set (lruTouch (Tab.get 0 c.lru set) way) }

/-- The way that a miss takes: the lowest invalid one that qualifies, else by the tree (R370). -/
def Cache.victimWay (c : Cache) (set : Nat) : Option Nat :=
  match (List.range 16).find? (fun w => c.open_ w && (c.at_ set w).isNone) with
  | some w => some w
  | none => lruPick (Tab.get 0 c.lru set) c.open_ 4 1 0

/-! ### The victim buffer (R370, R371) -/

/-- The oldest write of the victim buffer is the one that has been issued (DEDUCED, log entry 44). -/
def issueFirst : List Victim → List Victim
  | [] => []
  | v :: r => { v with issued := true } :: r

/-- A line leaves its slot: a dirty one passes to the victim buffer. -/
def Cache.evict (c : Cache) (set way : Nat) : Cache :=
  match c.at_ set way with
  | none => c
  | some x =>
    let c1 := c.drop set way
    if x.dirty then { c1 with victims := issueFirst (c1.victims ++ [Victim.mk x.line x.data false false]) } else c1

/-- An allocation that would evict a dirty line waits while the victim buffer is full. -/
def Cache.waits (c : Cache) (set way : Nat) : Bool := (c.at_ set way).any (·.dirty) && decide (32 ≤ c.victims.length)

/-- The latest victim that holds a line. -/
def Cache.victimOf (c : Cache) (line : Nat) : Option Victim := c.victims.reverse.find? (fun v => v.line == line && !v.dropped)

/-! ### Accesses (R369–R372) -/

/-- A line's bytes with a store applied. -/
def patch (l : List Byte) (off : Nat) (d : List Byte) : List Byte := l.take off ++ d ++ l.drop (off + d.length)

/-- The stream of a client and region, after a store to a line: whether the store is a gap, and the run before it (R372). -/
def Cache.streamStep (c : Cache) (client : CacheClient) (region line len : Nat) : Bool × Nat × Cache :=
  let rest := c.streams.filter (fun x => !(x.client == client && x.region == region))
  match c.streams.find? (fun x => x.client == client && x.region == region) with
  | none => (true, 0, { c with streams := (Stream.mk client region line 0 false :: rest).take 16 })
  | some x =>
    let gap : Bool := !(line == x.last || line == x.last + 1)
    let run := if line = x.last then x.run else if line = x.last + 1 then x.run + 1 else 0
    (gap, x.run, { c with streams := (Stream.mk client region line run (decide (len ≤ run)) :: rest).take 16 })

/-- A load or store that hits: the line stays, or moves out of a way that drains (Table 14-2). -/
def State.cacheHit (s : State) (line way : Nat) (store : Bool) (off : Nat) (d : List Byte) : State :=
  let c := s.cache
  let set := setOf line
  match c.at_ set way with
  | none => s
  | some x =>
    let y : CLine := if store then { x with dirty := true, data := patch x.data off d } else x
    let moveTo := if bitOf c.draining way then c.victimWay set else none
    match moveTo with
    | some w => if c.waits set w then s.modCache (fun _ => (c.put way y).touch set way)
        else s.modCache (fun _ => (((c.drop set way).evict set w).put w y).touch set w)
    | none => s.modCache (fun _ => (c.put way y).touch set way)

/-- A line is allocated with bytes and a dirty bit; it waits where the victim buffer is full, the request then having no effect. -/
def State.cacheFill (s : State) (line : Nat) (dirty : Bool) (data : List Byte) : State :=
  match s.cache.victimWay (setOf line) with
  | none => s
  | some w =>
    if s.cache.waits (setOf line) w then s
    else s.modCache (fun c => ((c.evict (setOf line) w).put w ⟨line, dirty, data⟩).touch (setOf line) w)

/-- A miss for a line in the victim buffer: the write not yet issued is cancelled and the line is dirty again, one issued completes and the
line is clean, unless this is a store (R371). -/
def State.victimHit (s : State) (v : Victim) (store : Bool) (off : Nat) (d : List Byte) : State :=
  let s1 := s.incSat .ccache CCACHE.victim_hits
  let s2 := if v.issued then s1 else s1.modCache (fun c => { c with victims := issueFirst (c.victims.erase v) })
  s2.cacheFill v.line (store || !v.issued) (if store then patch v.data off d else v.data)

/-- A miss: from the victim buffer, around the cache for a streaming store, or filled from DRAM (R369–R372). -/
def State.cacheMiss (s : State) (line : Nat) (store around : Bool) (off : Nat) (d : List Byte) : State :=
  match s.cache.victimOf line with
  | some v => s.victimHit v store off d
  | none =>
    if store ∧ around = true then (s.store (64 * line + off) d).incSat .ccache CCACHE.stream_bypass
    else
      let x := s.load (64 * line) 64
      s.cacheFill line store (if store then patch x off d else x)

/-- An access within a region, through the cache. -/
def State.cacheThrough (s : State) (c : CacheClient) (store : Bool) (line off : Nat) (d : List Byte) (r : Fin 3) : State :=
  let len := s.fld1 .ccache CCACHE.stream_len
  let t := if store then s.cache.streamStep c r.val line len else (true, 0, s.cache)
  let s1 := s.modCache (fun _ => t.2.2)
  match s1.cache.wayOf line with
  | some w => (s1.incSat .ccache CCACHE.hits).cacheHit line w store off d
  | none => (s1.incSat .ccache CCACHE.misses).cacheMiss line store (!t.1 && decide (len ≤ t.2.1)) off d

/-- The address of an access is in a region, the cache is enabled and its domain is on. -/
def State.cached (s : State) (a : Nat) : Option (Fin 3) :=
  if s.fld .ccache CCACHE.enable = 0 ∨ s.pdOn 18 = false then none else s.regionOf a

/-- An access to an address: outside the regions, and with the cache disabled, it bypasses the cache. -/
def State.cacheAccess (s : State) (c : CacheClient) (store : Bool) (a : Nat) (d : List Byte) : State :=
  match s.cached a with
  | none => if store then s.store a d else s
  | some r => s.cacheThrough c store (a / 64) (a % 64) d r

/-- CACHE_ACCESS (R368–R372, R378): a load or store of a client within one line. -/
def execCacheAccess (c : CacheClient) (store : Bool) (addr : BitVec 37) (data : List Byte) (s : State) : Host.Outcome State Fault Refusal :=
  .next (s.cacheAccess c store addr.toNat (data.take (64 - addr.toNat % 64)))

/-- VICTIM_WRITEBACK_DONE (R370, R371): the victim's bytes are in DRAM. -/
def execVictimWritebackDone (addr : BitVec 37) (s : State) : Host.Outcome State Fault Refusal :=
  match s.cache.victims.find? (fun v => v.line == addr.toNat / 64) with
  | none => .next s
  | some v =>
    .next (((s.modCache (fun c => { c with victims := issueFirst (c.victims.erase v) })).store (64 * v.line) v.data).incSat .ccache
      CCACHE.writebacks)

/-- STREAM_GAP_TIMEOUT (R372): gap_time without a store is a gap. -/
def execStreamGapTimeout (c : CacheClient) (region : Fin 3) (s : State) : Host.Outcome State Fault Refusal :=
  .next (s.modCache (fun x => { x with streams := x.streams.map (fun y =>
    if y.client = c ∧ y.region = region.val then { y with run := 0, bypass := false } else y) }))

/-! ### Operations (R373–R376) -/

/-- The range of OP_ADDR and OP_LEN, as first line and count. -/
def State.opRange (s : State) : Nat × Nat :=
  (s.fld .ccache CCACHE.op_addr_hi * 2 ^ 26 + s.fld .ccache CCACHE.op_addr_lo, s.fld .ccache CCACHE.op_len)

/-- How many of 16 ways a mask names. -/
def waysIn (m : Nat) : Nat := ((List.range 16).filter (bitOf m)).length

/-- The limits of R374 hold for a lock mask, the ways on and those that drain. -/
def lockOk (locked powered draining : Nat) : Bool :=
  decide (waysIn locked ≤ 12) && decide (4 ≤ ((List.range 16).filter (fun w => bitOf powered w && !bitOf locked w && !bitOf draining w)).length)

/-- An operation starts, or is refused while another runs (R375). -/
def State.startOp (s : State) (o : CacheOp) (ok : Bool) : State :=
  if s.cache.op.isSome || !ok then s.flag .ccache CCACHE.op_refused else s.modCache (fun c => { c with op := some o })

/-- CACHE_OP_PRELOAD (R373, R374). -/
def execCacheOpPreload (ways : BitVec 16) (lock : Bool) (s : State) : Host.Outcome State Fault Refusal :=
  if !s.answers .ccache then .next (s.absent .ccache CCACHE.kind.off) else
  let r := s.opRange
  .next (s.startOp (.preload r.1 r.2 ways.toNat lock) (!lock || lockOk (s.cache.locked ||| ways.toNat) s.cache.powered s.cache.draining))

/-- CACHE_OP_CLEAN (R375). -/
def execCacheOpClean (s : State) : Host.Outcome State Fault Refusal :=
  if !s.answers .ccache then .next (s.absent .ccache CCACHE.kind.off) else
  .next (s.startOp (.clean s.opRange.1 s.opRange.2) true)

/-- CACHE_OP_INVALIDATE (R375). -/
def execCacheOpInvalidate (s : State) : Host.Outcome State Fault Refusal :=
  if !s.answers .ccache then .next (s.absent .ccache CCACHE.kind.off) else
  .next (s.startOp (.invalidate s.opRange.1 s.opRange.2) true)

/-- CACHE_CLEAN_ALL (Table 14-5). -/
def execCacheCleanAll (s : State) : Host.Outcome State Fault Refusal :=
  if !s.answers .ccache then .next (s.absent .ccache CCACHE.clean_all.off) else
  .next (s.startOp .cleanAll true)

/-- A dirty line that `sel` names is written back; the line is kept. -/
def State.cleanLines (s : State) (sel : Nat → CLine → Bool) : State :=
  let l := s.cache.lines.filter (fun p => p.2.dirty && sel p.1 p.2)
  let s1 := l.foldl (fun (t : State) p => (t.store (64 * p.2.line) p.2.data).incSat .ccache CCACHE.writebacks) s
  s1.modCache (fun c => { c with lines := c.lines.map (fun p => if sel p.1 p.2 then (p.1, { p.2 with dirty := false }) else p) })

/-- Dirty lines are written back, and every line that `sel` names is dropped. -/
def State.dropLines (s : State) (sel : Nat → CLine → Bool) : State :=
  (s.cleanLines sel).modCache (fun c => { c with lines := c.lines.filter (fun p => !sel p.1 p.2) })

/-- A line lies in a range of lines. -/
def inLines (base n line : Nat) : Bool := decide (base ≤ line) && decide (line < base + n)

/-- Victims in a range are written to DRAM, and no copy remains (Table 14-3). -/
def State.flushVictims (s : State) (base n : Nat) : State :=
  let l := s.cache.victims.filter (fun v => inLines base n v.line)
  let s1 := l.foldl (fun (t : State) v => (t.store (64 * v.line) v.data).incSat .ccache CCACHE.writebacks) s
  s1.modCache (fun c => { c with victims := issueFirst (c.victims.filter (fun v => !inLines base n v.line)) })

/-- A line is preloaded into a free named way of its set, moved there with its dirty state where another way holds it; else it is counted
(R373). -/
def State.preloadLine (s : State) (ways line : Nat) : State :=
  let c := s.cache
  let set := setOf line
  let named (w : Nat) : Bool := bitOf ways w && bitOf c.powered w && !bitOf c.draining w
  let free := (List.range 16).find? (fun w => named w && (c.at_ set w).isNone)
  match c.wayOf line with
  | some w =>
    if named w then s
    else (match free, c.at_ set w with
      | some n, some x => s.modCache (fun c => ((c.drop set w).put n x).touch set n)
      | _, _ => s.incSat .ccache CCACHE.overflow)
  | none =>
    match free with
    | none => s.incSat .ccache CCACHE.overflow
    | some n =>
      match c.victimOf line with
      | some v =>
        s.modCache (fun c => (({ c with victims := if v.issued then c.victims else issueFirst (c.victims.erase v) }).put n
          ⟨line, !v.issued, v.data⟩).touch set n)
      | none => s.modCache (fun c => (c.put n ⟨line, false, s.load (64 * line) 64⟩).touch set n)

/-- CACHE_OP_DONE (R373–R376): what the operation does, and its end. -/
def execCacheOpDone (s : State) : Host.Outcome State Fault Refusal :=
  let s1 := s.modCache (fun c => { c with op := none })
  match s.cache.op with
  | none => .next s
  | some (.preload base n ways lock) =>
    let s2 := (List.range n).foldl (fun t i => t.preloadLine ways (base + i)) s1
    .next (if lock then s2.modCache (fun c => { c with locked := c.locked ||| ways }) else s2)
  | some (.clean base n) => .next (s1.cleanLines (fun _ x => inLines base n x.line))
  | some (.invalidate base n) => .next ((s1.dropLines (fun _ x => inLines base n x.line)).flushVictims base n)
  | some .cleanAll => .next (s1.cleanLines (fun _ _ => true))

/-- CACHE_UNLOCK (R374): the named ways are ordinary at once, their lines kept. -/
def execCacheUnlock (ways : BitVec 16) (s : State) : Host.Outcome State Fault Refusal :=
  if !s.answers .ccache then .next (s.absent .ccache CCACHE.ways.off) else
  .next (s.modCache (fun c => { c with locked := clearBits c.locked ways.toNat }))

/-! ### Way power and the enable (R377, R378) -/

/-- A way that starts to drain leaves the mask of a preload (Table 14-3). -/
def CacheOp.without (o : CacheOp) (way : Nat) : CacheOp :=
  match o with
  | .preload b n w l => .preload b n (setBit w way false) l
  | o => o

/-- One bit of WAY_POWER.on: a clear that R377 rejects sets commit_error; one that it accepts starts the drain; a set powers the way up. -/
def State.wayPower (s : State) (i : Nat) (on : Bool) : State :=
  let w := 8 + i
  let c := s.cache
  let cur := bitOf (s.fld .ccache CCACHE.way_on) i
  if on = cur then s
  else if on then
    (s.setFld .ccache CCACHE.way_on (setBit (s.fld .ccache CCACHE.way_on) i true)).modCache (fun c => { c with
      powered := setBit c.powered w true, draining := setBit c.draining w false })
  else if bitOf c.locked w || !lockOk c.locked c.powered (setBit c.draining w true) then s.flag .ccache CCACHE.commit_error
  else
    (s.setFld .ccache CCACHE.way_on (setBit (s.fld .ccache CCACHE.way_on) i false)).modCache (fun c => { c with
      draining := setBit c.draining w true, op := c.op.map (fun o => o.without w) })

/-- WAY_POWER_WRITE (R377). -/
def execWayPowerWrite (on : BitVec 8) (s : State) : Host.Outcome State Fault Refusal :=
  if !s.answers .ccache then .next (s.absent .ccache CCACHE.way_on.off) else
  .next ((List.range 8).foldl (fun t i => t.wayPower i (on.getLsbD i)) s)

/-- WAY_DRAIN_DONE (Table 14-2): the lines not yet moved are written back and dropped, and the way is off. -/
def execWayDrainDone (way : Fin 16) (s : State) : Host.Outcome State Fault Refusal :=
  if bitOf s.cache.draining way.val then
    .next ((s.dropLines (fun k _ => k % 16 == way.val)).modCache (fun c => { c with
      draining := setBit c.draining way.val false, powered := setBit c.powered way.val false }))
  else .next s

/-- CACHE_ENABLE_WRITE (R378): with 0 every way is cleaned, invalidated and unlocked. -/
def execCacheEnableWrite (v : Bool) (s : State) : Host.Outcome State Fault Refusal :=
  if !s.answers .ccache then .next (s.absent .ccache CCACHE.enable.off) else
  let s1 := s.setFld .ccache CCACHE.enable (b2n v)
  if v then .next s1 else .next ((s1.dropLines (fun _ _ => true)).modCache (fun c => { c with locked := 0 }))

/-- CCACHE_CLEAR_STATS (Table 14-5). -/
def execCcacheClearStats (s : State) : Host.Outcome State Fault Refusal :=
  if !s.answers .ccache then .next (s.absent .ccache CCACHE.clear_stats.off) else
  .next ([CCACHE.hits, CCACHE.misses, CCACHE.writebacks, CCACHE.victim_hits, CCACHE.stream_bypass, CCACHE.overflow].foldl
    (fun t f => t.setSta .ccache f 0) s)

end Sys2Proof.Machine
end

