-- ==== Sys2Proof/Machine/DramOps.lean ====
section
/-! DEFINITION. The DRAM fitted and its addresses (R382–R384), and the ranges that lie in it. -/

namespace Sys2Proof.Machine

/-- Bytes of a channel, as CONFIG describes its devices (Table 15-1). -/
def State.chanBytes (s : State) (c : DramChan) : Nat :=
  let b := Blk.dramc c
  let gib := (s.fld b DRAMC.ranks + 1) * (16 + 8 * s.fld b DRAMC.density)
  2 ^ 30 * (if s.fld b DRAMC.width = 0 then 2 * gib else gib)

/-- The offset of a DRAM address within its channel (R384). -/
def dramOffset (a : Nat) : Nat := a % 2 ^ 36

/-- An address in a hole (R384). -/
def State.hole (s : State) (a : Nat) : Bool := decide (s.chanBytes (addrChan a) ≤ dramOffset a)

/-- A range lies in the DRAM fitted to one channel. -/
def State.fitted (s : State) (a n : Nat) : Bool :=
  decide (a < 2 ^ 37) && decide (dramOffset a + n ≤ s.chanBytes (addrChan a))

/-- Two ranges overlap. -/
def rangesMeet (a n b m : Nat) : Bool := decide (a < b + m) && decide (b < a + n)

/-- The bytes of a pool. -/
def State.poolBytes (s : State) (p : Fin 16) : Nat := s.fld (.pool p) POOL.count * s.poolSize p

/-- Where a pool's buffers and their copies start (R357, R397). -/
def State.poolBases (s : State) (p : Fin 16) : List Nat :=
  if s.fld (.pool p) POOL.dual = 1 then [s.poolBase p, s.poolBase p + 2 ^ 36] else [s.poolBase p]

/-- Two pools overlap, in their buffers or a copy. -/
def State.poolsMeet (s : State) (p q : Fin 16) : Bool :=
  (s.poolBases p).any (fun a => (s.poolBases q).any (fun b => rangesMeet a (s.poolBytes p) b (s.poolBytes q)))

/-- A pool overlaps a context-cache region. -/
def State.poolMeetsRegion (s : State) (p : Fin 16) (i : Fin 3) : Bool :=
  (s.poolBases p).any (fun a => rangesMeet a (s.poolBytes p) (s.regionBase i) (64 * s.fld (.region i) REGION.lines))

end Sys2Proof.Machine
end

