-- ==== Sys2Proof/Machine/BufferCmds.lean ====
section
/-! DEFINITION. The buffer-pool commands (R356–R366, R380): release and share, the quota and the enable of a pool. -/

namespace Sys2Proof.Machine

/-- BUFFER_RELEASE (R365, R366). -/
def execBufferRelease (p : Fin 16) (buf : BitVec 24) (o : Owner) (s : State) : Host.Outcome State Fault Refusal :=
  match s.releaseBuf ⟨p, buf.toNat⟩ o with
  | some t => .next t
  | none => .next (s.releaseViolation (s.bufAddr ⟨p, buf.toNat⟩))

/-- A buffer that a share reaches: in the count mode its count rises, in the owner mode it gains a name (R365). -/
def Buf.share (b : Buf) (countMode : Bool) (o : Owner) : Buf :=
  if countMode then { b with count := b.count + 1 } else if b.owners.contains o then b else { b with owners := b.owners ++ [o] }

/-- BUFFER_SHARE (R365, R366): a share at 255, or of a buffer that is not allocated, fails. -/
def execBufferShare (p : Fin 16) (buf : BitVec 24) (o : Owner) (s : State) : Host.Outcome State Fault Refusal :=
  let ref : BufRef := ⟨p, buf.toNat⟩
  let mode : Bool := s.fld (.pool p) POOL.release == 1
  match s.bufs.find? (fun b => b.ref == ref) with
  | none => .next (s.releaseViolation (s.bufAddr ref))
  | some b =>
    if mode ∧ 255 ≤ b.count then .next (s.releaseViolation (s.bufAddr ref))
    else .next { s with bufs := s.bufs.map (fun x => if x.ref = ref then x.share mode o else x) }

/-- QUOTA_LIMIT_WRITE (R356, R362): the commands held on the quota are checked again. -/
def execQuotaLimitWrite (r : ReqId) (limit : BitVec 24) (s : State) : Host.Outcome State Fault Refusal :=
  if !s.answers (.quota r) then .next (s.absent (.quota r) (QUOTA.limit r.val).off) else
  .next ((s.setFld (.quota r) (QUOTA.limit r.val) limit.toNat).retryQuota r.val)

/-- The checks of R358. -/
def State.poolOk (s : State) (p : Fin 16) : Bool :=
  let b := Blk.pool p
  let durable := bitOf (s.fld b POOL.use_mask) 1 || bitOf (s.fld b POOL.use_mask) 2
  decide (12 ≤ s.fld b POOL.log2_size) && decide (s.fld b POOL.log2_size ≤ 22)
    && s.fld b POOL.count != 0 && (s.poolBases p).all (fun a => s.fitted a (s.poolBytes p))
    && !(List.finRange 16).any (fun q => q != p && s.fld (.pool q) POOL.enable == 1 && s.poolsMeet p q)
    && !(List.finRange 3).any (s.poolMeetsRegion p)
    && s.fld b POOL.use_mask != 0
    && !(durable && (s.fld b POOL.dual == 0 || s.fld b POOL.release == 0))

/-- The commands that wait on a pool fail (Table 14-3). -/
def State.failWaiting (s : State) (p : Fin 16) : State :=
  ((s.poolWaits.filter (fun w => w.pool == p)).map (·.cmd)).foldl (fun t id => (t.dropMessages id).allocFail id) s

/-- POOL_ENABLE_WRITE (R358, R359): an enable that fails a check leaves the pool disabled; a disable fails its waiting parts. -/
def execPoolEnableWrite (p : Fin 16) (v : Bool) (s : State) : Host.Outcome State Fault Refusal :=
  if !s.answers (.pool p) then .next (s.absent (.pool p) POOL.enable.off) else
  let on : Bool := s.fld (.pool p) POOL.enable == 1
  if v then
    if on then .next s
    else if s.poolOk p then .next (s.setFld (.pool p) POOL.enable 1)
    else .next ((s.setFld (.pool p) POOL.enable 0).flag .bufpool BUFPOOL.enable_refused)
  else .next ((s.setFld (.pool p) POOL.enable 0).failWaiting p)

/-- BUFPOOL_CLEAR_STATS (R380): the counters clear, and each PEAK is what its requester holds. -/
def execBufpoolClearStats (s : State) : Host.Outcome State Fault Refusal :=
  if !s.answers .bufpool then .next (s.absent .bufpool BUFPOOL.clear_stats.off) else
  let s1 := (List.finRange 16).foldl (fun t p => t.setSta (.pool p) POOL.empty_events 0) s
  .next { s1 with quotas := s1.quotas.map (fun e => (e.1, { e.2 with peak := e.2.held })) }

end Sys2Proof.Machine
end

