-- ==== Sys2Proof/Machine/EngineOps.lean ====
section
/-! DEFINITION. The arithmetic of a control engine (R92–R99), its states (R101, R102) and its spares (R109–R112). -/

namespace Sys2Proof.Machine

/-! ### The biquad (R93–R97) -/

/-- The five coefficients' mantissas and the exponent of a stage (R93). -/
structure Coefs where
  b0 : Int
  b1 : Int
  b2 : Int
  a1 : Int
  a2 : Int
  e : Int
deriving DecidableEq, Repr

/-- A state's value scaled by 2^66, the common scale of products and states. -/
def stateWide (x : BitVec 36) : Int := x.toInt * 2 ^ 34

/-- A product of a mantissa at exponent e and a Q0.17 signal, scaled by 2^66 (R93). -/
def prodWide (m e x : Int) : Int := m * x * 2 ^ (e + 32).toNat

/-- A sum rounded to Q0.17, ties to even, and saturated; the Bool says that it was at or beyond full scale (R95, R96). -/
def outQ17 (n : Int) : Q17 × Bool :=
  let y := roundHE n (2 ^ 49)
  (satQ17 y, decide (131072 ≤ y) || decide (y ≤ -131072))

/-- A sum rounded to Q3.32, ties to even, and saturated; the Bool says that it was beyond the range (R95, R96). -/
def stateQ332 (n : Int) : BitVec 36 × Bool :=
  let y := roundHE n (2 ^ 34)
  (BitVec.ofInt 36 (clampI y (-2 ^ 35) (2 ^ 35 - 1)), decide (2 ^ 35 ≤ y) || decide (y < -2 ^ 35))

/-- The result of one biquad: its output, its states, and whether output or state saturated. -/
structure BiquadOut where
  y : Q17
  st : Biquad
  sat : Bool
deriving DecidableEq, Repr

/-- One stage in transposed direct form II (R97); `hold y` says that the states are not updated (R98). -/
def biquad (c : Coefs) (x : Q17) (st : Biquad) (hold : Q17 → Bool) : BiquadOut :=
  let o := outQ17 (prodWide c.b0 c.e x.toInt + stateWide st.s1)
  if hold o.1 then ⟨o.1, st, o.2⟩
  else
    let n1 := stateQ332 (prodWide c.b1 c.e x.toInt - prodWide c.a1 c.e o.1.toInt + stateWide st.s2)
    let n2 := stateQ332 (prodWide c.b2 c.e x.toInt - prodWide c.a2 c.e o.1.toInt)
    ⟨o.1, ⟨n1.1, n2.1⟩, o.2 || n1.2 || n2.2⟩

/-! ### The program (R97–R99) -/

/-- The committed set of a loop. -/
structure EngSet where
  stages : List Coefs       -- stage_count of them
  notch : Option Coefs
  rcGain : Int
  rcExp : Int
  rcOn : Bool
  awMask : Nat
  slew : Int
  hi : Int
  lo : Int
deriving DecidableEq, Repr

/-- The coefficients of stage st, as committed. -/
def State.stageCoefs (s : State) (b : Blk) (st : Nat) : Coefs :=
  ⟨s.actS b (ENG.stage_coef st 0), s.actS b (ENG.stage_coef st 1), s.actS b (ENG.stage_coef st 2),
    s.actS b (ENG.stage_coef st 3), s.actS b (ENG.stage_coef st 4), s.actS b (ENG.stage_exp st)⟩

/-- The committed set of loop l of head g. -/
def State.engSet (s : State) (g : HeadId) (l : Fin 6) : EngSet :=
  let b := engBlk g l
  { stages := (List.range (min 8 (s.act b ENG.stage_count))).map (s.stageCoefs b)
    notch := if s.act b ENG.notch_enable = 1 then
        some ⟨s.actS b (ENG.notch_coef 0), s.actS b (ENG.notch_coef 1), s.actS b (ENG.notch_coef 2),
          s.actS b (ENG.notch_coef 3), s.actS b (ENG.notch_coef 4), s.actS b ENG.notch_exp⟩ else none
    rcGain := s.actS b ENG.rc_gain
    rcExp := s.actS b ENG.rc_exp
    rcOn := s.act b ENG.rc_enable == 1 && decide (l.val < 3)
    awMask := s.act b ENG.aw_mask
    slew := s.actS b ENG.slew
    hi := s.actS b ENG.limit_hi
    lo := s.actS b ENG.limit_lo }

/-- The stages in order, from stage i: the output, the new states and the stages that saturated (R97, R98). -/
def runStages (aw : Nat) (clampDir : Int) : List Coefs → Nat → Q17 → Vector Biquad 8 → Nat → Q17 × Vector Biquad 8 × Nat
  | [], _, x, st, sat => (x, st, sat)
  | c :: r, i, x, st, sat =>
    if h : i < 8 then
      let o := biquad c x st[i] (fun y => bitOf aw i && decide (clampDir ≠ 0) && decide (y.toInt.sign = clampDir))
      runStages aw clampDir r (i + 1) o.y (st.set i o.st) (if o.sat then sat ||| 2 ^ i else sat)
    else (x, st, sat)

/-- One sample of the program (R97), from the frozen input, the runout value and the loop's states. -/
def compute (e : EngSet) (l : LoopSt) (runout : Int) : Sample :=
  let p := runStages e.awMask l.clampDir e.stages 0 l.inp l.stages 0
  let u1 : Q17 := if e.rcOn then satQ17 (p.1.toInt + roundHE (e.rcGain * runout * 2 ^ (e.rcExp + 32).toNat) (2 ^ 49)) else p.1
  let n : BiquadOut := match e.notch with
    | some c => biquad c u1 l.notch (fun _ => false)
    | none => ⟨u1, l.notch, false⟩
  let u := n.y.toInt
  let v := clampI u (l.prevOut.toInt - e.slew) (l.prevOut.toInt + e.slew)
  let o := clampI v e.lo e.hi
  ⟨BitVec.ofInt 18 o, p.2.1, n.st, (u - o).sign, p.2.2, n.sat⟩

/-! ### Driving and commands -/

/-- The sample of the previous strobe is driven (R90). -/
def LoopSt.drive (l : LoopSt) : LoopSt :=
  match l.sample with
  | none => l
  | some r => { l with out := r.out, prevOut := r.out, stages := r.stages, notch := r.notch, clampDir := r.clampDir, sample := none }

/-- States cleared (R105, Table 04-2). -/
def LoopSt.clear (l : LoopSt) : LoopSt :=
  { l with stages := Vector.replicate 8 Biquad.zero, notch := Biquad.zero, clampDir := 0 }

/-- IDLE: output 0, states cleared (Table 04-2). -/
def LoopSt.toIdle (l : LoopSt) : LoopSt := { l.clear with st := .idle, out := 0, prevOut := 0, sample := none, cmd := none, ovr := 0 }

/-- A sequencer command at a sample boundary (Table 04-2): from IDLE only with `may`, enable = 1 and factory_set = 0. -/
def LoopSt.apply (l : LoopSt) (may : Bool) : LoopSt :=
  match l.cmd with
  | none => l
  | some c =>
    match l.st with
    | .idle =>
      if !may then { l with cmd := none }
      else match c with
        | .idle => { l with cmd := none }
        | .run _ p => { l.clear with st := .run, cmd := none, prevOut := p.getD l.out }
        | .hold => { l with st := .hold, cmd := none }
        | .override v => { l with st := .override, ovr := v, cmd := none }
    | .run | .hold | .override =>
      match c with
      | .idle => l.toIdle
      | .run clear p =>
        let l1 := if clear then l.clear else l
        { l1 with st := .run, cmd := none, prevOut := p.getD (if l.st = .run then l.prevOut else l.out) }
      | .hold => { l with st := .hold, cmd := none, sample := none }
      | .override v => { l with st := .override, ovr := v, cmd := none, sample := none }
    | _ => { l with cmd := none }

/-! ### Spares (R109–R112) -/

/-- An engine of the bay runs a loop, or a move claims it. -/
def State.engBusy (s : State) (b : BayId) (phys : Nat) : Bool :=
  (List.finRange 2).any (fun h =>
    let x := s.heads[(headOf b h).val]
    x.loops.any (fun l => l.runner == phys) || (match x.move with
      | some m => m.toEng == phys
      | none => false))

/-- The head's slot engine is in SPARE. -/
def State.slotFree (s : State) (g : HeadId) : Bool :=
  let h := s.heads[g.val]
  !h.slotOff && !s.engBusy (bayOf g) h.slot && !h.retired.any (fun r => r.phys == h.slot)

/-- The other head of the bay. -/
def otherHead (g : HeadId) : HeadId := headOf (bayOf g) (if g.val % 2 = 0 then 1 else 0)

/-- The spare that a move takes: the head's own ENG[6], else the other head's (R109). -/
def State.chooseSpare (s : State) (g : HeadId) : Option HeadId :=
  if s.slotFree g then some g else if s.slotFree (otherHead g) then some (otherHead g) else none

/-- A spare is claimed: the first reserve spare of its head takes the slot (R112). -/
def State.claimSpare (s : State) (own : HeadId) : State :=
  s.modHead own (fun h => match h.reserve with
    | [] => h
    | r :: rest => { h with slot := r, reserve := rest })

/-- A move begins (Table 04-3, steps 1 and 2): the committed set, states and last output are the loop's own in this model, so the
copy is the change of runner. `driving` is the move of R468, whose original engine drives on. -/
def State.beginMove (s : State) (g : HeadId) (l : Fin 6) (driving : Bool) : State :=
  match s.chooseSpare g with
  | none => s
  | some own =>
    let spare := s.heads[own.val].slot
    let s1 := s.modHead g (fun h => { h with
      move := some ⟨l, (h.loops[l.val]).runner, spare, 0, driving⟩ })
    (s1.modLoop g l (fun x => { x with
      misses := [], needSpare := false, sample := if driving then x.sample else none })).claimSpare own

/-- Whether a loop's third miss asks for a spare that it may take: in RUN, spare_permit = 1, no move under way (R109, Table 04-4). -/
def State.mayMove (s : State) (g : HeadId) (l : Fin 6) : Bool :=
  let h := s.heads[g.val]
  let x := h.loops[l.val]
  x.needSpare && x.st == .run && h.move.isNone && s.fld (engBlk g l) ENG.spare_permit == 1

/-- The loops that asked, in the order of Table 04-4: focus, tracking, skew, tilt, SA, sled-follow. -/
def spareOrder : List (Fin 6) := [0, 1, 3, 2, 4, 5]

/-- The loop's proactive move (R468) gives way to the move of R111, which takes the spare claimed (Table 19-5). -/
def State.overtakeMove (s : State) (g : HeadId) (l : Fin 6) : State :=
  match s.heads[g.val].move with
  | none => s
  | some m =>
    if m.driving && m.loop == l && (s.heads[g.val].loops[l.val]).needSpare then
      (s.modHead g (fun h => { h with move := some { m with strobes := 0, driving := false } })).modLoop g l
        (fun x => { x with misses := [], needSpare := false, sample := none })
    else s

/-- Spares are given to the loops that asked; a loop that gets none stays on its engine (R110). -/
def State.giveSpares (s : State) (g : HeadId) : State :=
  let s1 := spareOrder.foldl (fun (t : State) l => if t.mayMove g l then t.beginMove g l false else t.overtakeMove g l) s
  s1.modHead g (fun h => { h with loops := h.loops.map (fun x => { x with needSpare := false }) })

/-- A move goes on by one strobe; at the fourth (10,000 ns) the original engine enters RETIRED, the event is logged and STATUS is
updated (Table 04-3, step 5). -/
def State.stepMove (s : State) (g : HeadId) : State :=
  match s.heads[g.val].move with
  | none => s
  | some m =>
    if m.strobes + 1 < 4 then s.modHead g (fun h => { h with move := some { m with strobes := m.strobes + 1 } })
    else
      let src := srcHead ⟨m.fromEng / 7 % 16, by omega⟩ (m.fromEng % 7)
      let e := s.resError src
      let own : HeadId := ⟨m.fromEng / 7 % 16, by omega⟩
      let s1 := (e.2.modLoop g m.loop (fun x => { x with runner := m.toEng, onSpare := true })).modHead g
        (fun h => { h with move := none })
      let s2 := s1.modHead own (fun h => { h with retired := ⟨m.fromEng, e.1⟩ :: h.retired })
      (s2.incSat (engBlk g m.loop) ENG.move_count).logEv (srcHead g m.loop.val) .moveToSpare [m.fromEng, m.toEng]

/-- A loop computes no sample at this strobe because of a move (Table 04-3, steps 1 to 3). -/
def State.moveHolds (s : State) (g : HeadId) (l : Fin 6) : Bool :=
  match s.heads[g.val].move with
  | some m => m.loop == l && decide (m.strobes < 2) && !m.driving
  | none => false

end Sys2Proof.Machine
end

