-- ==== Sys2Proof/Machine/SessionOps.lean ====
section
/-! DEFINITION. The spindle as the bay sequencer uses it: targets, grants, the stop report, write sessions and recovery
(R172, R179–R183, R188, R253). -/

namespace Sys2Proof.Machine

def srcSpindle (b : BayId) : BitVec 16 := srcBay b 0

/-- The two heads of a bay. -/
def bayHeads (b : BayId) : List HeadId := [headOf b 0, headOf b 1]

/-- A fold over the heads of a bay. -/
def State.eachHead (s : State) (b : BayId) (f : State → HeadId → State) : State := (bayHeads b).foldl f s

def State.spindle (s : State) (b : BayId) : Spindle := s.bays[b.val].spindle

/-- A command that the drive refuses: the flag and the log (R172, R174, R180, R189). -/
def State.spindleRefuse (s : State) (b : BayId) : State :=
  (s.flag (.spindle b) SPINDLE.cmd_refused).logEv (srcSpindle b) .spindleRefused []

/-- The target in 0.1 rpm. -/
def State.targetTenths (s : State) (b : BayId) : Int := 10 * (s.fld (.spindle b) SPINDLE.rpm : Int)

/-- Leaving any state clears at_speed (R179), and the speed limit of R169. -/
def Spindle.go (x : Spindle) (st : SpState) : Spindle :=
  { x with st := st, atSpeed := false, revGood := 0, revArmed := false, revAngle := 0, revCount := 0, iErr := 0, limited := false }

/-! ### The stop report (R188) -/

/-- The spindle is reported stopped: every focus sequencer that is not in OFF enters FAILED with cause 3 (Table 05-4), and a write session
ends, its grant returned at once (Table 10-1). -/
def State.spindleStopped (s : State) (b : BayId) : State :=
  let s1 := s.eachHead b (fun t g => if t.focState g = .off then t else t.focFail g 3)
  if s1.bays[b.val].sess = .read then s1
  else (s1.modBay b (fun x => { x with sess := .read })).returnGrant .write b.val

/-- The drive enters STOP (R188); it goes on as asked. -/
def State.spindleStop (s : State) (b : BayId) (next fault : Bool) (cause : BitVec 4) : State :=
  let s1 := s.modSpindle b (fun x => { x.go .stop with
    stopNext := next, stopFault := fault, faultCause := if fault then cause else x.faultCause, idRef := 0, iqRef := 0,
    grantWait := false, regen := s.fld (.spindle b) SPINDLE.regen_enable == 1 })
  let s2 := s1.spindleStopped b
  if next then s2 else s2.returnGrant .spin b.val

/-- LOST with cause spindle for both heads (R20). -/
def State.loseSpindle (s : State) (b : BayId) : State := s.eachHead b (fun t g => t.loseHead g 7)

/-- The drive enters FAULT (R189): LOST for both heads, the log, the targeted test due (R493), the grant returned. -/
def State.spindleFault (s : State) (b : BayId) (cause : BitVec 4) : State :=
  let e := s.errTest (srcSpindle b)
  let s1 := e.2.modSpindle b (fun x => { x.go .fault with
    faultCause := cause, testPass := if e.1 then some false else none, stopFault := false, stopNext := false, idRef := 0, iqRef := 0, regen := false, grantWait := false })
  let s2 := ((s1.loseSpindle b).logEv (srcSpindle b) .spindleFault [cause.toNat]).spindleStopped b
  s2.returnGrant .spin b.val

/-! ### Targets (R179, R180) -/

/-- The runout banks of the bay's heads change with the speed class (R154, R161). -/
def State.classChange (s : State) (b : BayId) (before : Bool) : State :=
  if s.speedClass b = before then s
  else s.eachHead b (fun t g => match t.heads[g.val].foc.sl with
    | some sl => t.loadRunout g sl
    | none => t)

/-- TARGET.rpm is written (R179, R180): a change clears at_speed; in RUN, 0 stops the drive, and a raise of more than 300 rpm above
the present speed waits for a spin-up grant. -/
def State.setTarget (s : State) (b : BayId) (rpm : Nat) : State :=
  if 6000 < rpm then s.spindleRefuse b
  else
    let before := s.speedClass b
    let changed : Bool := s.fld (.spindle b) SPINDLE.rpm != rpm
    let s1 := (s.setFld (.spindle b) SPINDLE.rpm rpm).modSpindle b (fun x => { x with
      atSpeed := x.atSpeed && !changed, revGood := if changed then 0 else x.revGood, limited := x.limited && !changed })
    let s2 := if changed then s1.classChange b before else s1
    let x := s2.spindle b
    if x.st ≠ .run then s2
    else if rpm = 0 then s2.spindleStop b false false 0
    else if x.speed.natAbs + 3000 < 10 * rpm ∧ s2.spinHeld b = false then
      (s2.modSpindle b (fun x => { x with grantWait := true })).requestGrant .spin b.val
    else s2.modSpindle b (fun x => { x with grantWait := false })

/-! ### Write sessions (R253, Table 10-1) -/

/-- SLOWING: 2,700 rpm, and a write-session grant is requested. -/
def State.slowDown (s : State) (b : BayId) : State :=
  ((s.modBay b (fun x => { x with sess := .slowing })).setTarget b writeRpm).requestGrant .write b.val

/-- RESUMING: the write-session grant is returned, and the target is read speed, at the step then asked for (Table 19-5). -/
def State.resumeRead (s : State) (b : BayId) : State :=
  let s1 := s.modBay b (fun x => { x with sess := .resuming, speedStep := s.speedWant b })
  (s1.returnGrant .write b.val).setTarget b (s1.readRpm b)

/-- A WRITE_WINDOW of the bay is outstanding. -/
def State.writeWaits (s : State) (b : BayId) : Bool := s.bays[b.val].requests.any MailReq.isWrite

/-- A power calibration run of the bay is due (Table 10-1, R261). -/
def State.opcDue (s : State) (b : BayId) : Bool := (bayHeads b).any (fun g => !(s.wrs[g.val]).due.isEmpty)

/-- In READ at a read session speed, a WRITE_WINDOW that waits or a due run starts SLOWING (Table 10-1). -/
def State.sessionAsk (s : State) (b : BayId) : State :=
  let x := s.bays[b.val]
  if (s.writeWaits b || s.opcDue b) && (x.sess == .resuming || (x.sess == .read && s.sessionSpeed b)) then s.slowDown b else s

/-! ### At speed (R172, R179, R183) -/

/-- at_speed is set: the spin-up grant is returned (R172), RESUMING ends (Table 10-1), waiting identifications go on, each head in FOLLOW
reports ON_TRACK (R183), and the bay starts its heads (R120, R132). -/
def State.setAtSpeed (s : State) (b : BayId) : State :=
  let ms := (s.time.localNs - (s.spindle b).started) / 1000000
  let s1 := (s.modSpindle b (fun x => { x with atSpeed := true, lastStart := min 65535 ms, grantWait := false })).returnGrant .spin b.val
  let s2 := if s1.bays[b.val].sess = .resuming ∧ s1.fld (.spindle b) SPINDLE.rpm = s1.readRpm b then
      s1.modBay b (fun x => { x with sess := .read }) else s1
  let s3 := s2.eachHead b (fun t g =>
    let t1 := t.modFoc g (fun f => { f with waitSpindle := false })
    let k := t1.heads[g.val].trk
    if k.st = .follow ∧ t1.heads[g.val].lost = true then t1.onTrack g (k.track + BitVec.ofNat 18 k.beam.val) else t1.openRequests g)
  (s3.startHeads b).sessionAsk b

/-- The reference equals the target (R179). -/
def State.refMet (s : State) (b : BayId) : Bool := (s.spindle b).ref == 40 * s.targetTenths b

/-- A revolution ends whose mean is within ±0.1 % of the target, or beyond ±0.5 % (R179). -/
def State.revolution (s : State) (b : BayId) (good bad : Bool) : State :=
  let x := s.spindle b
  if x.st ≠ .run then s
  else if bad ∧ x.atSpeed = true then s.modSpindle b (fun y => { y with atSpeed := false, revGood := 0 })
  else if !good || !s.refMet b || x.limited then s.modSpindle b (fun y => { y with revGood := 0 })
  else if x.atSpeed then s
  else if 2 ≤ x.revGood + 1 then (s.modSpindle b (fun y => { y with revGood := 2 })).setAtSpeed b
  else s.modSpindle b (fun y => { y with revGood := y.revGood + 1 })

/-- A period of `ns` lies within `tol` thousandths of the target's. -/
def within (target : Nat) (ns tol : Nat) : Bool :=
  decide ((60000000000 - (target * ns : Int)).natAbs * 1000 ≤ target * ns * tol)

/-- Wedge 0 passes: a revolution from wedge 0 to wedge 0 is judged, the first one after the entry into RUN only starts the count
(R179). -/
def State.wedgeZero (s : State) (b : BayId) (ns : Nat) : State :=
  let x := s.spindle b
  let t := s.fld (.spindle b) SPINDLE.rpm
  if x.st ≠ .run then s
  else if x.revArmed then s.revolution b (within t ns 1) (!within t ns 5)
  else s.modSpindle b (fun y => { y with revArmed := true, revGood := 0 })

end Sys2Proof.Machine
end

