-- ==== Sys2Proof/Machine/Focus.lean ====
section
/-! DEFINITION. The focus sequencer at a strobe and at a wedge header, and its commands (chapter 05): FOC_ACQ_START to FOC_COMMIT. -/

namespace Sys2Proof.Machine

/-! ### What a strobe senses (R116, R118, R138, R139) -/

/-- The servo signals of a strobe: SUM and sum_ref scaled to 2^17 = full scale, fe_n, the corrected TE inputs, the sign of raw TE0. -/
structure Sensed where
  sum : Int
  ref : Int
  feN : Int
  te : Vector Int 4
  te0Pos : Bool
deriving DecidableEq, Repr

/-- The write scaling P_read / P_mean of an open write stream (R118). -/
def State.writeScale (s : State) (g : HeadId) (pMean : BitVec 16) (x : Int) : Int :=
  let h := s.heads[g.val]
  if h.lanes.any (·.stream) && pMean != 0 then roundHE (x * (h.lanes[0].levels[0]).toNat) pMean.toNat else x

/-- The input stage of a strobe: scaling, land sign (S1 and S3 are lands), normalisation and gain (R116, R139). -/
def State.sense (s : State) (g : HeadId) (i : StrobeIn) : Sensed :=
  let ref : Int := s.heads[g.val].foc.sumRef.toNat * 32
  let sum := s.writeScale g i.pMean (i.sum.toNat * 32)
  let den := max 1 (max sum (ref / 8))
  let fp := if s.fld (.foc g) FOC.polarity = 1 then -1 else 1
  let tp := if s.fld (.trk g) TRK.polarity = 1 then -1 else 1
  let fe := s.writeScale g i.pMean (i.fe.toInt * 64 * fp)
  let gain := s.actS (.trk g) TRK.pp_gain
  let te := Vector.ofFn (fun k : Fin 4 =>
    let raw := s.writeScale g i.pMean (i.te[k.val].toInt * 64 * tp)
    let land := if isLand k.val then -raw else raw
    clampI (roundHE (gain * roundHE (land * ref) den) 32768) (-131072) 131071)
  ⟨sum, ref, clampI (roundHE (fe * ref) den) (-131072) 131071, te, decide (0 ≤ i.te[0].toInt * tp)⟩

/-- pp, the mean of the corrected TE inputs (R141). -/
def Sensed.pp (x : Sensed) : Int := roundHE (x.te[0] + x.te[1] + x.te[2] + x.te[3]) 4

/-- The focus engine's input (R116); the trim counts steps of 2^-12. -/
def State.focusInput (s : State) (g : HeadId) (x : Sensed) : Q17 :=
  let sl := (s.heads[g.val].foc.sl).getD 0
  satQ17 (x.feN + 32 * s.trimA g 1 g.val sl.toNat)

/-- SUM is at sum_detect or above. -/
def State.sumDetected (s : State) (g : HeadId) (x : Sensed) : Bool := (s.act (.foc g) FOC.sum_detect : Int) * 512 ≤ x.sum

/-- The lock test of one sample (Table 05-1). -/
def State.focLockTest (s : State) (g : HeadId) (x : Sensed) : Bool :=
  decide ((s.focusInput g x).toInt.natAbs < 512 * s.act (.foc g) FOC.lock_level) && s.sumDetected g x

/-- The crossing detector (R122): the new phase, and whether a crossing qualifies at this strobe. -/
def State.crossStep (s : State) (g : HeadId) (x : Sensed) (c : Crossing) : Crossing × Bool :=
  if !s.sumDetected g x then (.none, false)
  else match c with
    | .none => (.sumSeen, false)
    | .sumSeen => if 512 * s.act (.foc g) FOC.fe_detect < x.feN.natAbs then (.feSeen, false) else (.sumSeen, false)
    | .feSeen => if x.feN.natAbs < 512 * s.act (.foc g) FOC.fe_capture then (.none, true) else (.feSeen, false)

/-! ### The sequencer at a strobe -/

/-- A qualifying crossing: CAPTURE, the engine to RUN with cleared states and prev_out at the ramp value (R122). -/
def State.focCapture (s : State) (g : HeadId) (v : Q17) : State :=
  (s.cmdLoop g lFocus (.run true (some v))).modFoc g (fun f => { f with st := .capture, crossing := .none, lockRun := 0 })

/-- One strobe of SWEEP (R121). -/
def State.sweepStrobe (s : State) (g : HeadId) (x : Sensed) : State :=
  let v := (s.heads[g.val].loops[0]).ovr
  let fin_ := signed 18 (s.act (.foc g) FOC.sweep_end)
  let c := s.crossStep g x s.heads[g.val].foc.crossing
  if c.2 then s.focCapture g v
  else if v.toInt = fin_ then s.focAttempt g (s.sweepStart g)
  else
    let rate : Int := s.act (.foc g) FOC.sweep_rate
    let d := clampI (fin_ - v.toInt) (-rate) rate
    (s.cmdLoop g lFocus (.override (satQ17 (v.toInt + d)))).modFoc g (fun f => { f with crossing := c.1 })

/-- One strobe of RECAPTURE (R131): the ramp runs between last − recap_span and last + recap_span. -/
def State.recapStrobe (s : State) (g : HeadId) (x : Sensed) : State :=
  let f := s.heads[g.val].foc
  let v := (s.heads[g.val].loops[0]).ovr
  let c := s.crossStep g x f.crossing
  if c.2 then s.focCapture g v
  else
    let span : Int := s.act (.foc g) FOC.recap_span
    let rate : Int := s.act (.foc g) FOC.sweep_rate
    let goal := if f.recapUp then f.lastGood.toInt + span else f.lastGood.toInt - span
    let n := v.toInt + clampI (goal - v.toInt) (-rate) rate
    (s.cmdLoop g lFocus (.override (satQ17 n))).modFoc g (fun f => { f with
      crossing := c.1, recapUp := if n = goal then !f.recapUp else f.recapUp })

/-- The excursion test of R130: |fe_n| beyond fe_loss for fe_loss_count samples while SUM is at sum_hold × sum_ref or above. -/
def State.feLossStrobe (s : State) (g : HeadId) (x : Sensed) : State :=
  let f := s.heads[g.val].foc
  let out := s.loopOut g lFocus
  if 512 * s.act (.foc g) FOC.fe_loss < x.feN.natAbs ∧ (s.act (.foc g) FOC.sum_hold : Int) * x.ref ≤ x.sum * 256 then
    if max 1 (s.act (.foc g) FOC.fe_loss_count) ≤ f.feRun + 1 then s.focusLoss g
    else s.modFoc g (fun f => { f with feRun := f.feRun + 1 })
  else s.modFoc g (fun f => { f with feRun := 0, lastGood := out })

/-- The mean SUM over the 256 samples after each entry into LOCKED (R117). -/
def State.sumRefStrobe (s : State) (g : HeadId) (i : StrobeIn) : State :=
  match s.heads[g.val].foc.sumAcc with
  | none => s
  | some (n, t) =>
    if n ≤ 1 then s.modFoc g (fun f => { f with sumAcc := none, sumRef := BitVec.ofNat 12 ((t + i.sum.toNat) / 256) })
    else s.modFoc g (fun f => { f with sumAcc := some (n - 1, t + i.sum.toNat) })

/-- One strobe of LOCKED: defect hold (R129) and excursion (R130). -/
def State.lockedStrobe (s : State) (g : HeadId) (x : Sensed) (i : StrobeIn) : State :=
  let f := s.heads[g.val].foc
  let hold : Int := s.act (.foc g) FOC.sum_hold
  let out := s.loopOut g lFocus
  if f.holdOn then
    if (hold + 13) * x.ref ≤ x.sum * 256 then
      if 1 ≤ f.holdGood then
        let s1 := (s.cmdLoop g lFocus (.run false none)).modFoc g (fun f => { f with holdOn := false, holdGood := 0 })
        if s.trkState g = .follow then s1.cmdLoop g lTilt (.run false none) else s1
      else s.modFoc g (fun f => { f with holdGood := f.holdGood + 1 })
    else s.modFoc g (fun f => { f with holdGood := 0 })
  else if x.sum * 256 < hold * x.ref then
    ((s.cmdLoop g lFocus .hold).cmdLoop g lTilt .hold).modFoc g (fun f => { f with
      holdOn := true, holdGood := 0, feRun := 0, lastGood := out })
  else (s.sumRefStrobe g i).feLossStrobe g x

/-- One strobe of JUMP (Table 05-3, steps 3, 5 and 7, and the loss test from step 6). -/
def State.jumpStrobe (s : State) (g : HeadId) (x : Sensed) : State :=
  match s.heads[g.val].foc.jump with
  | none => s
  | some j =>
    let d : Int := if j.deeper then 1 else -1
    match j.phase with
    | .saMove =>
      let pos := s.sas[g.val].pos
      if s.act (.foc g) FOC.sa_lead * (j.saEnd - j.saStart).natAbs ≤ 256 * (pos - j.saStart).natAbs then
        let held := s.loopOut g lFocus
        (s.cmdLoop g lFocus (.override (satQ17 (held.toInt + d * s.act (.foc g) FOC.kick_amp)))).modFoc g (fun f => { f with
          jump := some { j with phase := .kick, held := held } })
      else s
    | .coast =>
      if s.sumDetected g x && decide (512 * s.act (.foc g) FOC.fe_detect ≤ x.feN.natAbs) then
        let v := j.held.toInt + d * ((s.act (.foc g) FOC.hold_bias : Int) - s.act (.foc g) FOC.brake_amp)
        (s.cmdLoop g lFocus (.override (satQ17 v))).modFoc g (fun f => { f with jump := some { j with phase := .brake } })
      else s
    | .lock =>
      let n := if s.focLockTest g x then s.heads[g.val].foc.lockRun + 1 else 0
      let s1 := s.modFoc g (fun f => { f with
        lockRun := n,
        jump := some (if max 1 (s.act (.foc g) FOC.lock_count) ≤ n then { j with phase := .settle } else j) })
      s1.feLossStrobe g x
    | .settle => s.feLossStrobe g x
    | _ => s

/-- The focus sequencer at a strobe (R120). Held output of a move counts toward neither test (Table 05-4). -/
def State.focStrobe (s : State) (g : HeadId) (x : Sensed) (i : StrobeIn) : State :=
  if s.moveHolds g lFocus then s
  else match s.focState g with
    | .sweep => s.sweepStrobe g x
    | .recapture => s.recapStrobe g x
    | .capture =>
      let n := if s.focLockTest g x then s.heads[g.val].foc.lockRun + 1 else 0
      if max 1 (s.act (.foc g) FOC.lock_count) ≤ n then
        s.modFoc g (fun f => { f with st := .identify, headers := [], lockRun := 0, lastGood := s.loopOut g lFocus })
      else s.modFoc g (fun f => { f with lockRun := n })
    | .identify => s.modFoc g (fun f => { f with lastGood := s.loopOut g lFocus })
    | .locked => s.lockedStrobe g x i
    | .jump => s.jumpStrobe g x
    | _ => s

/-! ### Wedge headers (R123–R125, R133) -/

/-- The headers of the last 16 wedges with a new one; one header counts for a wedge (DESIGN CHOICE, log entry 14). -/
def pushHeader (l : List (Nat × Option (BitVec 5))) (w : Nat) (sl : BitVec 5) : List (Nat × Option (BitVec 5)) :=
  if l.any (fun e => e.1 == w) then l else (w, some sl) :: l.filter (fun e => w < e.1 + 16)

/-- A code that 3 of the last 16 wedges' headers carry (R123). -/
def agreedLayer (l : List (Nat × Option (BitVec 5))) (sl : BitVec 5) : Bool :=
  3 ≤ (l.filter (fun e => e.2 == some sl)).length

/-- A layer is identified in IDENTIFY (Table 05-1): the other side fails (R124); after a jump or a loss another layer than the
target is corrected by a jump, at most jump_retry times (R128, R131); else LOCKED. -/
def State.identified (s : State) (g : HeadId) (sl : BitVec 5) : State :=
  let f := s.heads[g.val].foc
  if slSide sl ≠ headSide g then
    let s1 := ((s.flag (.foc g) FOC.side_mismatch).modBay (bayOf g) (fun x => { x with unusable := true })).focFail g 2
    s1.logEv (srcFoc g) .sideMismatch [sl.toNat]
  else
    let goal := match f.target with
      | some t => some t
      | none => f.lossSl
    match goal with
    | some t =>
      if t = sl ∨ f.cancelJump = true then s.enterLocked g sl
      else if f.sl = none then s.enterLocked g sl
      else if f.corrections < s.fld (.foc g) FOC.jump_retry then
        (s.modFoc g (fun f => { f with corrections := f.corrections + 1, sl := some sl })).beginJump g sl t
      else s.focAttempt g (s.loopOut g lFocus)
    | none => s.enterLocked g sl

/-- A valid header's side-layer code reaches the focus sequencer (R123, R125). -/
def State.focHeader (s : State) (g : HeadId) (sl : BitVec 5) : State :=
  let w := s.bays[(bayOf g).val].wedgeAbs
  let f := s.heads[g.val].foc
  let l := pushHeader f.headers w sl
  let s1 := s.modFoc g (fun f => { f with headers := l })
  match f.st with
  | .identify => if agreedLayer l sl then s1.identified g sl else s1
  | .locked => if agreedLayer l sl ∧ f.sl ≠ some sl then s1.focusLoss g else s1
  | _ => s1

/-- The tilt input: the mean over the last 2^tilt_avg wedges' valid errors, plus the trim (R133). -/
def State.tiltUpdate (s : State) (g : HeadId) (e : Option Int) : State :=
  let f := s.heads[g.val].foc
  let n := 2 ^ s.act (.foc g) FOC.tilt_avg
  let l := (e :: f.tiltErrs).take 8
  let valid := (l.take n).filterMap id
  let sl := (f.sl).getD 0
  let mean := if valid.isEmpty then 0 else roundHE valid.sum valid.length
  s.modFoc g (fun f => { f with tiltErrs := l, tiltIn := satQ17 (mean + 32 * s.trimA g 3 g.val sl.toNat) })

/-! ### The commands -/

/-- FOC_ACQ_START (R120): SWEEP from OFF or FAILED. -/
def execFocAcqStart (g : HeadId) (s : State) : Host.Outcome State Fault Refusal :=
  if !s.answers (.foc g) then .next (s.absent (.foc g) FOC.acq_start.off) else
  if s.focState g = .off ∨ s.focState g = .failed then .next (s.startHead g) else .next s

/-- CAPTURE_TIMEOUT (Table 05-1): SWEEP, the ramp from the present output. -/
def execCaptureTimeout (g : HeadId) (s : State) : Host.Outcome State Fault Refusal :=
  if s.focState g = .capture then .next (s.focSweepAt g (s.loopOut g lFocus)) else .next s

/-- IDENTIFY_TIMEOUT (Table 05-1): SWEEP, a false lock counted as an attempt; paused while the spindle is lost (Table 05-4). -/
def execIdentifyTimeout (g : HeadId) (s : State) : Host.Outcome State Fault Refusal :=
  if s.focState g = .identify ∧ s.heads[g.val].foc.waitSpindle = false then .next (s.focAttempt g (s.loopOut g lFocus))
  else .next s

/-- The output of a jump step (Table 05-3): held + d × a magnitude. -/
def Jump.at_ (j : Jump) (v : Int) : Q17 := satQ17 (j.held.toInt + (if j.deeper then v else -v))

/-- JUMP_KICK_END (Table 05-3, step 4). -/
def execJumpKickEnd (g : HeadId) (s : State) : Host.Outcome State Fault Refusal :=
  match s.heads[g.val].foc.jump with
  | some j =>
    if s.focState g = .jump ∧ j.phase = .kick then
      .next ((s.cmdLoop g lFocus (.override (j.at_ (s.act (.foc g) FOC.hold_bias)))).modFoc g (fun f => { f with
        jump := some { j with phase := .coast } }))
    else .next s
  | none => .next s

/-- JUMP_COAST_TIMEOUT (Table 05-3, step 5): the brake is applied anyway, and RECAPTURE follows it. -/
def execJumpCoastTimeout (g : HeadId) (s : State) : Host.Outcome State Fault Refusal :=
  match s.heads[g.val].foc.jump with
  | some j =>
    if s.focState g = .jump ∧ j.phase = .coast then
      let v := (s.act (.foc g) FOC.hold_bias : Int) - s.act (.foc g) FOC.brake_amp
      .next (((s.cmdLoop g lFocus (.override (j.at_ v))).modFoc g (fun f => { f with
        jump := some { j with phase := .brakeBlind } })).flag (.foc g) FOC.jump_fault)
    else .next s
  | none => .next s

/-- JUMP_BRAKE_END (Table 05-3, step 6): RUN with states kept on the new layer, or RECAPTURE after a blind brake. -/
def execJumpBrakeEnd (g : HeadId) (s : State) : Host.Outcome State Fault Refusal :=
  match s.heads[g.val].foc.jump with
  | some j =>
    if s.focState g = .jump ∧ j.phase = .brake then
      .next ((s.cmdLoop g lFocus (.run false (some (j.at_ (s.act (.foc g) FOC.hold_bias))))).modFoc g (fun f => { f with
        sl := some j.next, lockRun := 0, feRun := 0, lastGood := j.at_ (s.act (.foc g) FOC.hold_bias),
        jump := some { j with phase := .lock } }))
    else if s.focState g = .jump ∧ j.phase = .brakeBlind then .next (s.jumpRecapture g)
    else .next s
  | none => .next s

/-- JUMP_LOCK_TIMEOUT (Table 05-3, step 7): RECAPTURE. -/
def execJumpLockTimeout (g : HeadId) (s : State) : Host.Outcome State Fault Refusal :=
  match s.heads[g.val].foc.jump with
  | some j =>
    if s.focState g = .jump ∧ j.phase = .lock then .next ((s.flag (.foc g) FOC.jump_fault).jumpRecapture g) else .next s
  | none => .next s

/-- JUMP_SETTLE_END (Table 05-3, step 8): the step completes; the next step begins, or IDENTIFY after the last or a cancelled
one (R128, Table 05-4). -/
def execJumpSettleEnd (g : HeadId) (s : State) : Host.Outcome State Fault Refusal :=
  let f := s.heads[g.val].foc
  match f.jump with
  | some j =>
    if f.st = .jump ∧ j.phase = .settle ∧ s.sas[g.val].jumpSeg = false then
      let s1 := s.modFoc g (fun f => { f with lastStep := min 65535 ((s.time.localNs - j.began) / 1000) })
      let goal := f.target.getD j.next
      if j.next = goal ∨ f.cancelJump = true then
        .next (s1.modFoc g (fun f => { f with st := .identify, jump := none, headers := [] }))
      else .next (s1.jumpStep g j.next goal)
    else .next s
  | none => .next s

/-- DEFECT_HOLD_TIMEOUT (R130). -/
def execDefectHoldTimeout (g : HeadId) (s : State) : Host.Outcome State Fault Refusal :=
  if s.focState g = .locked ∧ s.heads[g.val].foc.holdOn = true then .next (s.focusLoss g) else .next s

/-- RECAPTURE_TIMEOUT (Table 05-1): SWEEP, counted as an attempt. -/
def execRecaptureTimeout (g : HeadId) (s : State) : Host.Outcome State Fault Refusal :=
  if s.focState g = .recapture then .next (s.focAttempt g (s.sweepStart g)) else .next s

/-- FOC_COMMIT (R137): the group is captured; its set awaits the point that Table 05-4 gives. -/
def execFocCommit (g : HeadId) (s : State) : Host.Outcome State Fault Refusal :=
  if !s.answers (.foc g) then .next (s.absent (.foc g) FOC.go.off) else
  .next (s.commitWith (tagFoc g) true (srcFoc g) none)

end Sys2Proof.Machine
end

