-- ==== Sys2Proof/Machine/Tracking.lean ====
section
/-! DEFINITION. The tracking sequencer and the runout learner at a strobe, at a header and at a wedge boundary, and their commands
(chapter 06): TRK_ACQ_START to TRK_COMMIT. -/

namespace Sys2Proof.Machine

/-! ### At a strobe -/

/-- The tracking engine's input: the fused error (R141). -/
def State.trkInput (s : State) (g : HeadId) (x : Sensed) : Q17 := satQ17 (x.pp - (s.heads[g.val].trk.bias).toInt)

/-- One sample of the lock test (R145). -/
def State.trkLockTest (s : State) (g : HeadId) (x : Sensed) : Bool :=
  decide ((s.trkInput g x).toInt.natAbs < 512 * s.act (.trk g) TRK.lock_level)

/-- The crossing rate of an interval in strobes is below a rate in kilotracks/s (R145). -/
def slower (strobes rate : Nat) : Bool := 1000000 < strobes * 2500 * rate

/-- The crossing rate of an interval reaches a rate in kilotracks/s (Table 06-2). -/
def reaches (strobes rate : Nat) : Bool := strobes * 2500 * rate ≤ 1000000

/-- One strobe of ACQUIRE (R145). -/
def State.acquireStrobe (s : State) (g : HeadId) (x : Sensed) (cross : Bool) (interval : Nat) : State :=
  let t := s.heads[g.val].trk
  if t.running then
    let n := if s.trkLockTest g x then t.lockRun + 1 else 0
    if max 1 (s.act (.trk g) TRK.lock_count) ≤ n then
      s.modTrk g (fun t => { t with st := .confirm, agree := [], lockRun := n })
    else s.modTrk g (fun t => { t with lockRun := n })
  else if cross ∧ slower interval (s.act (.trk g) TRK.pull_in_rate) = true then
    (s.cmdLoop g lTrack (.run true none)).modTrk g (fun t => { t with running := true, lockRun := 0 })
  else s

/-- One strobe of a lens jump (Table 06-2). -/
def State.lensStrobe (s : State) (g : HeadId) (x : Sensed) (cross : Bool) (interval : Nat) (j : LensJump) : State :=
  let c := if cross then j.crossed + 1 else j.crossed
  let set (k : LensJump) (s : State) : State := s.modTrk g (fun t => { t with lens := some k })
  let kick : Int := s.act (.trk g) TRK.kick_amp
  match j.phase with
  | .kick =>
    if (cross ∧ reaches interval (s.act (.trk g) TRK.jump_vel) = true) ∨ j.n / 2 ≤ c then
      set { j with phase := .coast, crossed := c } (s.cmdLoop g lTrack (.override j.held))
    else set { j with crossed := c } s
  | .coast =>
    if j.n ≤ c + s.act (.trk g) TRK.brake_tracks then
      set { j with phase := .brake, crossed := c }
        (s.cmdLoop g lTrack (.override (satQ17 (j.held.toInt + (if j.outward then -kick else kick)))))
    else set { j with crossed := c } s
  | .brake =>
    if j.n ≤ c ∧ slower interval (s.act (.trk g) TRK.pull_in_rate) = true then
      set { j with phase := .lock, crossed := c } ((s.cmdLoop g lTrack (.run false (some j.held))).modTrk g (fun t => { t with
        lockRun := 0 }))
    else set { j with crossed := c } s
  | .lock =>
    let n := if s.trkLockTest g x then s.heads[g.val].trk.lockRun + 1 else 0
    if max 1 (s.act (.trk g) TRK.lock_count) ≤ n then
      s.modTrk g (fun t => { t with
        st := .confirm, agree := [], lens := none, lockRun := n,
        lastJump := min 65535 ((s.time.localNs - j.began) / 1000) })
    else s.modTrk g (fun t => { t with lockRun := n })

/-- The write off-track test (R149): the input or any beam's last sampled error beyond wr_offtrack. -/
def State.writeOff (s : State) (g : HeadId) (x : Sensed) : Bool :=
  let lim := 512 * s.act (.trk g) TRK.wr_offtrack
  decide (lim < (s.trkInput g x).toInt.natAbs) ||
    (s.heads[g.val].trk.ek).any (fun e => match e with
      | some v => decide (lim < v.natAbs)
      | none => false)

/-- One strobe of FOLLOW: the write inhibit (R149), then slip by excursion (R148). -/
def State.followStrobe (s : State) (g : HeadId) (x : Sensed) : State :=
  if s.writeWindowOpen g && s.writeOff g x then (s.writeInhibit g).trkSlip g (s.trkLockTest g x)
  else if 512 * s.act (.trk g) TRK.offtrack_level < (s.trkInput g x).toInt.natAbs then
    let n := s.heads[g.val].trk.offRun + 1
    if max 1 (s.act (.trk g) TRK.offtrack_count) ≤ n then s.trkSlip g (s.trkLockTest g x)
    else s.modTrk g (fun t => { t with offRun := n })
  else s.modTrk g (fun t => { t with offRun := 0 })

/-- The tracking sequencer at a strobe (R144). -/
def State.trkStrobe (s : State) (g : HeadId) (x : Sensed) : State :=
  let t := s.heads[g.val].trk
  let cross : Bool := match t.lastSign with
    | some v => v != x.te0Pos
    | none => false
  let interval := t.sinceCross + 1
  let s1 := s.modTrk g (fun t => { t with lastSign := some x.te0Pos, sinceCross := if cross then 0 else interval })
  match t.st with
  | .acquire => s1.acquireStrobe g x cross interval
  | .follow => s1.followStrobe g x
  | .jump => match t.lens with
    | some j => s1.lensStrobe g x cross interval j
    | none => s1
  | _ => s1

/-! ### At a header (R140, R146, R148) -/

/-- A normalised burst difference in Q0.17 (R140). -/
def burstRatio (a b : BitVec 8) : Int :=
  if a.toNat + b.toNat = 0 then Config.zeroRatio
  else roundHE (((a.toNat : Int) - b.toNat) * 131072) (a.toNat + b.toNat : Nat)

/-- The sampled error of a beam from its bursts (R140). -/
def State.sampledError (s : State) (g : HeadId) (h : HeaderIn) : Int :=
  let ab := burstRatio h.burstA h.burstB
  let cd := burstRatio h.burstC h.burstD
  if 512 * s.act (.trk g) TRK.ab_switch ≤ ab.natAbs then roundHE (s.actS (.trk g) TRK.ab_scale * ab) 131072
  else roundHE (s.actS (.trk g) TRK.cd_scale * cd) 131072

/-- The three newest of the last 16 wedges' M0 values agree (R146). -/
def agreedTrack (l : List (Nat × Option Int × BitVec 18)) : Option Int :=
  match l.filterMap (fun e => e.2.1) with
  | a :: b :: c :: _ => if a = b ∧ b = c then some a else none
  | _ => none

/-- Confirmation agreed on M0 track m (R146, R148). -/
def State.confirmAt (s : State) (g : HeadId) (m : Int) : State :=
  let t := s.heads[g.val].trk
  let tr : BitVec 18 := BitVec.ofInt 18 m
  let pend := s.bays[(bayOf g).val].requests.any (fun r => r.head == g && r.isPosition && some r.tag == t.request)
  let report (u : State) : State :=
    if (pend || s.heads[g.val].lost) && !t.cancelled then u.onTrack g (tr + BitVec.ofNat 18 t.beam.val) else u.openRequests g
  match t.st with
  | .confirm =>
    match t.expected with
    | none => report ((s.modTrk g (fun t => { t with expected := some tr })).trkFollow g tr)
    | some e =>
      if e = tr then report (s.trkFollow g tr)
      else s.trkCorrect g tr.toNat (bandOf tr.toNat == some .guard)
  | .follow =>
    match t.expected with
    | some e => if e ≠ tr then s.trkSlip g true else if pend then report s else s
    | none => s
  | _ => s

/-- A valid header of beam k reaches the tracking sequencer: the confirmation list, and the picot error of a usable one. -/
def State.trkHeader (s : State) (g : HeadId) (k : BeamId) (h : HeaderIn) (track : BitVec 18) : State :=
  let w := s.bays[(bayOf g).val].wedgeAbs
  let t := s.heads[g.val].trk
  let e := s.sampledError g h
  let usable : Bool := match t.expected with
    | some m => track == m + BitVec.ofNat 18 k.val
    | none => false
  let s1 := s.modTrk g (fun t => { t with
    ppWindow := signed 18 h.ppWindow.toNat,
    ek := if usable then t.ek.set k.val (some e) else t.ek,
    picotNow := if usable then (k, e) :: t.picotNow else t.picotNow })
  let m : Int := (track.toNat : Int) - k.val - 4 * t.turns
  let l := if t.agree.any (fun x => x.1 == w) then t.agree
    else (w, some m, track) :: t.agree.filter (fun x => w < x.1 + 16)
  let s2 := s1.modTrk g (fun t => { t with agree := l })
  if t.st = .confirm ∨ t.st = .follow then
    match agreedTrack l with
    | some a => s2.confirmAt g (a + 4 * t.turns)
    | none => s2
  else s2

/-! ### At a wedge boundary -/

/-- The picot window of the wedge that ended (R133, R140, R141, R143): e_picot, the bias, the tilt error and the beams' offsets. -/
def State.picotEnd (s : State) (g : HeadId) : State :=
  let t := s.heads[g.val].trk
  match t.picotNow with
  | [] => s.tiltUpdate g none
  | l =>
    let ep := roundHE ((l.map (·.2)).sum) l.length
    let diff := t.ppWindow - ep
    let bias := satQ17 (t.bias.toInt + roundHE (diff - t.bias.toInt) (2 ^ s.act (.trk g) TRK.fuse_shift : Nat))
    let tilt := diff - roundHE (s.actS (.foc g) FOC.tilt_ls * (s.loopOut g lTrack).toInt) 131072
    let s1 := s.modTrk g (fun t => { t with
      bias := bias, picotNow := [],
      acc := l.foldl (fun a p => a.set p.1.val ((a[p.1.val]).1 + (p.2 - ep), (a[p.1.val]).2 + 1)) t.acc })
    s1.tiltUpdate g (some tilt)

/-- The revolution's beam offsets (R143): r_k over at least 700 usable wedges, BEAM_OFF, and write service. -/
def State.beamCheck (s : State) (g : HeadId) : State :=
  let t := s.heads[g.val].trk
  let full : Bool := t.acc.all (fun a => decide (700 ≤ a.2))
  let s1 := s.modTrk g (fun t => { t with acc := Vector.replicate 4 (0, 0) })
  if t.st = .follow ∧ full = true then
    let r := t.acc.map (fun a => roundHE a.1 a.2)
    let bad := r.any (fun x => decide (512 * s.act (.trk g) TRK.beam_off_limit < x.natAbs))
    let s2 := s1.modTrk g (fun t => { t with beamOff := r.map (fun x => clampI (roundHE x 512) (-128) 127), noWrite := bad })
    if bad then (s2.flag (.trk g) TRK.beam_offset).logEv (srcTrk g) .beamOffset [] else s2.openRequests g
  else s1

/-- The loop of a runout table is in RUN, on its engine (Table 06-3). -/
def State.learnRun (s : State) (g : HeadId) (l : Fin 3) : Bool :=
  (s.heads[g.val].loops[l.val]).st == .run && !s.moveHolds g ⟨l.val, by omega⟩

/-- A runout loop at a wedge boundary: the wedge that ended is closed and learnt (R156), the blend counts on (R158). -/
def State.runoutWedge (s : State) (g : HeadId) (l : Fin 3) (v : Nat) : State :=
  let lead := s.act (.trk g) TRK.lead_wedges
  let gain := s.actS (.trk g) (TRK.err_gain l.val)
  let on : Bool := s.fld (.trk g) TRK.learn_enable = 1
  s.modRunout g l (fun r =>
    let r1 := r.closeWedge
    let r2 := if on then r1.learn v lead (s.learnShift g r) gain else r1
    { r2 with blend := r2.blend.map (fun j => min (j + 1) (720 * s.act (.trk g) TRK.blend_revs)) })

/-- A runout loop at wedge 0 (R157–R161): convergence, a due swap where the loop is in RUN, a fetched table. -/
def State.runoutTurn (s : State) (g : HeadId) (l : Fin 3) : State :=
  let revs := s.act (.trk g) TRK.blend_revs
  let due := (s.heads[g.val].runout[l.val]).swapPending && s.learnRun g l
  let s1 := s.modRunout g l (fun r =>
    let r0 := if due then r.swap revs else r.converge (s.act (.trk g) TRK.conv_level) (max 1 (s.act (.trk g) TRK.conv_revs))
    let r1 := r0.adoptFetched revs
    if s.learnRun g l then r1.reuseTest (s.act (.trk g) TRK.reuse_level) else { r1 with firstRev := if r1.firstRev = 1 then 0 else r1.firstRev })
  if due then (s1.incSat (.trk g) TRK.swap_count).storeRunout g l else s1

/-- The hold jump of wedge 0 (R147, R162): inward by 4 tracks while no window is open; inside a window the head follows its spiral. -/
def State.holdJump (s : State) (g : HeadId) : State :=
  let t := s.heads[g.val].trk
  let b := bayOf g
  let wins := s.bays[b.val].requests.filter (fun r => r.head == g && r.opened)
  let stay := wins.any (fun r => match r.stage with
    | .ready w => decide (w < 16)
    | _ => true)
  if t.st = .follow then
    if stay then s.modTrk g (fun t => { t with expected := t.expected.map (· + 4), agree := [] })
    else s.lensJump g false 4 true
  else s

/-- A head at a wedge boundary; v is the wedge that ended and w the one that begins. -/
def State.headWedge (s : State) (g : HeadId) (v w : Nat) : State :=
  let s1 := (List.finRange 3).foldl (fun t l => t.runoutWedge g l v) (s.picotEnd g)
  let m := ((s1.heads[g.val].runout[1].means.head?).map (·.out)).getD 0
  let ff := s1.heads[g.val].runout[1].entry (s.act (.trk g) TRK.blend_revs) v
  let s2 := s1.modTrk g (fun t => { t with sledMean := ((m - ff) :: t.sledMean).take 720 })
  if w = 0 then
    let s3 := (s2.modTrk g (fun t => { t with turns := t.turns + 1 })).adopt (tagTrk g)
    let s4 := (List.finRange 3).foldl (fun t l => t.runoutTurn g l) s3
    (s4.beamCheck g).holdJump g
  else s2

/-- The learner's fields, adopted at wedge 0 (R163). -/
def trkLearner (f : Field) : Bool :=
  [TRK.learn_shift, TRK.learn_shift_new, TRK.lead_wedges, TRK.blend_revs, TRK.conv_revs, TRK.conv_level, TRK.reuse_level,
    TRK.err_gain 0, TRK.err_gain 1, TRK.err_gain 2].contains f

/-! ### The commands -/

/-- TRK_ACQ_START (Table 06-1): ACQUIRE from FAILED. -/
def execTrkAcqStart (g : HeadId) (s : State) : Host.Outcome State Fault Refusal :=
  if !s.answers (.trk g) then .next (s.absent (.trk g) TRK.acq_start.off) else
  if s.trkState g = .failed then .next (s.trkAcquire g) else .next s

/-- TRK_REBUILD (R159): a rebuild pass for all three loops; during a blend the next pass is one (Table 06-3). -/
def execTrkRebuild (g : HeadId) (s : State) : Host.Outcome State Fault Refusal :=
  if !s.answers (.trk g) then .next (s.absent (.trk g) TRK.rebuild.off) else
  .next ((List.finRange 3).foldl (fun (t : State) l => t.modRunout g l (fun r =>
    if r.table = .none then { r with nextRebuild := true }
    else if r.blend.isSome then { r with nextRebuild := true, learning := false }
    else { r with nextRebuild := true, swapPending := false }.beginPass)) s)

/-- TRACK_PULLIN_TIMEOUT (R145): back to OVERRIDE, for the next qualifying crossing. -/
def execTrackPullinTimeout (g : HeadId) (s : State) : Host.Outcome State Fault Refusal :=
  if s.trkState g = .acquire ∧ s.heads[g.val].trk.running = true then
    .next ((s.cmdLoop g lTrack (.override 0)).modTrk g (fun t => { t with running := false, lockRun := 0 }))
  else .next s

/-- ACQ_TIMEOUT (Table 06-1): FAILED with fail_cause 2. -/
def execAcqTimeout (g : HeadId) (s : State) : Host.Outcome State Fault Refusal :=
  if s.trkState g = .acquire then .next ((s.trkFail g 2).logEv (srcTrk g) .acqTimeout []) else .next s

/-- CONFIRM_TIMEOUT (Table 06-1): ACQUIRE. -/
def execConfirmTimeout (g : HeadId) (s : State) : Host.Outcome State Fault Refusal :=
  if s.trkState g = .confirm then .next (s.trkAcquire g) else .next s

/-- LENS_KICK_TIMEOUT (Table 06-2, step 2). -/
def execLensKickTimeout (g : HeadId) (s : State) : Host.Outcome State Fault Refusal :=
  match s.heads[g.val].trk.lens with
  | some j =>
    if s.trkState g = .jump ∧ j.phase = .kick then
      .next ((s.cmdLoop g lTrack (.override j.held)).modTrk g (fun t => { t with lens := some { j with phase := .coast } }))
    else .next s
  | none => .next s

/-- LENS_BRAKE_TIMEOUT (Table 06-2, step 4). -/
def execLensBrakeTimeout (g : HeadId) (s : State) : Host.Outcome State Fault Refusal :=
  match s.heads[g.val].trk.lens with
  | some j => if s.trkState g = .jump ∧ j.phase = .brake then .next (s.trkAcquire g) else .next s
  | none => .next s

/-- LENS_LOCK_TIMEOUT (Table 06-2, step 5). -/
def execLensLockTimeout (g : HeadId) (s : State) : Host.Outcome State Fault Refusal :=
  match s.heads[g.val].trk.lens with
  | some j => if s.trkState g = .jump ∧ j.phase = .lock then .next (s.trkAcquire g) else .next s
  | none => .next s

/-- The lens offset L that sled-follow has not yet removed (R151). -/
def State.lensOffset (s : State) (g : HeadId) : Int :=
  let l := s.heads[g.val].trk.sledMean
  Config.lensOffset (if l.isEmpty then 0 else roundHE l.sum l.length)

/-- nm_per_ustep as committed, at least 1. -/
def State.nmPerUstep (s : State) (g : HeadId) : Nat := max 1 (s.act (.trk g) TRK.nm_per_ustep)

/-- The sled distance in microsteps of a radial distance in tracks (R151). -/
def State.sledSteps (s : State) (g : HeadId) (tracks : Int) : Int := roundNear (tracks * 204800) (s.nmPerUstep g)

/-- The seek's limits in microsteps (R151), with the sled's positions. -/
def State.seekPar (s : State) (g : HeadId) : AxPar :=
  let p := s.axPar (.sled g)
  { p with vmax := s.act (.trk g) TRK.seek_vmax * 1024000000 / s.nmPerUstep g
           amax := s.act (.trk g) TRK.seek_amax * 102400000000 / s.nmPerUstep g }

/-- The sled is sent to the expected track from its present position and velocity (R151, R152). -/
def State.seekMove (s : State) (g : HeadId) : State :=
  let t := s.heads[g.val].trk
  let d := radius (t.expected.getD t.seekTrack).toNat - radius t.seekTrack.toNat
  let target := t.seekFrom + s.sledSteps g (d + t.seekLens)
  let x := s.sleds[g.val]
  s.retarget (.sled g) (planRest (s.seekPar g) x.pos x.vel target)

/-- SEEK_START (R151): with its grant held the sequencer computes the distance and starts the pricking. -/
def execSeekStart (g : HeadId) (s : State) : Host.Outcome State Fault Refusal :=
  let t := s.heads[g.val].trk
  if t.st = .seek ∧ t.seek = some .waitGrant ∧ s.seekHeld g = true then
    .next ((s.modTrk g (fun t => { t with
      seek := some .moving, seekFrom := s.sleds[g.val].pos, seekTrack := t.track, seekLens := s.lensOffset g })).seekMove g)
  else .next s

/-- SLED_SETTLE_END (R151): the grant is returned and ACQUIRE begins, or follows the next LOCKED after a focus loss (Table 06-3). -/
def execSledSettleEnd (g : HeadId) (s : State) : Host.Outcome State Fault Refusal :=
  let t := s.heads[g.val].trk
  if t.seek = some .settling then
    let s1 := (s.returnGrant .seek g.val).modTrk g (fun t => { t with
      seek := none, expected := if t.cancelled then none else t.expected })
    if t.st = .seek then .next (s1.trkAcquire g) else .next s1
  else .next s

/-- BLEND_END (R158): a new refine pass begins. -/
def execBlendEnd (g : HeadId) (l : Fin 3) (s : State) : Host.Outcome State Fault Refusal :=
  if (s.heads[g.val].runout[l.val]).blend.isSome then .next (s.modRunout g l Runout.endBlend) else .next s

/-- RUNOUT_FETCH_DONE (R160, R161): the table is adopted, at the next wedge 0 once LOCKED; a table that is absent or cannot be read
back gives a rebuild pass from zeros. -/
def execRunoutFetchDone (g : HeadId) (l : Fin 3) (ok : Bool) (s : State) : Host.Outcome State Fault Refusal :=
  let r := s.heads[g.val].runout[l.val]
  if r.fetching then
    let found := s.runoutStore.find? (fun x => some x.key == r.key)
    match found with
    | some x =>
      if ok then
        let s1 := s.modRunout g l (fun r => { r with fetching := false, fetched := some (x.table, x.shadow, x.conv) })
        if s.focState g = .locked then .next s1 else .next (s1.modRunout g l (fun r => r.adoptFetched 0))
      else .next (s.modRunout g l Runout.absent)
    | none => .next (s.modRunout g l Runout.absent)
  else .next s

/-- TRK_COMMIT (R163). -/
def execTrkCommit (g : HeadId) (s : State) : Host.Outcome State Fault Refusal :=
  if !s.answers (.trk g) then .next (s.absent (.trk g) TRK.go.off) else
  .next (s.commitWith (tagTrk g) true (srcTrk g) none)

end Sys2Proof.Machine
end

