-- ==== Sys2Proof/Machine/Mailbox.lean ====
section
/-! DEFINITION. The bay mailbox (R17–R20, R24): POSITION, READ_WINDOW, WRITE_WINDOW and CANCEL, and how the bay sequencer serves them. -/

namespace Sys2Proof.Machine

/-- A bay mailbox has room for another request (R18). -/
def State.mailRoom (s : State) (b : BayId) : Bool := decide (s.bays[b.val].requests.length < 8)

/-- Adds a request. -/
def State.addReq (s : State) (b : BayId) (r : MailReq) : State := s.modBay b (fun x => { x with requests := x.requests ++ [r] })

/-- Sets the stage of a request. -/
def State.setStage (s : State) (b : BayId) (tag : BitVec 16) (g : HeadId) (st : ReqStage) : State :=
  s.modBay b (fun x => { x with requests := x.requests.map (fun r => if r.tag = tag ∧ r.head = g then { r with stage := st } else r) })

/-- The sequencers of a head take up a POSITION (R126, R136, R147, R151, R152, Table 06-1): another layer by a focus jump, a track by a lens
jump or a seek; during a seek the sled is retargeted; a head on the track already reports ON_TRACK. -/
def State.actPosition (s : State) (g : HeadId) (tag : BitVec 16) (sl : BitVec 5) (track : BitVec 18) (k : BeamId) : State :=
  let m := track - BitVec.ofNat 18 k.val
  let s1 := (s.modTrk g (fun t => { t with
      expected := some m, request := some tag, beam := k, requested := s.time.localNs, corrections := 0, cancelled := false })).modFoc g
    (fun f => { f with target := some sl, cancelJump := false })
  let f := s1.heads[g.val].foc
  let t := s1.heads[g.val].trk
  match f.st, f.sl with
  | .locked, some cur =>
    if cur ≠ sl then s1.beginJump g cur sl
    else match t.st with
      | .failed => s1.trkAcquire g
      | .follow => if t.track = m then s1.onTrack g track else s1.trkGo g
      | .seek => if t.seek = some .moving then s1.seekMove g else s1
      | _ => s1
  | _, _ => s1

/-- A POSITION must wait: its head is lost (Table 01-4), its domain is off (R20), or a window of the head is open (Table 05-4; DEDUCED, log entry
18). -/
def State.positionWaits (s : State) (g : HeadId) : Bool := !s.pdOn (bayOf g).val || s.heads[g.val].lost || s.windowOpen g

/-- The first held POSITION of a head is taken up when nothing holds it any more (Table 01-4). -/
def State.servePosition (s : State) (g : HeadId) : State :=
  if s.positionWaits g then s
  else
    let b := bayOf g
    match s.bays[b.val].requests.find? (fun r => r.head == g && r.isPosition && r.stage == .held) with
    | none => s
    | some r => match r.kind with
      | .position sl track k => (s.setStage b r.tag g .active).actPosition g r.tag sl track k
      | _ => s

/-- Held requests of a head are served (R19, Table 01-4). -/
def State.serveHead (s : State) (g : HeadId) : State := (s.servePosition g).openRequests g

/-! ### The commands -/

/-- POSITION (R17, R147): a place to which no head may be sent is answered with REJECTED; else the request is posted, and taken up unless
it must wait (Table 01-4); a new POSITION takes a head out of tracking FAILED (Table 06-1). -/
def execPosition (b : BayId) (tag : BitVec 16) (h : Fin 2) (sl : BitVec 5) (track : BitVec 18) (k : BeamId) (s : State) :
    Host.Outcome State Fault Refusal :=
  let g := headOf b h
  if !s.mailRoom b then .next s
  else if positionMiss track.toNat k then .next (s.report b (.rejected tag 0))
  else
    let s1 := { s with meter := { s.meter with busyFrom := Tab.put s.meter.busyFrom g.val s.time.localNs } }
    if s.pdOn b.val ∧ s.trkState g = .failed ∧ s.windowOpen g = false then
      .next ((s1.addReq b ⟨tag, g, .position sl track k, .active⟩).actPosition g tag sl track k)
    else .next ((s1.addReq b ⟨tag, g, .position sl track k, .held⟩).servePosition g)

/-- READ_WINDOW (R17): posted; READY follows when the head may open it (R19). -/
def execReadWindow (b : BayId) (tag : BitVec 16) (h : Fin 2) (track : BitVec 18) (frame count : BitVec 32) (s : State) :
    Host.Outcome State Fault Refusal :=
  let g := headOf b h
  if s.mailRoom b then .next ((s.addReq b ⟨tag, g, .readWindow track frame count, .held⟩).openRequests g) else .next s

/-- WRITE_WINDOW (R17, R253): posted; in READ and RESUMING it starts SLOWING (Table 10-1). -/
def execWriteWindow (b : BayId) (tag : BitVec 16) (h : Fin 2) (track : BitVec 18) (frame count : BitVec 32) (s : State) :
    Host.Outcome State Fault Refusal :=
  let g := headOf b h
  if s.mailRoom b then
    .next ((((s.addReq b ⟨tag, g, .writeWindow track frame count, .held⟩).modWr g (fun w => { w with idle := false })).sessionAsk b).openRequests g)
  else .next s

/-- What a cancelled POSITION leaves under way (R152, Table 05-4): a seek comes to rest and the head follows the track on which it lands; a
layer jump ends with its step. -/
def State.cancelPosition (s : State) (g : HeadId) : State :=
  let t := s.heads[g.val].trk
  let s1 := s.modFoc g (fun f => { f with cancelJump := f.st == .jump })
  match t.st, t.seek with
  | .seek, some .waitGrant =>
    ((s1.returnGrant .seek g.val).modTrk g (fun t => { t with seek := none, request := none, expected := none, cancelled := true })).trkAcquire g
  | .seek, some .moving =>
    let x := s1.sleds[g.val]
    (s1.retarget (.sled g) (planStop (s1.seekPar g) x.pos x.vel)).modTrk g (fun t => { t with request := none, cancelled := true })
  | _, _ => s1.modTrk g (fun t => { t with request := none, cancelled := true })

/-- CANCEL (R17, R18, R24): a request whose READY was generated runs on; any other is withdrawn and frees its place. -/
def execCancel (b : BayId) (tag : BitVec 16) (s : State) : Host.Outcome State Fault Refusal :=
  match s.bays[b.val].requests.find? (fun r => r.tag == tag && !r.opened) with
  | none => .next s
  | some r =>
    let s1 := s.modBay b (fun x => { x with requests := x.requests.erase r })
    if r.isPosition ∧ s1.heads[r.head.val].trk.request = some tag then .next (s1.cancelPosition r.head) else .next s1

end Sys2Proof.Machine
end

