-- ==== Sys2Proof/Machine/Wedge.lean ====
section
/-! DEFINITION. WEDGE_TICK (R154): the bay's angle counter passes a wedge boundary, with the per-wedge work of its windows, streams, heads
and spindle. -/

namespace Sys2Proof.Machine

/-! ### Recording along a write stream (R57, R252, R266, R269) -/

/-- The frames of a place's data bits that a stream has ended in e wedges. -/
def framesDone (track f e : Nat) : Nat :=
  let d := bandBits track - 432
  let off := match bandOf track with
    | some .data => (match zoneOfFrame f with
        | some z => (f - zoneFirst z) * 1584 % d
        | none => 0)
    | _ => f * 1584 % d
  (e * d - off) / 1584

/-- No lower-numbered extent of the disc is still open (R252). -/
def State.recordMay (s : State) (e : Extent) : Bool :=
  !s.extents.any (fun x => x.disc == e.disc && x.key != e.key && (match x.seq, e.seq with
    | some a, some b => decide (a < b)
    | _, _ => false))

/-- The record's content is fixed as its first word passes to the head link (R252, R269, R271). -/
def State.fixRecord (s : State) (e : Extent) (at_ : Nat) : State :=
  let f := max at_ (s.nextFrame e.disc e.sl)
  if e.zoneEnd < f + 4 then s.retryExtent e
  else
    let prev := match e.record with
      | some _ => e.prev
      | none => (s.discBay e.disc).bind (fun b => (s.mounts[b.val]).prevRec)
    let tries := match e.record with
      | some r => if e.phase = .recordDue then r.tries else 0
      | none => 0
    s.modExtent e.key (fun x => { x with
      phase := .recordOut
      prev := prev
      tail := f + 4
      record := some ⟨f, x.start, x.sl, x.relocs, f + 4 - x.start, s.now.toNat, tries, false, x.record.isSome⟩ })

/-- The next extent of the head on the side-layer starts recording where the stream stands, when it starts inside the window (R55, R57,
R65). -/
def State.startNext (s : State) (g : HeadId) (w : WindowPos) : State :=
  match s.heads[g.val].foc.sl with
  | none => s
  | some sl =>
    if s.extents.any (fun e => e.head == g && e.area == 0 && (e.phase == .recording || e.phase == .recordDue)) then s
    else match s.extents.find? (fun e => e.head == g && e.sl == sl && e.area == 0 && e.phase == .waiting) with
      | none => s
      | some e =>
        match fitFrom (max w.upto (s.nextFrame e.disc e.sl)) (extentNeed e.blocks) with
        | none => s.retryExtent e
        | some f =>
          if w.frame + w.count ≤ f then s
          else
            let n := extentClusters (dataClusters e.blocks)
            s.modExtent e.key (fun x => { x with
              phase := .recording
              start := f
              clusters := (List.range n).map (fun i => ⟨clusterStart f i, false, 0, false, .waiting⟩)
              tail := clusterStart f n })

/-- The clusters that the stream has written by frame `done` (R264). -/
def State.markWritten (s : State) (g : HeadId) (w : WindowPos) (done : Nat) : State :=
  let now (c : Cluster) : Bool := c.st == .waiting && decide (w.frame ≤ c.place) && decide (c.place + 153 ≤ done)
  let mine (e : Extent) : Bool := e.head == g && e.area == 0 && e.busy
  let n := ((s.extents.filter mine).map (fun e => (e.clusters.filter now).length)).sum
  State.addSat { s with extents := s.extents.map (fun e =>
      if mine e then { e with clusters := e.clusters.map (fun c => if now c then { c with st := .written } else c) } else e) }
    (.wr g) WR.written n

/-- An extent's record is due once the stream comes to the end of its last cluster in the wedge that begins (R269), and is fixed when the
lower-numbered extents of its disc are done (R252). -/
def State.recordStep (s : State) (g : HeadId) (w : WindowPos) : State :=
  let due := s.extents.filter (fun e => e.head == g && e.area == 0 &&
    ((e.phase == .recording && e.clusters.all (fun c => decide (c.place + 153 ≤ w.upto))) || e.phase == .recordDue))
  due.foldl (fun t e => if t.recordMay e then t.fixRecord e w.upto
    else t.modExtent e.key (fun x => if x.phase = .recording ∧ x.record = none then { x with phase := .recordDue } else x)) s

/-- The write stream of a head at a wedge boundary, with the time it has written since the last calibration run (R261). -/
def State.streamWedge (s : State) (g : HeadId) (done : Nat) (ns : Nat) : State :=
  match s.writePos g with
  | none => s
  | some w =>
    let s1 := s.modWr g (fun x => { x with writeNs := x.writeNs + ns })
    if bandOf w.track = some .data then ((s1.markWritten g w done).recordStep g w).startNext g w else s1

/-! ### Windows (R17, R57) -/

/-- A window whose start wedge begins runs. -/
def State.startWindows (s : State) (b : BayId) (w : Nat) : State :=
  s.modBay b (fun x => { x with requests := x.requests.map (fun r =>
    match r.stage with
    | .ready v => if v = w then { r with stage := .running x.wedgeAbs } else r
    | _ => r) })

/-- The frames that a running window has passed by now. -/
def MailReq.done (r : MailReq) (now : Nat) : Nat :=
  match r.kind, r.stage with
  | .readWindow t f n, .running began => f.toNat + min n.toNat (framesDone t.toNat f.toNat (now - began))
  | .writeWindow t f n, .running began => f.toNat + min n.toNat (framesDone t.toNat f.toNat (now - began))
  | _, _ => 0

/-- A running window has passed its last frame. -/
def MailReq.over (r : MailReq) (now : Nat) : Bool :=
  match r.kind, r.stage with
  | .readWindow t f n, .running began => decide (n.toNat ≤ framesDone t.toNat f.toNat (now - began))
  | .writeWindow t f n, .running began => decide (n.toNat ≤ framesDone t.toNat f.toNat (now - began))
  | _, _ => false

/-- A write window ends at its last frame: its streams end with STOP (R257), the side-layer's high-water frame rises, and a cluster whose
writing the end cuts off fails (R266). -/
def State.endWrite (s : State) (g : HeadId) : State :=
  match s.writePos g with
  | none => s
  | some w =>
    let s1 := s.modWr g (fun x => { x with stream := false })
    let s2 := s1.modHead g (fun h => { h with lanes := h.lanes.map (fun l => { l with stream := false }) })
    if bandOf w.track ≠ some .data then s2
    else
      let e := w.frame + w.count
      let mine := s2.extents.filter (fun x => x.head == g && x.area == 0 && x.busy)
      let s3 := mine.foldl (fun t x => match t.discBay x.disc with
        | some b => t.raiseHigh b x.sl e
        | none => t) s2
      mine.foldl (fun t x =>
        ((x.clusters.mapIdx (fun i c => (i, c))).filter (fun p =>
          p.2.st == .waiting && decide (p.2.place < e) && decide (e < p.2.place + 153))).foldl (fun u p => u.failCluster x.key p.1) t) s3

/-- The windows of a head that are over close. -/
def State.closeOver (s : State) (g : HeadId) : State :=
  let b := bayOf g
  let now := s.bays[b.val].wedgeAbs
  let ended := s.bays[b.val].requests.filter (fun r => r.head == g && r.over now)
  if ended.isEmpty then s
  else
    let s1 := if ended.any MailReq.isWrite then s.endWrite g else s
    let s2 := (s1.meterClose g).modBay b (fun x => { x with requests := x.requests.filter (fun r => !(r.head == g && r.over now)) })
    s2

/-- The frame up to which the running write window of a head has passed. -/
def State.writeDone (s : State) (g : HeadId) : Nat :=
  let x := s.bays[(bayOf g).val]
  ((x.requests.find? (fun r => r.head == g && r.isWrite && r.opened)).map (fun r => r.done x.wedgeAbs)).getD 0

/-! ### The command -/

/-- The angle counter at a boundary (R154): a head reads wedge marks until nine in a row are missing. -/
def Bay.tick (x : Bay) (w : Nat) : Bay :=
  let m := if x.markSeen then 0 else x.missed + 1
  { x with wedge := w, wedgeAbs := x.wedgeAbs + 1, missed := m, marks := x.marks && decide (m ≤ 8), markSeen := false }

/-- WEDGE_TICK (R154). With the bay's signal domain off its sequencer is off too (R20) and nothing happens. -/
def execWedgeTick (b : BayId) (w : BitVec 10) (revNs : BitVec 32) (s : State) : Host.Outcome State Fault Refusal :=
  if !s.pdOn b.val then .next s
  else
    let v := s.bays[b.val].wedge
    let s1 := (s.modBay b (fun x => x.tick w.toNat)).startWindows b w.toNat
    let s2 := s1.eachHead b (fun t g => (t.streamWedge g (t.writeDone g) (revNs.toNat / 720)).closeOver g)
    let s3 := s2.eachHead b (fun t g => t.headWedge g v w.toNat)
    let s4 := if w = 0 ∧ s3.bays[b.val].marks = true then s3.wedgeZero b revNs.toNat else s3
    .next (s4.eachHead b State.serveHead)

end Sys2Proof.Machine
end

