-- ==== Sys2Proof/Machine/Demod.lean ====
section
/-! DEFINITION. The soft demodulator and the erasure map of a frame (R47, R230–R232). -/

namespace Sys2Proof.Machine

/-- A symbol follows another in code (R47): a never follows a, and a 1 never directly follows a 1. -/
def symFollows (p w : Sym) : Bool := !(w == .a && p == .a) && !((p.bits.getLastD false) && (w.bits.headD false))

def allSyms : List Sym := [.a, .b, .c, .e, .f]

/-- The sequences w(i − 1) to w(i + 2) that are free of violations (R47, R230). -/
def symSeqs : List (Sym × Sym × Sym × Sym) :=
  allSyms.flatMap (fun p => allSyms.flatMap (fun w => allSyms.flatMap (fun n => allSyms.filterMap (fun m =>
    if symFollows p w && symFollows w n && symFollows n m then some (p, w, n, m) else none))))

/-- Twice the score of bits against their LLRs: +LLR where the bit is 0 and −LLR where it is 1 (R230). -/
def score2 (bits : List Bool) (llr : List Int) : Int := (List.zipWith (fun b l => if b then -l else l) bits llr).sum

/-- The better of two scores, where there may be none. -/
def best2 (a : Option Int) (x : Int) : Option Int :=
  match a with
  | none => some x
  | some y => some (max x y)

/-- Twice the LLRs of the two bits of a pair, over the sequences with their pairs and twice their scores. -/
def pairLlr2 (l : List (Fin 4 × Int)) : Int × Int :=
  let best (p : Fin 4 → Bool) : Int := ((l.filter (fun x => p x.1)).foldl (fun a x => best2 a x.2) none).getD 0
  (best (fun d => d.val < 2) - best (fun d => 2 ≤ d.val), best (fun d => d.val % 2 = 0) - best (fun d => d.val % 2 = 1))

/-- Twice the LLRs of pair i, from the LLRs of the frame's symbols. At the first symbol w(i − 1) does not exist and w(i) is not a; beyond the
last symbol the missing ones count as a, and there is nothing to score (R230; DEDUCED, log entry 40). -/
def pairAt (sym : Nat → List Int) (i : Nat) : Int × Int :=
  let none3 : List Int := [0, 0, 0]
  let at_ (j : Nat) : List Int := if j < 512 then sym j else none3
  let seqs :=
    if i = 0 then
      allSyms.flatMap (fun w => allSyms.flatMap (fun n => allSyms.filterMap (fun m =>
        if w != .a && symFollows w n && symFollows n m then some (Sym.c, w, n, m) else none)))
    else if i = 510 then
      allSyms.flatMap (fun p => allSyms.flatMap (fun w => allSyms.filterMap (fun n =>
        if symFollows p w && symFollows w n then some (p, w, n, Sym.a) else none)))
    else if i = 511 then
      allSyms.flatMap (fun p => allSyms.filterMap (fun w => if symFollows p w then some (p, w, Sym.a, Sym.a) else none))
    else symSeqs
  pairLlr2 (seqs.map (fun q =>
    (modDecode1 q.1 q.2.1 q.2.2.1,
      (if i = 0 then 0 else score2 q.1.bits (at_ (i - 1))) + score2 q.2.1.bits (at_ i) + score2 q.2.2.1.bits (at_ (i + 1))
        + score2 q.2.2.2.bits (at_ (i + 2)))))

/-- A data-bit LLR as delivered: scaled, rounded and saturated to −31 to +31 (R231). -/
def scaleLlr (scale : Nat) (x2 : Int) : Int := clampI (roundHE (x2 * scale) 32) (-31) 31

/-- The hard symbol of three channel-bit LLRs; none is a symbol that R47 flags. A positive LLR favours 0 (R229). -/
def hardSym (l : List Int) : Option Sym :=
  match l.map (fun x => decide (x < 0)) with
  | [false, false, false] => some .a
  | [false, false, true] => some .b
  | [false, true, false] => some .c
  | [true, false, false] => some .e
  | [true, false, true] => some .f
  | _ => none

/-- Symbol j of a frame's hard symbols violates R47. -/
def violatesAt (sym : Nat → List Int) (j : Nat) : Bool :=
  let one (x : Int) : Bool := decide (x < 0)
  let here := sym j
  (hardSym here).isNone || (j == 0 && hardSym here == some .a)
    || (j != 0 && ((hardSym (sym (j - 1)) == some .a && hardSym here == some .a)
      || (one ((sym (j - 1)).getD 2 0) && one (here.getD 0 0))))

/-- A frame's 1,024 data-bit LLRs and the number of its violations, from the channel-bit LLRs after its sync mark (R230, R231). -/
def demod (scale : Nat) (l : List Int) : List Int × Nat :=
  let a := l.toArray
  let sym (j : Nat) : List Int := [a.getD (3 * j) 0, a.getD (3 * j + 1) 0, a.getD (3 * j + 2) 0]
  let bad := (List.range 512).filter (violatesAt sym)
  ((List.range 512).flatMap (fun i =>
    if bad.any (fun j => j == i || j + 1 == i || j == i + 1) then [0, 0]
    else let p := pairAt sym i; [scaleLlr scale p.1, scaleLlr scale p.2]), bad.length)

/-! ### Erasures (R232, R235) -/

/-- Symbol j of a frame at address `at_` lies at these data bits; it touches a span when they meet. -/
def touches (at_ : Int) (span : Int × Int) (j : Nat) : Bool :=
  decide (at_ + 48 + 3 * j < span.2) && decide (span.1 < at_ + 51 + 3 * j)

/-- The marked pairs that one span gives: from the pair before the first symbol that it touches to the pair after the last. -/
def spanPairs (at_ : Int) (span : Int × Int) : Option (Nat × Nat) :=
  let l := (List.range 512).filter (touches at_ span)
  match l.head?, l.getLast? with
  | some a, some b => some (a - 1, min 511 (b + 1))
  | _, _ => none

/-- The erasure map of a frame as runs of pairs, oldest span first. -/
def erasures (at_ : Int) (spans : List (Int × Int)) : List (Nat × Nat) := spans.reverse.filterMap (spanPairs at_)

end Sys2Proof.Machine
end

