-- ==== Sys2Proof/Machine/ReadChannel.lean ====
section
/-! DEFINITION. The read channels (chapter 09): windows of a beam, wedge headers, sync searches, defects, re-slices and the CHAN group. -/

namespace Sys2Proof.Machine

def State.beam (s : State) (g : HeadId) (k : BeamId) : Beam := (s.beams[g.val])[k.val]

def beamBlk (g : HeadId) (k : BeamId) : Blk := .beam g k

def srcChan (g : HeadId) : BitVec 16 := srcHead g 0x10

/-- The global beam number of Table 20-3. -/
def beamInst (g : HeadId) (k : BeamId) : Nat := 4 * g.val + k.val

/-! ### What a beam uses (R234, R247, R248) -/

/-- The committed values of the head's CHAN group. -/
def State.chanSet (s : State) (g : HeadId) : List Nat := (groupFields (tagChan g)).map (fun p => s.act p.1 p.2)

/-- The value of a CHAN field that a beam uses: the set that it adopted, or the committed one. -/
def State.chanFld (s : State) (g : HeadId) (b : Beam) (f : Field) : Nat :=
  match b.set with
  | none => s.act (.chan g) f
  | some vs => ((((groupFields (tagChan g)).zip vs).find? (fun p => p.1.2 == f)).map (·.2)).getD 0

/-- The zone key of a window: the zone of its frame, 32 for the inner selvage, 33 for the outer. -/
def zoneKey (track frame : Nat) : Nat :=
  match bandOf track with
  | some .data => (zoneOfFrame frame).getD 0
  | some .outer => 33
  | _ => 32

/-- The read-channel trims of a beam as committed: ADC offset, ADC gain and start sets (Table 20-3). -/
def State.beamTrims (s : State) (g : HeadId) (k : BeamId) : Tab Int :=
  s.trims.filter (fun e => (e.1 / 65536 % 65536 == beamInst g k) && [11, 12, 15].contains (e.1 / 65536 / 65536))

/-- The taps that R226 and R227 fix: h_own[0] is 1.0, and a missing neighbour's taps are 0. -/
def fixTaps (k : BeamId) (t : Vector Int 29) : Vector Int 29 :=
  Vector.ofFn (fun i : Fin 29 =>
    if i.val = 7 then 0x2000
    else if 15 ≤ i.val ∧ i.val < 22 ∧ k.val = 0 then 0
    else if 22 ≤ i.val ∧ k.val = 3 then 0
    else t[i.val])

/-- Element e of the start set of a beam in a zone: gain, baseline, asymmetry, then the taps; as the BEAM registers reset where the store
has none (Table 19-1, Table 20-3). -/
def startEl (t : Tab Int) (inst zone e : Nat) : Int :=
  (Tab.get? t (trimKey 15 inst (zone * 32 + e))).getD (if e = 0 then 0x1000 else if e = 10 then 0x2000 else 0)

/-- The start values of the calibration store (R234). -/
def State.startVals (s : State) (g : HeadId) (k : BeamId) (zone : Nat) : LoopVals :=
  let t := s.beamTrims g k
  let n := beamInst g k
  { gain := (startEl t n zone 0).toNat
    pga := (s.trimC 9 n 0).toNat
    offset := startEl t n zone 1
    asym := startEl t n zone 2
    taps := fixTaps k (Vector.ofFn (fun i : Fin 29 => startEl t n zone (3 + i.val))) }

/-! ### Adaptation (R233, Table 09-2) -/

/-- The loops as the samples have adapted them, within the limits of Table 09-2; in ACQUIRE taps and asymmetry are held; without
adapt_enable only timing runs. -/
def State.adaptLoops (s : State) (g : HeadId) (k : BeamId) (b : Beam) (x : LoopIn) : Beam :=
  let on : Bool := s.fld (.chan g) CHAN.adapt_enable == 1
  let freq := clampI x.freq.toInt (-50000) 50000
  let gain := (clampI x.gain.toNat (b.gain0 / 2 : Nat) (2 * b.gain0 : Nat)).toNat
  let offset := clampI x.offset.toInt (-8192) 8192
  match b.st with
  | .idle | .coast => b
  | .acquire => { b with freq := freq, vals := if on then { b.vals with gain := gain, offset := offset } else b.vals }
  | .resync => { b with freq := freq, vals := if on then { b.vals with gain := gain, offset := offset } else b.vals }
  | .track =>
    { b with freq := freq
             vals := if on then { b.vals with
                gain := gain, offset := offset, asym := clampI x.asym.toInt (-8192) 8192
                taps := fixTaps k (x.taps.map (fun v => clampI v.toInt (-16384) 16384)) }
              else b.vals }

/-- A beam adopts, at a found sync, the CHAN group and the trims as committed (R21, R234, R247); a trim set replaces the running values
and clears the beam's warm sets. -/
def State.adoptBeam (s : State) (g : HeadId) (k : BeamId) : State :=
  let t := s.beamTrims g k
  let set := s.chanSet g
  s.modBeam g k (fun b =>
    if b.trims = t then { b with set := some set }
    else
      let v := s.startVals g k b.zone
      { b with set := some set, trims := t, vals := { v with pga := b.vals.pga }, gain0 := v.gain, warm := [] })

/-! ### Delivered frames (R231, R232, R244, R245) -/

/-- The frames of a codeword: q = 19 c + j of its cluster (R52). -/
def Codeword.needs (c : Codeword) (f : Frame) : Bool :=
  f.head == c.head && f.sl == c.sl &&
    (List.range 19).any (fun j => let p := codewordFrame c.cluster (19 * c.c + j); decide (p.1 = f.beam.val) && decide (p.2 = f.frame))

/-- Every frame of a codeword is in the replay store. -/
def State.haveFrames (s : State) (c : Codeword) : Bool := decide (19 ≤ (s.replay.filter c.needs).length)

/-- Codewords whose last frame has come join the ready queue (R282). -/
def State.collect (s : State) : State :=
  { s with codewords := s.codewords.map (fun c =>
      if c.phase = .collecting ∧ s.haveFrames c = true then { c with phase := .ready, at_ := s.time.localNs } else c) }

/-- Two frames of the store are the same frame. -/
def Frame.same (a b : Frame) : Bool := a.head == b.head && a.beam == b.beam && a.sl == b.sl && a.frame == b.frame

/-- |LLR| counts of a frame by bin of HIST. -/
def histBin (l : List Int) (j : Nat) : Nat := (l.filter (fun x => min 15 (x.natAbs / 4) == j)).length

/-- A frame is delivered and kept in the replay store; counters, flags and histogram follow (R231, R244, R245, Table 09-7). -/
def State.deliver (s : State) (g : HeadId) (k : BeamId) (num : Nat) (at_ : Int) (st : FrameStatus) (mismatch erased : Bool)
    (alt : Option Int) (raw : List Int) : State :=
  let b := s.beam g k
  let blk := beamBlk g k
  let d := demod (s.chanFld g b CHAN.llr_scale) (raw.drop 72)
  let fr : Frame := ⟨g, k, b.sl, num, st, mismatch, alt, 0, if erased then [(0, 511)] else erasures at_ b.spans, d.1, raw⟩
  let s1 := { s with replay := fr :: s.replay.filter (fun x => !x.same fr) }
  let s2 := s1.addSat blk BEAM.violations d.2
  let bits := (raw.drop 24).take 1584
  let s3 := (List.range 16).foldl (fun t j => t.addSat blk (BEAM.hist j) (histBin bits j)) s2
  let s4 := if mismatch then s3.flag blk BEAM.type_mismatch else s3
  let s5 := match st with
    | .synced => s4.incSat blk BEAM.synced
    | .inferred => s4.incSat blk BEAM.inferred
    | .lost => (s4.incSat blk BEAM.lost).flag blk BEAM.lost_frames
    | .blank => s4.incSat blk BEAM.lost
    | .resliced => s4
  s5.collect

/-! ### Sync searches (R239–R243, Table 09-3) -/

/-- A beam enters RESYNC. -/
def State.toResync (s : State) (g : HeadId) (k : BeamId) : State :=
  (s.modBeam g k (fun b => { b with st := .resync })).flag (beamBlk g k) BEAM.resync

/-- An anchor at offset d from the prediction: the beam is in TRACK, unless a defect still freezes it, infer_run is 0, and the sync is an
adoption point (R234, R241, R243). -/
def State.anchor (s : State) (g : HeadId) (k : BeamId) (d : Int) : State :=
  (s.modBeam g k (fun b => { b with
    pred := b.pred + d, inferRun := 0, st := if b.defect.isSome then .coast else .track })).adoptBeam g k

/-- The search goes on to the next frame. -/
def State.nextSync (s : State) (g : HeadId) (k : BeamId) : State :=
  s.modBeam g k (fun b => { b with next := b.next + 1, pred := b.pred + 1584, recentre := none })

/-- A frame without an anchor at its prediction (Table 09-3, R243): INFERRED, LOST or BLANK; a third in a row, and the first search of
ACQUIRE, enter RESYNC. -/
def State.missFrame (s : State) (g : HeadId) (k : BeamId) (num : Nat) (at_ : Int) (mismatch blank : Bool) (alt : Option Int) (raw : List Int) : State :=
  let b := s.beam g k
  if b.st = .resync then s.deliver g k num at_ (if blank then .blank else .lost) mismatch true alt raw
  else if b.inferRun < 2 then
    let s1 := (s.deliver g k num at_ (if blank then .blank else .inferred) mismatch false alt raw).modBeam g k
      (fun x => { x with inferRun := x.inferRun + 1 })
    if b.st = .acquire then s1.toResync g k else s1
  else (s.deliver g k num at_ (if blank then .blank else .lost) mismatch false alt raw).toResync g k

/-- The LLRs of a frame sliced at offset d from the prediction, from 24 bits before it to 24 bits after its end (R244). -/
def cutLlr (l : List (BitVec 8)) (d : Int) : List Int := ((l.drop (256 + d).toNat).take 1632).map (·.toInt)

/-- An address lies in a defect span, or in a defect that has not ended (R247). -/
def Beam.inDefect (b : Beam) (guardStart : Nat) (a : Int) : Bool :=
  b.spans.any (fun p => decide (p.1 ≤ a) && decide (a < p.2)) ||
    (match b.defect with
      | some n => decide (n - guardStart ≤ a)
      | none => false)

/-- The half-width of a search (R240, R243, Table 09-6). -/
def State.syncWindow (s : State) (g : HeadId) (b : Beam) : Nat :=
  if b.st = .resync then max 24 (s.chanFld g b CHAN.wide_window) else min 24 (max 1 (s.chanFld g b CHAN.window))

/-- The candidate that counts: inside the search window, as centred or widened, and not in a defect span (R238, R242, R247). -/
def State.candidate (s : State) (g : HeadId) (b : Beam) (i : SyncIn) : Option (Int × Fin 4) :=
  let lead := s.chanFld g b CHAN.defect_min + s.chanFld g b CHAN.guard
  match i.candidate with
  | none => none
  | some (d, ty) =>
    let w : Int := s.syncWindow g b
    let centre := b.recentre.getD 0
    let near := decide (centre - w ≤ d) && decide (d ≤ centre + w)
    let wide := match b.pend with
      | some p => decide (min p.prov 0 - w ≤ d) && decide (d ≤ max p.prov 0 + w)
      | none => false
    if (near || wide) && !b.inDefect lead (b.pred + d) then some (d, ty) else none

/-- A frame whose search stands on its own (Table 09-3). -/
def State.judge (s : State) (g : HeadId) (k : BeamId) (i : SyncIn) (cand : Option (Int × Fin 4)) : State :=
  let b := s.beam g k
  match cand with
  | none => (s.missFrame g k b.next b.pred false i.blankEnvelope none (cutLlr i.llr 0)).nextSync g k
  | some (d, ty) =>
    if b.st ≠ .resync ∧ d.natAbs ≤ s.chanFld g b CHAN.challenge_tol then
      (((s.deliver g k b.next (b.pred + d) .synced (ty != i.expected) false none (cutLlr i.llr d))).anchor g k d).nextSync g k
    else
      -- the store keeps the LLRs for both positions until the challenge resolves
      (s.modBeam g k (fun x => { x with pend := some ⟨d, ty != i.expected, i.blankEnvelope, i.llr.map (·.toInt)⟩ })).nextSync g k

/-- The LLRs of a pending frame sliced at offset d. -/
def PendFrame.cut (p : PendFrame) (d : Int) : List Int := (p.raw.drop (256 + d).toNat).take 1632

/-- A pending frame whose challenge is unresolved (R242): sliced at its prediction, its provisional offset recorded. -/
def State.unresolved (s : State) (g : HeadId) (k : BeamId) (p : PendFrame) : State :=
  let b := s.beam g k
  ((s.modBeam g k (fun x => { x with pend := none })).missFrame g k (b.next - 1) (b.pred - 1584) p.mismatch false (some p.prov) (p.cut 0)).incSat
    (beamBlk g k) BEAM.rejected

/-- The frame of the resolving sync is delivered at its candidate and anchors; the sync that follows a window's last frame belongs to no
wanted frame and only resolves. -/
def State.resolveAt (s : State) (g : HeadId) (k : BeamId) (i : SyncIn) (d : Int) (ty : Fin 4) : State :=
  let b := s.beam g k
  let s1 := if b.next < b.last then s.deliver g k b.next (b.pred + d) .synced (ty != i.expected) false none (cutLlr i.llr d) else s
  (s1.anchor g k d).nextSync g k

/-- The challenge of a pending frame by the next frame's sync (R242). -/
def State.challenge (s : State) (g : HeadId) (k : BeamId) (i : SyncIn) (p : PendFrame) (cand : Option (Int × Fin 4)) : State :=
  let b := s.beam g k
  let blk := beamBlk g k
  let s0 := s.modBeam g k (fun x => { x with pend := none })
  match cand with
  | some (d, ty) =>
    if (d - p.prov).natAbs ≤ 1 then
      ((s0.deliver g k (b.next - 1) (b.pred - 1584 + p.prov) .synced p.mismatch false none (p.cut p.prov)).incSat blk BEAM.confirmed).resolveAt
        g k i d ty
    else if d.natAbs ≤ 1 then
      ((s0.missFrame g k (b.next - 1) (b.pred - 1584) p.mismatch false none (p.cut 0)).incSat blk BEAM.rejected).resolveAt g k i d ty
    else
      let s1 := s.unresolved g k p
      if b.next < b.last then s1.judge g k i cand else s1.nextSync g k
  | none =>
    let s1 := s.unresolved g k p
    if b.next < b.last then s1.judge g k i none else s1.nextSync g k

/-! ### The commands -/

/-- The read window of a head that has its READY (R246). -/
def State.readWindow? (s : State) (g : HeadId) : Option (Nat × Nat × Nat) :=
  s.bays[(bayOf g).val].requests.findSome? (fun r =>
    match r.kind with
    | .readWindow t f n => if r.head == g && r.opened then some (t.toNat, f.toNat, n.toNat) else none
    | _ => none)

/-- The address of a window's first frame, counted in data bits from wedge 0 of its first turn (R225, R239). -/
def firstAddr (track frame : Nat) : Int :=
  let d := bandBits track - 432
  let p := match bandOf track with
    | some .data => (locateFrame frame).getD ⟨0, 0, 432⟩
    | _ => locateAreaFrame track frame
  p.wedge * d + (p.bit - 432)

/-- BEAM_WINDOW_START (R222, R234, R239, R246): ACQUIRE with the warm set of the zone, else the start values of the calibration store. -/
def execBeamWindowStart (g : HeadId) (k : BeamId) (s : State) : Host.Outcome State Fault Refusal :=
  match s.readWindow? g, s.heads[g.val].foc.sl, s.bays[(bayOf g).val].disc with
  | some (t, f, n), some sl, some disc =>
    let b := s.beam g k
    if b.st ≠ .idle ∨ s.fld (.chan g) CHAN.enable = 0 then .next s
    else
      let z := zoneKey t f
      let warm := if b.warmFor = some (disc, sl) ∧ b.trims = s.beamTrims g k then b.warm else []
      let v := match Tab.get? warm z with
        | some w => if s.fld (.chan g) CHAN.warm_enable = 1 then w else s.startVals g k z
        | none => s.startVals g k z
      .next (s.modBeam g k (fun b => { b with
        st := .acquire
        vals := { v with pga := (s.startVals g k z).pga }
        gain0 := v.gain, zone := z, freq := 0, warm := warm, warmFor := some (disc, sl)
        set := some (s.chanSet g)
        trims := s.beamTrims g k
        sl := sl, next := f, last := f + n, pred := firstAddr t f
        recentre := none, inferRun := 0, pend := none, defect := none, spans := [] }))
  | _, _, _ => .next s

/-- BEAM_WINDOW_END (R234, R242, R246): a pending frame's challenge is unresolved, the warm set is saved, and the beam is in IDLE. -/
def execBeamWindowEnd (g : HeadId) (k : BeamId) (s : State) : Host.Outcome State Fault Refusal :=
  let b := s.beam g k
  if b.st = .idle then .next s
  else
    let s1 := match b.pend with
      | some p => s.unresolved g k p
      | none => s
    .next (s1.modBeam g k Beam.close)

/-- A header is valid (R42): biphase, parity and a side-layer that names a layer. -/
def headerGood (h : HeaderIn) : Bool := h.biphaseOk && h.parityOk && slValid h.sideLayer && decide (h.wedge.toNat < 720)

/-- The header reader's position report re-centres the next search when it lies more than 2 bits off (R238). -/
def Beam.slip (b : Beam) (off : Int) : Beam :=
  if b.st ≠ .idle ∧ 2 < off.natAbs then { b with recentre := some off, slips := satInc 8 b.slips } else b

/-- WEDGE_HEADER (R237): the mark lies within 32 bits of its prediction. A valid header sets the angle counter (R154), and feeds the focus
(R123, R125), tilt and tracking (R140, R146) sequencers; the stream's rate follows its time (R257). -/
def execWedgeHeader (g : HeadId) (k : BeamId) (h : HeaderIn) (s : State) : Host.Outcome State Fault Refusal :=
  let b := bayOf g
  if !s.pdOn b.val || decide (32 < h.markOffset.toInt.natAbs) || !headerGood h then .next s
  else
    let s1 := s.modBay b (fun x => { x with wedge := h.wedge.toNat, marks := true, markSeen := true, missed := 0 })
    let s2 := s1.modBeam g k (fun x => x.slip h.markOffset.toInt)
    let s3 := if (s2.heads[g.val].lanes[k.val]).stream then s2.modLane g k (fun l => { l with period := h.ratePeriod }) else s2
    .next ((s3.focHeader g h.sideLayer).trkHeader g k h (ungray h.gray))

/-- SYNC_SEARCH (R239–R243, Table 09-3). -/
def execSyncSearch (g : HeadId) (k : BeamId) (i : SyncIn) (s : State) : Host.Outcome State Fault Refusal :=
  let b := s.beam g k
  if b.st = .idle ∨ (b.last ≤ b.next ∧ b.pend = none) then .next s
  else
    let s1 := s.modBeam g k (fun x => s.adaptLoops g k x i.loops)
    let cand := s.candidate g b i
    match b.pend with
    | some p => .next (s1.challenge g k i p cand)
    | none => .next (s1.judge g k i cand)

/-- DEFECT_START (R223, R235): a defect is declared at data bit `at_`; the loops are frozen and the timing loop coasts. -/
def execDefectStart (g : HeadId) (k : BeamId) (at_ : BitVec 32) (s : State) : Host.Outcome State Fault Refusal :=
  let b := s.beam g k
  if b.st = .idle ∨ b.defect.isSome then .next s
  else .next ((s.modBeam g k (fun x => { x with
    defect := some (at_.toNat : Int), st := if x.st = .track then .coast else x.st })).incSat (beamBlk g k) BEAM.defects)

/-- A coast has reached 4,097 bits (R224, R236). -/
def State.longDefect (s : State) (g : HeadId) (k : BeamId) : State :=
  ((s.flag (beamBlk g k) BEAM.long_defect).incSat (beamBlk g k) BEAM.long_defects).toResync g k

/-- DEFECT_END (R235, R236): the end is declared at data bit `at_`; the span runs from guard bits before the start to guard bits after the
end; a coast of at most 4,096 bits ends in TRACK. -/
def execDefectEnd (g : HeadId) (k : BeamId) (at_ : BitVec 32) (coastBits : BitVec 16) (s : State) : Host.Outcome State Fault Refusal :=
  let b := s.beam g k
  match b.defect with
  | none => .next s
  | some n =>
    let m : Int := s.chanFld g b CHAN.defect_min
    let guard : Int := s.chanFld g b CHAN.guard
    let s1 := s.modBeam g k (fun x => { x with defect := none, spans := (n - m - guard, (at_.toNat : Int) - m + guard) :: x.spans })
    if b.st ≠ .coast then .next s1
    else if coastBits.toNat ≤ 4096 then .next (s1.modBeam g k (fun x => { x with st := .track }))
    else .next (s1.longDefect g k)

/-- COAST_LIMIT (R224, R236, Table 09-4): RESYNC. -/
def execCoastLimit (g : HeadId) (k : BeamId) (s : State) : Host.Outcome State Fault Refusal :=
  if (s.beam g k).st = .coast then .next (s.longDefect g k) else .next s

/-- RESLICE_REQUEST (R244): the frame is demodulated again at an offset of −24 to +24 bits from its slicing point and delivered as
RESLICED; a frame that is not in the store is refused (Table 09-5). -/
def execResliceRequest (g : HeadId) (k : BeamId) (frame : BitVec 32) (offset : BitVec 6) (s : State) : Host.Outcome State Fault Refusal :=
  match s.replay.find? (fun f => f.head == g && f.beam == k && decide (f.frame = frame.toNat)) with
  | none => .next s
  | some f =>
    if 24 < offset.toInt.natAbs then .next s
    else
      let d := demod (s.chanFld g (s.beam g k) CHAN.llr_scale) (f.raw.drop (72 + offset.toInt).toNat)
      .next (({ s with replay := s.replay.map (fun (x : Frame) =>
        if Frame.same x f then { x with status := .resliced, offset := offset.toInt, data := d.1 } else x) }).addSat (beamBlk g k) BEAM.violations d.2)

/-- The commit check of R248. -/
def State.chanOk (s : State) (g : HeadId) : Bool :=
  (List.range 5).any (fun j => s.fld (.chan g) (CHAN.target_c j) != 0)
    && decide (s.fld (.chan g) CHAN.defect_min + s.fld (.chan g) CHAN.guard ≤ 32)
    && decide (64 ≤ s.fld (.chan g) CHAN.acq_bits)

/-- The CHAN group is committed; beams in a window adopt it at their next found sync (Table 09-5), a bay whose domain is off when it comes on
(R504). -/
def State.commitChan (s : State) (g : HeadId) : State :=
  let s1 := s.commitWith (tagChan g) (s.chanOk g) (srcChan g) (some (.chan g, CHAN.commit_error))
  if s.pdOn (bayOf g).val then s1.adopt (tagChan g) else s1

/-- CHAN_COMMIT (R248). -/
def execChanCommit (g : HeadId) (s : State) : Host.Outcome State Fault Refusal :=
  if !s.answers (.chan g) then .next (s.absent (.chan g) CHAN.go.off) else
  .next (s.commitChan g)

/-- The counters and histogram of a BEAM block. -/
def beamStats : List Field :=
  [BEAM.synced, BEAM.inferred, BEAM.lost, BEAM.confirmed, BEAM.rejected, BEAM.defects, BEAM.long_defects, BEAM.violations]
    ++ (List.range 16).map BEAM.hist

/-- CHAN_CLEAR_STATS (R249). -/
def execChanClearStats (g : HeadId) (s : State) : Host.Outcome State Fault Refusal :=
  if !s.answers (.chan g) then .next (s.absent (.chan g) CHAN.clear_stats.off) else
  .next ((List.finRange 4).foldl (fun t k =>
    (beamStats.foldl (fun u f => u.setSta (beamBlk g k) f 0) t).modBeam g k (fun b => { b with slips := 0 })) s)

end Sys2Proof.Machine
end

