-- ==== Sys2Proof/Machine/WriteStrategy.lean ====
section
/-! DEFINITION. The write strategy and the words of a write stream (R77–R82, R255–R259). -/

namespace Sys2Proof.Machine

/-! ### Levels (R255, R260) -/

/-- A result of the latest calibration run of an emitter. -/
def State.opcRes (s : State) (g : HeadId) (sl : BitVec 5) (k : BeamId) (outer : Bool) : Option OpcRes :=
  match s.bays[(bayOf g).val].disc with
  | none => none
  | some d => (s.discEntry d).bind (fun e => e.opc.find? (fun r => r.head == g && r.sl == sl && r.beam == k && r.outer == outer))

/-- P_k(r): linear in radius between the inner and the outer result, the nearer one outside their span; a single result is constant; a
head without a result has the start value of the calibration store (R255, R259, R261). -/
def State.pLevel (s : State) (g : HeadId) (sl : BitVec 5) (k : BeamId) (r : Int) : Int :=
  match s.opcRes g sl k false, s.opcRes g sl k true with
  | some a, some b =>
    let ra := radius a.track
    let rb := radius b.track
    if r ≤ ra ∨ rb ≤ ra then a.power
    else if rb ≤ r then b.power
    else a.power + roundHE (((b.power : Int) - a.power) * (r - ra)) (rb - ra)
  | some a, none => a.power
  | none, some b => b.power
  | none, none => s.trimA g 5 (beamInst g k) 0

/-- A power in µW as a setpoint. -/
def uw (p : Int) : BitVec 16 := BitVec.ofInt 16 (clampI p 0 65535)

/-- The levels LV0–LV3 of an emitter for a write power (R255). -/
def State.levelsFor (s : State) (g : HeadId) (k : BeamId) (p : Int) : Vector (BitVec 16) 4 :=
  #v[uw (s.trimA g 4 (beamInst g k) 0), uw (roundHE (p * s.trimA g 13 g.val 1) 256), uw (roundHE (p * s.trimA g 13 g.val 0) 256), uw p]

/-- LV3 exceeds 35.0 mW (R70, R255). -/
def overLevel (p : Int) : Bool := decide (35000 < p)

/-- The levels of step i of a calibration run: every level scaled by (16 + i) / 20 (R259). -/
def State.stepLevels (s : State) (g : HeadId) (k : BeamId) (p i : Nat) : Vector (BitVec 16) 4 :=
  (s.levelsFor g k p).map (fun x => uw (roundHE (x.toNat * (16 + i)) 20))

/-! ### Words of a lane (R77–R81, Tables 03-4 and 03-5) -/

/-- A control word. -/
def ctlWord (type n arg : Nat) : BitVec 16 := BitVec.ofNat 16 (0xE000 + type * 512 + n * 64 + arg)

/-- An edge word (Table 03-4). -/
def edgeWord (space mark : Nat) (lead trail : Int) : BitVec 16 :=
  BitVec.ofNat 16 ((space - 2) * 8192 + (mark - 2) * 1024 + unsigned 5 lead * 32 + unsigned 5 trail)

/-- RATE with a period of 28 bits. -/
def rateWords (p : BitVec 28) : List (BitVec 16) := [ctlWord 3 2 0, (p.extractLsb' 16 12).setWidth 16, p.extractLsb' 0 16]

/-- GAP of 432 bits, o bits into the next edge word (R81). -/
def gapWords (o : Nat) : List (BitVec 16) := [ctlWord 2 1 0, BitVec.ofNat 16 (o * 4096 + 432)]

/-- SETPOINT for LV0–LV3 and STRATEGY for the seven mark lengths (R256). -/
def setupWords (lv : Vector (BitVec 16) 4) (st : Vector (BitVec 6) 7) : List (BitVec 16) :=
  (List.finRange 4).flatMap (fun i => [ctlWord 4 1 i.val, lv[i.val]])
    ++ (List.finRange 7).flatMap (fun i => [ctlWord 5 1 i.val, (st[i.val]).setWidth 16])

/-- The edge words of runs of (space, mark), with a GAP before the word in which a header gap falls; `left` channel bits lie before the
next gap and d between two gaps (R81, R256). -/
def State.edgeWords (s : State) (g : HeadId) (d : Nat) : Nat → List (BitVec 4 × BitVec 4) → List (BitVec 16)
  | _, [] => []
  | left, (sp, mr) :: r =>
    let n := sp.toNat + mr.toNat
    let lead := s.trimA g 7 g.val ((sp.toNat - 2) * 7 + (mr.toNat - 2))
    let trail := match r with
      | (nx, _) :: _ => s.trimA g 8 g.val ((mr.toNat - 2) * 7 + (nx.toNat - 2))
      | [] => Config.lastTrail.toInt
    let gap := if left < n then gapWords left else []
    gap ++ edgeWord sp.toNat mr.toNat lead trail :: s.edgeWords g d (if left < n then left + d - n else left - n) r

/-- The first-pulse lengths of the strategy set (R256). -/
def State.firstPulses (s : State) (g : HeadId) : Vector (BitVec 6) 7 := Vector.ofFn (fun i : Fin 7 => BitVec.ofInt 6 (s.trimA g 6 g.val i.val))

/-- The words of a window on a lane, in the order of R257. -/
def State.streamWords (s : State) (g : HeadId) (lv : Vector (BitVec 16) 4) (period : BitVec 28) (track frame : Nat)
    (runs : List (BitVec 4 × BitVec 4)) : List (BitVec 16) :=
  let d := bandBits track - 432
  let bit := match bandOf track with
    | some .data => ((locateFrame frame).map (·.bit)).getD 432
    | _ => (locateAreaFrame track frame).bit
  setupWords lv (s.firstPulses g) ++ rateWords period ++ [ctlWord 1 0 0] ++ s.edgeWords g d (d + 432 - bit) runs ++ [ctlWord 6 0 0]

/-! ### Test frames (R259) -/

/-- The first n bits of the PRBS x^23 + x^18 + 1 from a register. -/
def prbsBits : Nat → BitVec 23 → List Bool
  | 0, _ => []
  | n + 1, r => r.getLsbD 22 :: prbsBits n ((r <<< 1) ||| (if r.getLsbD 22 != r.getLsbD 17 then 1 else 0))

/-- The 1,024 bits of the test frame of a number. -/
def testFrame (frame : Nat) : List Bool := prbsBits 1024 (BitVec.ofNat 23 (frame + 1))

end Sys2Proof.Machine
end

