-- ==== Sys2Proof/Machine/Recording.lean ====
section
/-! DEFINITION. Recording and verification (chapter 10): sessions, write windows, calibration runs, verdicts, anchors, checkpoints and the WR
and VCHAN groups. -/

namespace Sys2Proof.Machine

def srcVchan (g : HeadId) (k : Nat) : BitVec 16 := srcHead g (0x30 + k)

/-! ### Sessions (Table 10-1) -/

/-- WRITING_ENTRY (Table 10-1): at_speed at 2,700 rpm with the write-session grant held; held requests are served. -/
def execWritingEntry (b : BayId) (s : State) : Host.Outcome State Fault Refusal :=
  let bay := s.bays[b.val]
  if bay.sess = .slowing ∧ bay.spindle.atSpeed = true ∧ s.fld (.spindle b) SPINDLE.rpm = writeRpm ∧ s.writeHeld b = true then
    let s1 := (s.modBay b (fun x => { x with sess := .writing })).eachHead b (fun t g => t.modWr g (fun w => { w with idle := false }))
    .next (s1.eachHead b State.openRequests)
  else .next s

/-- Something of a head waits for recording (Table 10-1). -/
def State.recordingWaits (s : State) (g : HeadId) : Bool :=
  let b := bayOf g
  let w := s.wrs[g.val]
  let m := s.mounts[b.val]
  s.bays[b.val].requests.any (fun r => r.head == g && r.isWrite)
    || s.extents.any (fun e => e.head == g && (e.phase == .waiting || e.busy))
    || w.run.isSome || !w.due.isEmpty || m.anchorDue || m.ckptDue

/-- SESSION_IDLE_EXPIRY (Table 10-1): session_idle has passed for a head with nothing to record; with both heads idle at once the bay
resumes read speed. -/
def execSessionIdleExpiry (g : HeadId) (s : State) : Host.Outcome State Fault Refusal :=
  let b := bayOf g
  if s.bays[b.val].sess ≠ .writing ∨ s.recordingWaits g = true then .next s
  else
    let s1 := s.modWr g (fun w => { w with idle := true })
    if (bayHeads b).all (fun h => (s1.wrs[h.val]).idle && !s1.recordingWaits h) then .next (s1.resumeRead b) else .next s1

/-! ### Write windows (R255–R257, R266, R268) -/

/-- The running write window of a head. -/
def State.openWrite? (s : State) (g : HeadId) : Option (Nat × Nat × Nat) :=
  s.bays[(bayOf g).val].requests.findSome? (fun r =>
    match r.kind, r.stage with
    | .writeWindow t f n, .running _ => if r.head == g then some (t.toNat, f.toNat, n.toNat) else none
    | _, _ => none)

/-- The streams of a window start on the four lanes (R82, R257). -/
def State.startStreams (s : State) (g : HeadId) (sl : BitVec 5) (track frame : Nat) (runs : Vector (List (BitVec 4 × BitVec 4)) 4) : State :=
  let period : BitVec 28 := BitVec.ofNat 28 (ratePeriod (bandBits track) (s.fld (.spindle (bayOf g)) SPINDLE.rpm))
  let lv (k : BeamId) := s.levelsFor g k (s.pLevel g sl k (radius track))
  let fp := s.firstPulses g
  (s.modHead g (fun h => { h with lanes := h.lanes.mapFinIdx (fun i l hi =>
    let k : BeamId := ⟨i, hi⟩
    { l with stream := true, levels := lv k, latched := lv k, strategy := fp, latchedStrategy := fp, period := period
             sent := s.streamWords g (lv k) period track frame (runs[i]) }) })).modWr g
    (fun w => { w with stream := true, lv := Vector.ofFn (fun k => (lv k).map (·.toNat)) })

/-- Clusters whose place lies before the start of the window are relocated (R266, R268). -/
def State.relocateMissed (s : State) (g : HeadId) (frame : Nat) : State :=
  let mine := s.extents.filter (fun e => e.head == g && e.area == 0 && e.busy)
  mine.foldl (fun t e => ((e.clusters.mapIdx (fun i c => (i, c))).filter (fun p => p.2.st == .waiting && decide (p.2.place < frame))).foldl
    (fun u p => u.relocate e.key p.1) t) s

/-- The extents of a head are closed to packing, oldest first (R251). -/
def State.closeHead (s : State) (g : HeadId) : State :=
  (s.extents.filter (fun e => e.head == g && e.phase == .open)).foldl State.closeExtent s

/-- WRITE_WINDOW_OPEN (R21, R255–R257, R266, R278): the WR and VCHAN sets and the write strategy are adopted, the levels computed, the streams
started, and the head's next extent starts recording. A level beyond 35.0 mW takes the head out of write service for the side-layer,
and the window is held (R255). -/
def execWriteWindowOpen (g : HeadId) (runs : Vector (List (BitVec 4 × BitVec 4)) 4) (s : State) : Host.Outcome State Fault Refusal :=
  match s.openWrite? g, s.heads[g.val].foc.sl with
  | some (track, frame, count), some sl =>
    if (s.wrs[g.val]).stream || s.hlenHigh g || s.heads[g.val].lanes.any (fun l => l.st != .up) then .next s
    else
      let s1 := ((s.adopt (tagWr g)).adopt (tagVchan g)).adoptTrims g [4, 5, 6, 7, 8, 11, 12, 13, 14]
      if (List.finRange 4).any (fun k => overLevel (s1.pLevel g sl k (radius track))) then
        .next (((s1.flag (.wr g) WR.lv3_limit).modWr g (fun w => { w with lv3 := if w.lv3.contains sl then w.lv3 else sl :: w.lv3 })).modBay
          (bayOf g) (fun x => { x with requests := x.requests.map (fun r => if r.head = g ∧ r.opened = true ∧ r.isWrite = true then { r with
            stage := .held } else r) }))
      else
        let s2 := s1.startStreams g sl track frame runs
        if bandOf track = some .data then
          .next (((s2.closeHead g).relocateMissed g frame).startNext g ⟨track, frame, count, frame⟩)
        else .next s2
  | _, _ => .next s

/-! ### Power calibration (R258–R261) -/

/-- OPC_NOW (R261): an inner and an outer run of the side-layer in focus are due; in READ they start SLOWING (Table 10-1). -/
def execOpcNow (g : HeadId) (s : State) : Host.Outcome State Fault Refusal :=
  if !s.answers (.wr g) then .next (s.absent (.wr g) WR.opc_now.off) else
  match s.heads[g.val].foc.sl with
  | none => .next s
  | some sl => .next ((s.modWr g (fun w => { w with due := s.opcRuns g sl })).sessionAsk (bayOf g))

/-- The first track of a turn of a calibration area. -/
def opcTrack (outer : Bool) (turn : Nat) : Nat := (if outer then Area.outerOpc.first else Area.innerOpc.first) + 4 * turn

/-- OPC_RUN_START (R258, R259): a run that is due starts on the first blank turn of its area. -/
def execOpcRunStart (g : HeadId) (outer : Bool) (turn : BitVec 10) (s : State) : Host.Outcome State Fault Refusal :=
  let w := s.wrs[g.val]
  match s.heads[g.val].foc.sl with
  | none => .next s
  | some sl =>
    let used := s.opcUsed g sl outer
    if s.bays[(bayOf g).val].sess ≠ .writing ∨ w.run.isSome ∨ w.due.head? ≠ some outer ∨ s.windowOpen g = true ∨ s.opcService g = false
        ∨ turn.toNat < used ∨ opcTurns outer ≤ turn.toNat then .next s
    else
      let redo : Bool := w.redo.any Option.isSome
      let p (k : BeamId) : Nat := match w.redo[k.val] with
        | some x => x
        | none => (s.pLevel g sl k (radius (opcTrack outer turn.toNat))).toNat
      let run : OpcRun := { sl := sl, outer := outer, turn := turn.toNat
                            second := w.redo.map Option.isSome
                            base := Vector.ofFn p
                            done := w.redo.map (fun r => redo && r.isNone) }
      let s1 := s.modWr g (fun x => { x with
        run := some run, due := x.due.drop 1, redo := Vector.replicate 4 none
        used := Tab.put x.used (2 * sl.toNat + b2n outer) (turn.toNat + 1)
        lastTemp := some s.heads[g.val].temp, writeNs := 0, hist := [] })
      .next (s1.modHead g (fun h => { h with lanes := h.lanes.mapFinIdx (fun i l hi =>
        { l with levels := s.stepLevels g ⟨i, hi⟩ (p ⟨i, hi⟩) 0, latched := s.stepLevels g ⟨i, hi⟩ (p ⟨i, hi⟩) 0 }) }))

/-- A step qualifies (R260). -/
def OpcStep.ok (x : OpcStep) (berExp : Nat) : Bool := decide (0 < x.bits ∧ x.errors * 2 ^ berExp ≤ x.bits)

/-- The power at which β meets the target between steps i and i + 1, both of which qualify, in µW (R260). -/
def opcBetween (p berExp : Nat) (t : Int) (i : Nat) (a b : OpcStep) : Option Int :=
  if OpcStep.ok a berExp && OpcStep.ok b berExp && decide ((a.beta - t) * (b.beta - t) ≤ 0) then
    if a.beta = b.beta then some (roundHE (p * (16 + i)) 20)
    else
      let n := (p : Int) * ((16 + i) * (b.beta - a.beta) + (t - a.beta))
      let d := 20 * (b.beta - a.beta)
      some (if 0 < d then roundHE n d else roundHE (-n) (-d))
  else none

/-- The result of a run on an emitter: the first adjacent pair of steps that brackets the target. -/
def opcResultOf (p berExp : Nat) (t : Int) (steps : Vector OpcStep 8) : Option Int :=
  (List.finRange 7).findSome? (fun i => opcBetween p berExp t i.val steps[i.val] (steps[i.val + 1]'(by omega)))

/-- A result enters the per-disc store (R260, R464); where the other area is full it stands for both (R261). -/
def State.putOpc (s : State) (g : HeadId) (k : BeamId) (run : OpcRun) (p : Nat) : State :=
  match s.bays[(bayOf g).val].disc with
  | none => s
  | some d =>
    let outers := if s.opcFull g run.sl (!run.outer) then [false, true] else [run.outer]
    let new := outers.map (fun o => (⟨run.sl, k, o, p, opcTrack run.outer run.turn, g⟩ : OpcRes))
    let keep (l : List OpcRes) := l.filter (fun r => !(r.head == g && r.sl == run.sl && r.beam == k && outers.contains r.outer))
    let s1 := if s.discStore.any (fun e => e.disc == d) then
        { s with discStore := s.discStore.map (fun e => if e.disc = d then { e with opc := new ++ keep e.opc } else e) }
      else { s with discStore := DiscEntry.mk d [] new :: s.discStore }
    outers.foldl (fun t o => t.setSta (.wr g) (if o then WR.p_outer k.val else WR.p_inner k.val) p) s1

/-- OPC_RUN_DONE (R260): an emitter's result, a second run at another power, or opc_fail; with every emitter judged the run is over. -/
def execOpcRunDone (g : HeadId) (k : BeamId) (steps : Vector OpcStep 8) (s : State) : Host.Outcome State Fault Refusal :=
  match (s.wrs[g.val]).run with
  | none => .next s
  | some run =>
    if run.done[k.val] then .next s
    else
      let t : Int := s.actS (.wr g) WR.beta_target * 256
      let p := run.base[k.val]
      let s1 := match opcResultOf p (s.act (.wr g) WR.ber_exp) t steps with
        | some r => s.putOpc g k run r.toNat
        | none =>
          if run.second[k.val] then (s.flag (.wr g) WR.opc_fail).logEv (srcWr g) .opcFail [k.val]
          else
            let q := if steps.all (fun x => decide (x.beta < t)) then p * 27 / 20 else p * 3 / 4
            s.modWr g (fun w => { w with redo := w.redo.set k.val (some q) })
      let run' := { run with done := run.done.set k.val true }
      if run'.done.all id then
        let s2 := s1.modWr g (fun w => { w with
          run := none, due := if w.redo.any Option.isSome ∧ s1.opcFull g run.sl run.outer = false then run.outer :: w.due else w.due })
        .next (s2.openRequests g)
      else .next (s1.modWr g (fun w => { w with run := some run' }))

/-! ### Verdicts (R263–R265) -/

/-- Header or record frames that fail: one that does not decode, or has more corrected symbols than the limit. -/
def badFrames (c : CopyRead) (limit : Nat) : Nat := (c.frames.toList.filter (fun f => !f.decodes || decide (limit < f.symbols.toNat))).length

/-- A copy is verified (R264, R265). -/
def copyOk (c : CopyRead) (limit : Nat) : Bool := badFrames c limit == 0 && c.crcOk

/-- The extent of a sequence number in recording. -/
def State.extentBySeq (s : State) (seq : BitVec 64) : Option Extent := s.extents.find? (fun e => e.seq == some seq.toNat && e.busy)

/-- A cluster's place has been reached by the stream, and its verdict is still open. -/
def State.awaitsVerdict (s : State) (e : Extent) (c : Cluster) : Bool :=
  c.st == .written || (c.st == .waiting && (match s.writePos e.head with
    | some w => decide (w.frame ≤ c.place) && decide (c.place < w.upto)
    | none => false))

/-- CODEWORD_VERDICT (R263, R264): counters, the codeword's verdict and, where given, the cluster's header frames. A cluster all of whose
codewords and header frames pass is verified; one that fails is relocated (R266). -/
def execCodewordVerdict (seq : BitVec 64) (cluster : Fin 72) (cw : Fin 32) (w : BitVec 12) (frameFailed : Bool) (headers : Option CopyRead)
    (s : State) : Host.Outcome State Fault Refusal :=
  match s.extentBySeq seq with
  | none => .next s
  | some e =>
    match e.clusters[cluster.val]? with
    | none => .next s
    | some c =>
      if !s.awaitsVerdict e c then .next s
      else
        let v := Blk.vchan e.head
        let weight := if frameFailed then 3072 else w.toNat
        let pass := decide (weight ≤ s.act v VCHAN.verify_thr)
        let s1 := (if pass then s.incSat v VCHAN.verified else s.incSat v VCHAN.failed).incSat v (VCHAN.sw_hist (min 15 (weight / 8)))
        let s2 := if frameFailed then s1.incSat v VCHAN.sync_miss else s1
        let limit := s.act v VCHAN.hdr_sym_max
        let s3 := match headers with
          | some h => s2.addSat v VCHAN.header_fail (badFrames h limit)
          | none => s2
        let hdrPass := match headers with
          | some h => copyOk h limit
          | none => true
        if !pass || !hdrPass then .next (s3.failCluster e.key cluster.val)
        else
          let c' := { c with ok := c.ok ||| BitVec.ofNat 32 (2 ^ cw.val), hdrOk := c.hdrOk || headers.isSome }
          let whole : Bool := c'.ok == BitVec.allOnes 32 && c'.hdrOk
          let c'' := if whole then { c' with st := .verified } else c'
          let s4 := s3.modExtent e.key (fun x => { x with clusters := x.clusters.set cluster.val c'' })
          if whole then .next ((s4.modWr e.head (fun x => { x with hist := (false :: x.hist).take 256 })).checkExtent e.key)
          else .next s4

/-- RECORD_VERDICT (R265, R271, R272): a record whose four copies are verified stands; one that fails is written again, unless an amending
record is due. -/
def execRecordVerdict (seq : BitVec 64) (copies : Vector CopyRead 4) (s : State) : Host.Outcome State Fault Refusal :=
  match s.extentBySeq seq with
  | none => .next s
  | some e =>
    match e.record with
    | none => .next s
    | some r =>
      if r.verified then .next s
      else
        let v := Blk.vchan e.head
        let limit := s.act v VCHAN.rec_sym_max
        let s1 := s.addSat v VCHAN.record_fail ((copies.toList.map (fun c => badFrames c limit)).sum)
        if copies.all (fun c => copyOk c limit) then
          .next ((s1.modExtent e.key (fun x => { x with
            record := some { r with verified := true }, stood := some { r with verified := true } })).checkExtent e.key)
        else if e.phase = .recordOut then .next (s1.failRecord e.key)
        else .next s1

/-! ### Anchors and checkpoints (R276) -/

/-- A FLUSH that waits on a generation of the disc, the writes that it waits on all done. -/
def Cmd.awaitsAnchor (c : Cmd) (d : BitVec 128) : Bool := c.stage != .ended && c.waitFor.isEmpty && c.anchors.contains d

/-- A generation of the disc has ended: each FLUSH that waited on it goes on, or fails where no copy was verified (R276, R345). -/
def State.anchorDone (s : State) (d : BitVec 128) (ok : Bool) : State :=
  ((s.cmds.filter (fun c => c.awaitsAnchor d)).map (·.id)).foldl (fun t id =>
    let t1 := t.modCmd id (fun c => { c with
      anchors := c.anchors.filter (· != d), status := if !ok ∧ c.status = 0 then stat 2 2 else c.status })
    match t1.cmd? id with
    | some c => if c.anchors.isEmpty then t1.finish id c.status 0 0 (c.status != 0) else t1
    | none => t1) s

/-- The head that writes anchor area i: side A L0, side A L6, side B L0 (Table 02-10). -/
def anchorHead (b : BayId) (i : Fin 3) : HeadId := if i = 2 then headOf b 1 else headOf b 0

/-- The content of the next generation (Table 02-11). -/
def Mount.nextAnchor (m : Mount) : AnchorIn where
  area := 0
  flags := if 24 ≤ m.full.length then 1 else 0
  generation := BitVec.ofNat 64 (m.generation + 1)
  highestSeq := BitVec.ofNat 64 m.highestSeq
  layers := Vector.ofFn (fun i : Fin 24 => (BitVec.ofNat 32 m.highWater[i.val], match m.lastRec[i.val] with
    | some f => BitVec.ofNat 32 f
    | none => 0xFFFFFFFF))
  ckptSl := match m.ckpt with
    | some (sl, _) => sl
    | none => 0
  ckptFrame := match m.ckpt with
    | some (_, f) => BitVec.ofNat 32 f
    | none => 0xFFFFFFFF

/-- A generation is appended: it stands when a copy of it is verified in any area (R276). -/
def State.appendAnchor (s : State) (b : BayId) (copies rewrites : Vector (Vector CopyRead 4) 3) : State :=
  let rd (i : Fin 3) (v : Vector (Vector CopyRead 4) 3) : Bool :=
    (v[i.val]).any (fun c => copyOk c (s.act (.vchan (anchorHead b i)) VCHAN.rec_sym_max))
  let areas := (List.finRange 3).map (fun i => rd i copies || rd i rewrites)
  let ok := areas.any id
  let s1 := (List.finRange 3).foldl (fun (t : State) i =>
    let v := Blk.vchan (anchorHead b i)
    let limit := t.act v VCHAN.rec_sym_max
    t.addSat v VCHAN.record_fail (((copies[i.val]).toList.map (fun c => badFrames c limit)).sum)) s
  let s2 := s1.modMount b (fun m => { m with
    generation := m.generation + 1
    standing := if ok then some m.nextAnchor else m.standing
    lacking := !areas.all id
    sinceAnchor := 0
    anchorDue := false })
  let s3 := if ok then s2 else s2.logEv (srcBay b 1) .anchorFault [(s2.mounts[b.val]).generation]
  match s3.bays[b.val].disc with
  | some d => s3.anchorDone d ok
  | none => s3

/-- The mount of a disc and its place in the bay end (R276): the map names nothing on it any more. -/
def State.endMount (s : State) (b : BayId) : State :=
  let s1 := s.accrueMounted
  let s2 := match s1.bays[b.val].disc with
    | some d => { s1 with map := s1.map.filter (fun r => r.disc != d) }
    | none => s1
  (s2.modMount b (fun _ => Mount.reset)).modBay b (fun x => { x with disc := none, unusable := false })

/-- Extents of a bay's disc wait for recording. -/
def State.discBusy (s : State) (b : BayId) : Bool :=
  match s.bays[b.val].disc with
  | some d => s.extents.any (fun e => e.disc == d)
  | none => false

/-- ANCHOR_APPEND (R276): a generation that is due, or for which a FLUSH waits; a read-only mount appends none (R294). The generation of an unload ends
the mount once nothing waits for recording on the disc. -/
def execAnchorAppend (b : BayId) (copies rewrites : Vector (Vector CopyRead 4) 3) (s : State) : Host.Outcome State Fault Refusal :=
  let m := s.mounts[b.val]
  let waits : Bool := match s.bays[b.val].disc with
    | some d => s.cmds.any (fun c => c.awaitsAnchor d)
    | none => false
  if m.st = .mounted ∧ (m.anchorDue || waits) = true then
    let s1 := s.appendAnchor b copies rewrites
    if m.unloadAsked then
      if s1.discBusy b then .next (s1.modMount b (fun m => { m with anchorDue := true })) else .next (s1.endMount b)
    else .next s1
  else .next s

/-- MAP_CHECKPOINT (R276, R295): a checkpoint that is due stands at the couching record of its last part. -/
def execMapCheckpoint (b : BayId) (sl : BitVec 5) (frame : BitVec 32) (s : State) : Host.Outcome State Fault Refusal :=
  let m := s.mounts[b.val]
  if m.st = .mounted ∧ m.ckptDue = true then
    .next (s.modMount b (fun m => { m with
      ckpt := some (sl, frame.toNat), covered := m.highestSeq, sinceCkpt := 0, ckptDue := false }))
  else .next s

/-! ### The WR and VCHAN groups (R278) -/

/-- A WR commit; it has no check. -/
def State.commitWr (s : State) (g : HeadId) : State := s.commitWith (tagWr g) true (srcWr g) none

/-- A VCHAN commit: rejected where verify_thr is 0 (Table 10-6). -/
def State.commitVchan (s : State) (g : HeadId) : State :=
  s.commitWith (tagVchan g) (s.fld (.vchan g) VCHAN.verify_thr != 0) (srcVchan g 0) (some (.vchan g, VCHAN.commit_error))

/-- WR_COMMIT (R278). -/
def execWrCommit (g : HeadId) (s : State) : Host.Outcome State Fault Refusal :=
  if !s.answers (.wr g) then .next (s.absent (.wr g) WR.go.off) else
  .next (s.commitWr g)

/-- VCHAN_COMMIT (R278). -/
def execVchanCommit (g : HeadId) (s : State) : Host.Outcome State Fault Refusal :=
  if !s.answers (.vchan g) then .next (s.absent (.vchan g) VCHAN.go.off) else
  .next (s.commitVchan g)

/-- VCHAN_CLEAR_STATS (Table 10-6). -/
def execVchanClearStats (g : HeadId) (s : State) : Host.Outcome State Fault Refusal :=
  if !s.answers (.vchan g) then .next (s.absent (.vchan g) VCHAN.clear_stats.off) else
  .next (([VCHAN.verified, VCHAN.failed, VCHAN.sync_miss, VCHAN.header_fail, VCHAN.record_fail]
    ++ (List.range 16).map VCHAN.sw_hist).foldl (fun t f => t.setSta (.vchan g) f 0) s)

end Sys2Proof.Machine
end

