-- ==== Sys2Proof/Machine/Decoding.lean ====
section
/-! DEFINITION. The decoder pool and the recovery ladder (R279–R291, R300, R301): DECODE_START to SWEEP_SETTLE_END, and the DECODE group. -/

namespace Sys2Proof.Machine

/-! ### The pool (R279–R283) -/

/-- Decoders that are active. -/
def State.activeDecoders (s : State) : Nat := (s.decoders.toList.filter (fun d => d.st == .active)).length

/-- The ready queue: first-pass codewords by the time of their last frame (R282). -/
def State.readyQueue (s : State) : List Codeword := s.codewords.filter (fun c => c.phase == .ready && c.step == 0)

/-- Ladder decodes that wait for a decoder. -/
def State.ladderQueue (s : State) : List Codeword := s.codewords.filter (fun c => c.phase == .ready && c.step != 0)

/-- The oldest of a queue. -/
def oldest (l : List Codeword) : Option Codeword :=
  l.foldl (fun a c => match a with
    | none => some c
    | some x => if c.at_ < x.at_ then some c else a) none

/-- The codeword that a free decoder takes (R282): a ladder decode that has waited ladder_age, else the oldest first-pass codeword, else a
ladder decode while fewer first-pass codewords wait than there are active decoders. -/
def State.nextCodeword (s : State) : Option Codeword :=
  match oldest (s.ladderQueue.filter (·.aged)) with
  | some c => some c
  | none => match oldest s.readyQueue with
    | some c => some c
    | none => if 0 < s.activeDecoders then oldest s.ladderQueue else none

/-- The committed DECODE set. -/
def State.decodeSet (s : State) : List Nat := (groupFields 0x0800).map (fun p => s.act p.1 p.2)

/-- The DECODE field that a codeword uses: of the set that it keeps to the end of its ladder step, else as committed (Table 11-8). -/
def State.decFld (s : State) (c : Codeword) (f : Field) : Nat :=
  match c.set with
  | none => s.act .decode f
  | some vs => ((((groupFields 0x0800).zip vs).find? (fun p => p.1.2 == f)).map (·.2)).getD 0

/-- DECODE_START (R282, Table 11-8): a pending DECODE set is adopted, and the free decoder takes its codeword. -/
def execDecodeStart (i : Fin 20) (s : State) : Host.Outcome State Fault Refusal :=
  let d := s.decoders[i.val]
  if d.st ≠ .active ∨ d.job.isSome ∨ s.pdOn 15 = false then .next s
  else
    let s1 := s.adopt 0x0800
    match s1.nextCodeword with
    | none => .next s1
    | some c =>
      .next ((s1.modCw c.id (fun c => { c with phase := .decoding i.val, aged := false })).modDecoder i (fun d => { d with job := some c.id }))

/-- A free spare takes a retired decoder's place where spare_permit lets it (R281). -/
def State.decoderSpare (s : State) : State :=
  if s.fld .decode DECODE.spare_permit = 0 then s
  else match (List.finRange 20).find? (fun i => (s.decoders[i.val]).st == .spare) with
    | some i => s.modDecoder i (fun d => { d with st := .active })
    | none => s

/-- A decoder is retired (R281, R493): its codeword goes back to the head of its queue and a spare is substituted; a third error within 24 h
of its first pass is lasting without a test. -/
def State.retireDecoder (s : State) (i : Fin 20) : State :=
  let e := s.resError (srcDecoder i.val)
  let s0 := match (s.decoders[i.val]).job with
    | some id => e.2.modCw id (fun c => { c with phase := .ready, at_ := 0 })
    | none => e.2
  let s1 := s0.modDecoder i (fun d => { d with st := if e.1 then .failed else .retired, job := none })
  let s2 := if e.1 then s1.testOutcome (srcDecoder i.val) false else s1
  (s2.logEv (srcDecoder i.val) .decoderRetired [b2n ((List.finRange 20).any (fun j => (s2.decoders[j.val]).st == .spare))]).decoderSpare

/-! ### A codeword's end (R284, R285, R290) -/

/-- The frames that no codeword needs any more leave the replay store (R244, R284). -/
def State.releaseFrames (s : State) (c : Codeword) : State :=
  let rest := s.codewords.filter (fun x => x.id != c.id && x.phase != .converged && x.phase != .failed)
  { s with replay := s.replay.filter (fun f => !c.needs f || rest.any (fun x => x.needs f)) }

/-- The information bytes of a codeword enter its half of the block that wants it (R52, R284). -/
def State.passInfo (s : State) (c : Codeword) (info : List Byte) : State :=
  match c.cmd with
  | none => s
  | some id => s.modCmd id (fun x => { x with blocks := x.blocks.mapIdx (fun i b =>
      if i = c.block then (if c.half = 0 then { b with lo := some info } else { b with hi := some info }) else b) })

/-- A codeword converges: counters, its frames released, its bytes passed on (R284, R285). -/
def State.converge (s : State) (c : Codeword) (info : List Byte) : State :=
  let s1 := (s.modCw c.id (fun x => { x with phase := .converged, info := info, set := none })).releaseFrames c
  let s2 := if c.step = 0 then s1.incSat .decode DECODE.first_pass else s1.incSat .decode (DECODE.step_ok (c.step - 1))
  s2.passInfo c info

/-- Step 7: the logical block fails (R290). -/
def State.unrecovered (s : State) (c : Codeword) : State :=
  let s1 := (s.modCw c.id (fun x => { x with phase := .failed, step := 7, set := none })).releaseFrames c
  let s2 := (s1.incSat .decode DECODE.failed).logEv (srcBlock 13) .unrecoverable [c.disc.toNat, c.sl.toNat, c.extent, c.index, c.c]
  match c.cmd with
  | none => s2
  | some id => s2.modCmd id (fun x => { x with blocks := x.blocks.mapIdx (fun i b => if i = c.block then { b with failed := stat 2 1 } else b) })

/-! ### Sweeps (R288) -/

/-- The offsets of a sweep point in steps of the trims focus offset, SA position and tilt (Table 11-2). -/
def State.sweepOffsets (s : State) (c : Codeword) (point : Nat) : Int × Int × Int :=
  let f : Int := 16 * s.decFld c DECODE.sweep_foc
  let a : Int := s.decFld c DECODE.sweep_sa
  let t : Int := 16 * s.decFld c DECODE.sweep_tilt
  match point with
  | 1 => (f, 0, 0)
  | 2 => (-f, 0, 0)
  | 3 => (0, a, 0)
  | 4 => (0, -a, 0)
  | 5 => (0, 0, t)
  | 6 => (0, 0, -t)
  | 7 => (f, a, 0)
  | 8 => (-f, -a, 0)
  | _ => (0, 0, 0)

/-- The three trims that a sweep moves. -/
def sweepKeys (g : HeadId) (sl : BitVec 5) : List Nat :=
  [trimKey 1 g.val sl.toNat, trimKey 2 g.val sl.toNat, trimKey 3 g.val sl.toNat]

/-- A trim set is committed with no sweep in force, clamped (R461). -/
def State.commitRaw (s : State) (g : HeadId) (l : List (Nat × Int)) : State :=
  let sw := s.sweeps
  let s1 := l.foldl (fun t p => t.commitTrim p.1 p.2) { s with sweeps := Tab.erase s.sweeps g.val }
  { s1 with sweeps := sw }

/-- A sweep point is committed: the base set with its offsets added; it settles (R288). -/
def State.sweepPoint (s : State) (g : HeadId) (x : Sweep) (c : Codeword) (point : Nat) : State :=
  let o := s.sweepOffsets c point
  let v := (sweepKeys g c.sl).zip [o.1, o.2.1, o.2.2]
  let s1 := s.commitRaw g (v.map (fun p => (p.1, Tab.get 0 x.base p.1 + p.2)))
  ({ s1 with sweeps := Tab.put s1.sweeps g.val { x with point := point, settling := true } }).modCw c.id (fun y => { y with point := point })

/-- A codeword in step 5 starts the head's sweep where none runs and no write window of the head is open or posted (R288, Table 19-5). -/
def State.sweepStartFor (s : State) (c : Codeword) : State :=
  let g := c.head
  if (Tab.get? s.sweeps g.val).isSome || s.bays[(bayOf g).val].requests.any (fun r => r.head == g && r.isWrite) then s
  else
    let t := s.abandonTrial g
    t.sweepPoint g ⟨c.id, 0, (sweepKeys g c.sl).map (fun k => (k, Tab.get 0 t.trims k)), true⟩ c 1

/-- A sweep ends: the base set is committed again (R288), and the next codeword of the head that stands in step 5 starts its own. -/
def State.sweepStop (s : State) (g : HeadId) : State :=
  match Tab.get? s.sweeps g.val with
  | none => s
  | some x =>
    let s1 := s.commitRaw g x.base
    let s2 := { s1 with sweeps := Tab.erase s1.sweeps g.val }
    match s2.codewords.find? (fun c => c.head == g && c.step == 5 && c.id != x.cw && c.phase == .ladder) with
    | some c => s2.sweepStartFor c
    | none => s2

/-! ### The ladder (R285–R289) -/

/-- A codeword has a suspect frame (R286). -/
def State.suspect (s : State) (c : Codeword) : Bool :=
  s.replay.any (fun f => c.needs f && (f.status == .inferred || f.status == .lost || f.alt.isSome))

/-- The highest step run (Table 11-9): 0 acts as 1, 7 as 6. -/
def State.maxStep (s : State) : Nat := min 6 (max 1 (s.act .decode DECODE.max_step))

/-- Sweep points of step 5. -/
def State.sweepPoints (s : State) (c : Codeword) : Nat := min 8 (s.decFld c DECODE.sweep_points)

/-- The step that follows step n for a codeword; 7 is the error (R285, R286, R289). Codewords read for a rebuild have no command and go
no further than step 4. -/
def State.stepAfter (s : State) (c : Codeword) (n : Nat) : Nat :=
  let top := if c.cmd.isNone then min 4 s.maxStep else s.maxStep
  let m := n + 1
  let m := if m = 2 ∧ s.suspect c = false then 3 else m
  let m := if m = 4 ∧ s.act .decode DECODE.reread_max = 0 then 5 else m
  let m := if m = 5 ∧ s.act .decode DECODE.sweep_points = 0 then 6 else m
  if top < m then 7 else m

/-- A codeword enters a ladder step, with the DECODE set that it keeps through it. Steps 1 to 3 want a decode at once; steps 4 to 6 read the
disc again first. -/
def State.enterStep (s : State) (c : Codeword) (n : Nat) : State :=
  if n = 7 then s.unrecovered c
  else
    let ph : CwPhase := if n ≤ 3 then .ready else .ladder
    let s1 := s.modCw c.id (fun x => { x with
      step := n, phase := ph, at_ := s.time.localNs, aged := false, set := some s.decodeSet, trials := 0, rereads := 0, point := 0 })
    if n = 5 then
      match s1.codewords.find? (fun x => x.id == c.id) with
      | some x => s1.sweepStartFor x
      | none => s1
    else s1

/-- A codeword whose read was cancelled leaves, with the frames that only it needed (R284, Table 11-8). -/
def State.removeCw (s : State) (c : Codeword) : State :=
  State.releaseFrames { s with codewords := s.codewords.filter (fun x => x.id != c.id) } c

/-- A codeword leaves its ladder step without converging: the next step, or, when its read was cancelled, the end of the ladder
(Table 11-8). -/
def State.climb (s : State) (c : Codeword) : State :=
  let s1 := if c.step = 5 ∧ (Tab.get? s.sweeps c.head.val).any (fun x => x.cw == c.id) then s.sweepStop c.head else s
  if c.stop then s1.removeCw c
  else s1.enterStep c (s1.stepAfter c c.step)

/-- The frames of a re-read replace those in the store, so that the codeword waits for them (R287). -/
def State.reread (s : State) (c : Codeword) : State := s.modCw c.id (fun x => { x with phase := .ladder, rereads := x.rereads + 1 })

/-- A decode of a codeword did not converge. In steps 2, 4 and 5 the step goes on while it has trials, re-reads or sweep points left. -/
def State.decodeFailed (s : State) (c : Codeword) : State :=
  match c.step with
  | 0 => if c.stop then s.removeCw c else (s.incSat .decode DECODE.entered).enterStep c 1
  | 2 =>
    if c.trials + 1 < s.decFld c DECODE.reslice_max then s.modCw c.id (fun x => { x with phase := .ready, trials := x.trials + 1 })
    else s.climb c
  | 4 => if c.rereads + 1 < s.decFld c DECODE.reread_max then s.reread c else s.climb c
  | 5 =>
    match Tab.get? s.sweeps c.head.val with
    | some x =>
      if x.cw = c.id ∧ c.point < s.sweepPoints c then (s.modCw c.id (fun y => { y with phase := .ladder })).sweepPoint c.head x c (c.point + 1)
      else s.climb c
    | none => s.climb c
  | _ => s.climb c

/-- The codeword of a number. -/
def State.cw? (s : State) (id : Nat) : Option Codeword := s.codewords.find? (fun c => c.id == id)

/-- DECODE_DONE (R280, R281, R284): the checker's verdict prevails; a decoder that it contradicts is retired. -/
def execDecodeDone (i : Fin 20) (decoderOk checkerOk : Bool) (iters : BitVec 6) (unsat : BitVec 12) (info : List Byte) (s : State) :
    Host.Outcome State Fault Refusal :=
  match (s.decoders[i.val]).job with
  | none => .next s
  | some id =>
    let s1 := s.modDecoder i (fun d => { d with count := satInc 24 d.count })
    if decoderOk && !checkerOk then
      let s2 := (s1.incSat .decode DECODE.mismatches).logEv (srcDecoder i.val) .decoderMismatch [id, iters.toNat, unsat.toNat]
      .next (s2.retireDecoder i)
    else
      let s2 := s1.modDecoder i (fun d => { d with job := none })
      match s2.cw? id with
      | none => .next s2
      | some c =>
        if checkerOk then (if c.stop then .next ((s2.converge c info).removeCw c) else .next (s2.converge c info))
        else .next (s2.decodeFailed c)

/-- LADDER_AGE_EXPIRY (R282). -/
def execLadderAgeExpiry (cw : BitVec 64) (s : State) : Host.Outcome State Fault Refusal :=
  .next (s.modCw cw.toNat (fun c => if c.phase = .ready ∧ c.step ≠ 0 then { c with aged := true } else c))

/-- LADDER_STEP_DONE (R285, R289): the codeword converges in its step, from a rebuild in step 6, or climbs. -/
def execLadderStepDone (cw : BitVec 64) (converged : Bool) (info : List Byte) (s : State) : Host.Outcome State Fault Refusal :=
  match s.cw? cw.toNat with
  | none => .next s
  | some c =>
    if c.step = 0 ∨ c.step = 7 ∨ c.phase = .converged then .next s
    else if converged then
      let s1 := if c.step = 5 ∧ (Tab.get? s.sweeps c.head.val).any (fun x => x.cw == c.id) then s.sweepStop c.head else s
      let s2 := if c.step = 6 then s1.logEv (srcBlock 13) .recovered [c.disc.toNat, c.sl.toNat, c.extent, c.index] else s1
      .next (s2.converge c info)
    else .next (s.climb c)

/-- SWEEP_SETTLE_END (R288): the sweep point has settled, and the re-read of its codeword is posted. -/
def execSweepSettleEnd (g : HeadId) (s : State) : Host.Outcome State Fault Refusal :=
  match Tab.get? s.sweeps g.val with
  | none => .next s
  | some x =>
    if x.settling then
      let s1 := { s with sweeps := Tab.put s.sweeps g.val { x with settling := false } }
      match s1.cw? x.cw with
      | some c => .next (s1.reread c)
      | none => .next s1
    else .next s

/-! ### The DECODE group (R301) -/

/-- The commit check of R301. -/
def State.decodeOk (s : State) : Bool :=
  decide (s.fld .decode DECODE.iter_first ≤ s.fld .decode DECODE.iter_max) && decide (s.fld .decode DECODE.iter_max ≤ 60)

/-- A DECODE commit. -/
def State.commitDecode (s : State) : State := s.commitWith 0x0800 s.decodeOk (srcBlock 13) (some (.decode, DECODE.commit_error))

/-- DECODE_COMMIT (R301). -/
def execDecodeCommit (s : State) : Host.Outcome State Fault Refusal :=
  if !s.answers .decode then .next (s.absent .decode DECODE.go.off) else
  .next s.commitDecode

/-- DECODE_CLEAR_STATS (R301). -/
def execDecodeClearStats (s : State) : Host.Outcome State Fault Refusal :=
  if !s.answers .decode then .next (s.absent .decode DECODE.clear_stats.off) else
  let s1 := ([DECODE.first_pass, DECODE.entered, DECODE.failed, DECODE.mismatches] ++ (List.range 6).map DECODE.step_ok).foldl
    (fun t f => t.setSta .decode f 0) s
  .next { s1 with decoders := s1.decoders.map (fun d => { d with count := 0 }) }

end Sys2Proof.Machine
end

