-- ==== Sys2Proof/Machine/Spindle.lean ====
section
/-! DEFINITION. The spindle drive (chapter 07): the two loops, the states of Table 07-2, and what each command does. 2π is taken as
6.283185 and (2π)² as 39.478418 (DESIGN CHOICE, log entry 17). -/

namespace Sys2Proof.Machine

/-! ### Parameters -/

def State.spf (s : State) (b : BayId) (f : Field) : Int := s.fld (.spindle b) f
def State.spa (s : State) (b : BayId) (f : Field) : Int := s.act (.spindle b) f

/-- CTRL.reverse. -/
def State.spReverse (s : State) (b : BayId) : Bool := s.fld (.spindle b) SPINDLE.reverse == 1

/-- A speed in the requested direction (R173). -/
def State.fwd (s : State) (b : BayId) (speed : Int) : Int := if s.spReverse b then -speed else speed

/-- P_lim in mW (R170). -/
def State.powerLimit (s : State) (b : BayId) : Int :=
  match s.power.held.find? (fun g => g.cls == .spin && g.who == b.val) with
  | some g => min (s.spf b SPINDLE.spin_power) g.mw
  | none => s.spf b SPINDLE.run_power

/-! ### The current loop (R166, R167) -/

/-- What one period of the current loop gives. -/
structure CurOut where
  vd : Int                  -- µV
  vq : Int
  cut : Bool
  intD : Int
  intQ : Int
  mod : Nat
deriving DecidableEq, Repr

/-- kp·e in µV (R167). -/
def State.curP (s : State) (b : BayId) (e : Int) : Int :=
  roundNear (s.spa b SPINDLE.cur_bw * s.spf b SPINDLE.ls * e * 6283185) 100000000

/-- ki times an integral in mA·µs, in µV (R167). -/
def State.curI (s : State) (b : BayId) (n : Int) : Int :=
  roundNear (s.spa b SPINDLE.cur_bw * s.spf b SPINDLE.rs * n * 6283185) 100000000000

/-- w_e·Ls·i in µV. -/
def State.curX (s : State) (b : BayId) (speed i : Int) : Int :=
  roundNear (6283185 * s.spf b SPINDLE.pole_pairs * speed * s.spf b SPINDLE.ls * i) 600000000000

/-- w_e·flux in µV, the back-EMF at a speed in 0.1 rpm. -/
def State.emfAt (s : State) (b : BayId) (speed : Int) : Int :=
  roundNear (6283185 * s.spf b SPINDLE.pole_pairs * speed * s.spf b SPINDLE.flux) 600000000

/-- v_max squared, in µV², with VIN in mV (R166). -/
def vmaxSq (vin : Nat) : Nat := (94 * vin * 10) ^ 2 / 3

/-- The current loop of one PWM period (R167): the d axis keeps priority, v_q is cut to fit, and both integrators hold under the cut. -/
def State.currentLoop (s : State) (b : BayId) (i : PwmIn) : CurOut :=
  let x := s.spindle b
  let ed := x.idRef - i.id
  let eq := x.iqRef - i.iq
  let nD := x.intD + 25 * ed
  let nQ := x.intQ + 25 * eq
  let vd := s.curP b ed + s.curI b nD - s.curX b i.speed i.iq
  let vq := s.curP b eq + s.curI b nQ + s.curX b i.speed i.id + s.emfAt b i.speed
  let m := vmaxSq i.vinMv
  let cut := decide (m < vd.natAbs ^ 2 + vq.natAbs ^ 2)
  let vdc : Int := if m < vd.natAbs ^ 2 then vd.sign * Nat.sqrt m else vd
  let vqc : Int := if cut then vq.sign * Nat.sqrt (m - vdc.natAbs ^ 2) else vq
  let mag := Nat.sqrt (3 * (vdc.natAbs ^ 2 + vqc.natAbs ^ 2))
  ⟨vdc, vqc, cut, if cut then x.intD else nD, if cut then x.intQ else nQ, min 255 (mag * 256 / max 1 (1000 * i.vinMv))⟩

/-- The bridge runs field-oriented control. -/
def SpState.driven : SpState → Bool
  | .align | .ramp | .run | .resync => true
  | _ => false

/-! ### Transitions -/

/-- RUN (R176, R182): revolutions are counted anew, and a grant is returned when the speed is within 300 rpm of the target (R172). -/
def State.enterRun (s : State) (b : BayId) : State :=
  let s1 := s.modSpindle b (fun x => x.go .run)
  if (s1.targetTenths b - (s1.fwd b (s1.spindle b).speed)).natAbs ≤ 3000 then s1.returnGrant .spin b.val else s1

/-- ALIGN (R175). -/
def State.enterAlign (s : State) (b : BayId) : State :=
  s.modSpindle b (fun x => { x.go .align with idRef := 10 * s.spf b SPINDLE.align_current, iqRef := 0, intD := 0, intQ := 0 })

/-- RAMP from a speed in 1/400 rpm (R175). -/
def State.enterRamp (s : State) (b : BayId) (v : Int) : State :=
  s.modSpindle b (fun x => { x.go .ramp with ramp := v, rampAgree := 0, idRef := 10 * s.spf b SPINDLE.if_current, iqRef := 0 })

/-- SENSE (R173). -/
def State.enterSense (s : State) (b : BayId) : State :=
  s.modSpindle b (fun x => { x.go .sense with idRef := 0, iqRef := 0, intD := 0, intQ := 0, intS := 0, cut := false, wantStart := false, stopNext := false })

/-- Observer loss (R181–R184): COAST, LOST for both heads, the count and the log; loss_limit losses within 60 s stop the drive for good. -/
def State.observerLoss (s : State) (b : BayId) (cause : Nat) : State :=
  let x := s.spindle b
  let now := s.time.localNs
  let recent := now :: x.losses.filter (fun t => decide (now < t + 60000000000))
  let s1 := (s.modSpindle b (fun y => { y.go .coast with
    lossCount := satInc 8 y.lossCount, losses := recent, coastBegan := now, idRef := 0, iqRef := 0, fwActive := false, regen := false }))
  let s2 := ((s1.flag (.spindle b) SPINDLE.obs_loss).logEv (srcSpindle b) .spindleLoss [cause, x.speed.natAbs]).loseSpindle b
  let s3 := s2.eachHead b (fun t g => t.modFoc g (fun f => { f with waitSpindle := true }))
  if s.fld1 (.spindle b) SPINDLE.loss_limit ≤ recent.length then s3.spindleStop b false true 6 else s3

/-! ### PWM_PERIOD (R165–R167, R170, R181, R182, R186, R187) -/

/-- Regeneration against vin_clamp (R187). -/
def State.regenStep (s : State) (b : BayId) (vinMv : Nat) : State :=
  let clamp := 100 * min 600 (s.fld (.spindle b) SPINDLE.vin_clamp)
  let x := s.spindle b
  let wants := s.fld (.spindle b) SPINDLE.regen_enable == 1 && (x.st == .stop || (x.st == .run && decide (x.iqRef < 0)))
  s.modSpindle b (fun y => { y with
    regen := wants && (if y.regen then decide (vinMv < clamp) else decide (vinMv + 1000 < clamp)) })

/-- The angle turned, where no head reads wedge marks: a revolution of the observer's mechanical angle (R179). One revolution is
24,000,000 of 0.1 rpm × 25 µs. -/
def State.angleStep (s : State) (b : BayId) (speed : Int) : State :=
  if s.bays[b.val].marks || (s.spindle b).st != .run then s
  else
    let a := (s.spindle b).revAngle + speed.natAbs
    let n := (s.spindle b).revCount + 1
    if a < 24000000 then s.modSpindle b (fun y => { y with revAngle := a, revCount := n })
    else
      let t := s.fld (.spindle b) SPINDLE.rpm
      (s.modSpindle b (fun y => { y with revAngle := a - 24000000, revCount := 0 })).revolution b
        (within t (25000 * n) 1) (!within t (25000 * n) 5)

/-- A current error that lasts, or an underspeed, is observer loss (R181). -/
def State.lossStep (s : State) (b : BayId) (i : PwmIn) : State :=
  let x := s.spindle b
  if x.st ≠ .run ∧ x.st ≠ .resync then s
  else
    let lvl := 10 * s.spf b SPINDLE.ierr_level
    let err := decide (lvl < (x.idRef - i.id).natAbs) || decide (lvl < (x.iqRef - i.iq).natAbs)
    let n := if err then x.iErr + 1 else 0
    let s1 := s.modSpindle b (fun y => { y with iErr := n })
    if s.fld1 (.spindle b) SPINDLE.ierr_count ≤ n then s1.observerLoss b 2
    else if s.fwd b i.speed * 10 < 8 * (10 * s.spf b SPINDLE.handover_rpm) then s1.observerLoss b 3
    else s1

/-- COAST (R182, Table 07-2): a valid estimate leads to RESYNC; an estimated speed below handover_rpm, with a grant held, to ALIGN; the
grant is asked for. -/
def State.coastStep (s : State) (b : BayId) (i : PwmIn) : State :=
  if (s.spindle b).st ≠ .coast then s
  else if i.speed.natAbs < 10 * s.fld (.spindle b) SPINDLE.handover_rpm then
    (if s.spinHeld b then s.enterAlign b else s.requestGrant .spin b.val)
  else if i.estimateValid then
    s.modSpindle b (fun x => { x.go .resync with intD := 0, intQ := 0, iqRef := roundNear x.intS 1000000 })
  else s

/-- BRAKE ends at reverse_rpm (Table 07-2). -/
def State.brakeStep (s : State) (b : BayId) (i : PwmIn) : State :=
  if (s.spindle b).st = .brake ∧ i.speed.natAbs ≤ 10 * s.fld (.spindle b) SPINDLE.reverse_rpm then s.enterAlign b else s

/-- RAMP: the observer's agreement with the ramp, from 0.8 × handover_rpm on (R176). -/
def State.agreeStep (s : State) (b : BayId) (i : PwmIn) : State :=
  let x := s.spindle b
  if x.st ≠ .ramp then s
  else
    let r := x.ramp / 40
    let ok := decide (8 * (10 * s.spf b SPINDLE.handover_rpm) ≤ 10 * r) && decide ((s.fwd b i.speed - r).natAbs * 20 ≤ r.natAbs)
    s.modSpindle b (fun y => { y with rampAgree := if ok then y.rampAgree + 1 else 0 })

/-- One PWM period's measurements and current loop. -/
def State.measure (s : State) (b : BayId) (i : PwmIn) : State :=
  let o := s.currentLoop b i
  let on := (s.spindle b).st.driven
  s.modSpindle b (fun x => { x with
    speed := i.speed
    id := i.id
    iq := i.iq
    vin := i.vinMv / 10
    pIn := i.pElec
    cut := on && o.cut
    intD := if on then o.intD else x.intD
    intQ := if on then o.intQ else x.intQ
    vq := if on then o.vq else 0
    mod := if on then o.mod else 0 })

/-- PWM_PERIOD (R165). In OFF the drive has no power and nothing happens. -/
def execPwmPeriod (b : BayId) (i : PwmIn) (s : State) : Host.Outcome State Fault Refusal :=
  if (s.spindle b).st = .off then .next s
  else .next ((((((s.measure b i).regenStep b i.vinMv).agreeStep b i).brakeStep b i).coastStep b i).lossStep b i |>.angleStep b i.speed)

/-! ### SPEED_LOOP_PERIOD (R168, R169, R175–R177, R181) -/

/-- kp_s·e in mA, e in 0.1 rpm (R168). -/
def State.spdP (s : State) (b : BayId) (e : Int) : Int :=
  let d := 9000000 * s.spf b SPINDLE.pole_pairs * s.spf b SPINDLE.flux
  if d = 0 then 0 else roundNear (39478418 * s.spa b SPINDLE.spd_bw * s.spf b SPINDLE.inertia * e) d

/-- The limit of i_q,ref (R170): iq_max, what i_d,ref leaves of i_lim, and the current at which the input power reaches P_lim. -/
def State.iqLimit (s : State) (b : BayId) : Int :=
  let x := s.spindle b
  let lim := 10 * s.spf b SPINDLE.i_lim
  let a := min (10 * s.spf b SPINDLE.iq_max) (Nat.sqrt (lim.natAbs ^ 2 - x.idRef.natAbs ^ 2))
  let room := s.powerLimit b - x.pIn
  let p := if 0 < x.vq then x.iq + room * 2000000 / (3 * x.vq) else a
  max 0 (min a p)

/-- The reference moves toward the target at no more than accel; it waits for a grant (R180) and stands at the speed reached where the
drive is limited (R169). -/
def State.nextRef (s : State) (b : BayId) : Int :=
  let x := s.spindle b
  let t := 40 * s.targetTenths b
  let a := s.spf b SPINDLE.accel
  if t < x.ref then max t (x.ref - a)
  else if (x.grantWait = true ∧ s.spinHeld b = false) ∨ x.limited = true then x.ref
  else min t (x.ref + a)

/-- Field weakening (R169). -/
def fieldWeaken (id : Int) (fw : Int) (v vmax : Nat) : Int :=
  if 96 * vmax ≤ 100 * v then max (-fw) (id - 10)
  else if 100 * v < 90 * vmax then min 0 (id + 10)
  else id

/-- The speed loop in RUN. -/
def State.runLoop (s : State) (b : BayId) (i : SpeedIn) : State :=
  let x := s.spindle b
  let ref := s.nextRef b
  let v := s.fwd b i.speed
  let e := ref / 40 - v
  let p := s.spdP b e
  let hi := s.iqLimit b
  let regenOn := s.fld (.spindle b) SPINDLE.regen_enable == 1
  let lo : Int := if regenOn then -(10 * s.spf b SPINDLE.i_lim) else 0
  let brake := !regenOn && decide (ref / 40 + 1000 < v)
  let raw := p + roundNear x.intS 1000000
  let q := if brake then 0 else clampI raw lo hi
  let hold := x.cut || brake || decide (raw < lo) || decide (hi < raw)
  let id := fieldWeaken x.idRef (10 * s.spf b SPINDLE.fw_imax) i.vMagMv i.vMaxMv
  s.modSpindle b (fun y => { y with
    ref := ref
    iqRef := q
    intS := if hold then y.intS else y.intS + roundNear (p * s.spa b SPINDLE.spd_bw * 392699) 1000
    idRef := id
    fwActive := decide (id < 0) })

/-- The mean EMF differs from the model's by more than emf_tol (R181). -/
def State.emfLoss (s : State) (b : BayId) (i : SpeedIn) : Bool :=
  decide (s.fld (.spindle b) SPINDLE.emf_tol * i.emfModel < 256 * ((i.emfMean : Int) - i.emfModel).natAbs)

/-- The I/f ramp (R174–R177): handover, a failed start, or the next frequency. -/
def State.rampLoop (s : State) (b : BayId) : State :=
  let x := s.spindle b
  let ho := 400 * s.spf b SPINDLE.handover_rpm
  let step := s.spf b SPINDLE.if_rate
  if s.spReverse b then
    s.modSpindle b (fun y => { y with ramp := min (y.ramp + step) (min ho (400 * s.spf b SPINDLE.rpm)) })
  else if ho ≤ x.ramp ∧ 256 ≤ x.rampAgree then
    (s.modSpindle b (fun y => { y with
      idRef := 0, intS := 10000000 * s.spf b SPINDLE.if_current, ref := 40 * s.fwd b y.speed })).enterRun b
  else if 2 * ho ≤ x.ramp then
    let n := x.attempts + 1
    let s1 := s.modSpindle b (fun y => { y with attempts := n })
    if s.fld1 (.spindle b) SPINDLE.start_retry ≤ n then s1.spindleStop b false true 4 else s1.spindleStop b true false 0
  else s.modSpindle b (fun y => { y with ramp := y.ramp + step })

/-- SPEED_LOOP_PERIOD (R168): the group is adopted (Table 07-7), then the loop of the state. -/
def execSpeedLoopPeriod (b : BayId) (i : SpeedIn) (s : State) : Host.Outcome State Fault Refusal :=
  let s1 := s.adopt (tagSpindle b)
  match (s1.spindle b).st with
  | .run => .next (if s1.emfLoss b i then s1.observerLoss b 1 else s1.runLoop b i)
  | .resync => .next (if s1.emfLoss b i then s1.observerLoss b 1 else s1)
  | .ramp => .next (s1.rampLoop b)
  | _ => .next s1

/-! ### Commands -/

/-- SPINDLE_START (R172): in IDLE and STOP a request for a spin-up grant; refused in OFF and FAULT; nothing elsewhere. -/
def execSpindleStart (b : BayId) (s : State) : Host.Outcome State Fault Refusal :=
  if !s.answers (.spindle b) then .next (s.absent (.spindle b) SPINDLE.start.off) else
  match (s.spindle b).st with
  | .idle | .stop => .next ((s.modSpindle b (fun x => { x with wantStart := true })).requestGrant .spin b.val)
  | .off | .fault => .next (s.spindleRefuse b)
  | _ => .next s

/-- DRIVE_START (R172, R191, R213): with a spin-up grant held, no bare field and T2 outside the bay, a drive in IDLE or STOP enters SENSE. -/
def execDriveStart (b : BayId) (s : State) : Host.Outcome State Fault Refusal :=
  let st := (s.spindle b).st
  if (st = .idle ∨ st = .stop) ∧ s.spinHeld b = true ∧ s.spindleBare b = false ∧ s.t2Inside b = false then
    .next ((s.modSpindle b (fun x => { x with attempts := 0, started := s.time.localNs })).enterSense b)
  else .next s

/-- SPINDLE_STOP (R188, Table 07-7). -/
def execSpindleStop (b : BayId) (s : State) : Host.Outcome State Fault Refusal :=
  if !s.answers (.spindle b) then .next (s.absent (.spindle b) SPINDLE.stop.off) else
  match (s.spindle b).st with
  | .off | .idle | .fault => .next s
  | _ => .next (s.spindleStop b false false 0)

/-- SPINDLE_CLEAR_FAULT (R189): IDLE once the targeted test has passed; refused before and after a failure. -/
def execSpindleClearFault (b : BayId) (s : State) : Host.Outcome State Fault Refusal :=
  if !s.answers (.spindle b) then .next (s.absent (.spindle b) SPINDLE.clear_fault.off) else
  let x := s.spindle b
  if x.st = .fault then
    if x.testPass = some true then .next ((s.modSpindle b (fun y => { y.go .idle with faultCause := 0 })).spindleStopped b)
    else .next (s.spindleRefuse b)
  else .next s

/-- SPINDLE_REVERSE_WRITE (R174): refused above reverse_rpm; else through STOP and a new start. -/
def execSpindleReverseWrite (b : BayId) (v : Bool) (s : State) : Host.Outcome State Fault Refusal :=
  if !s.answers (.spindle b) then .next (s.absent (.spindle b) SPINDLE.reverse.off) else
  if s.spReverse b = v then .next s
  else if 10 * s.fld (.spindle b) SPINDLE.reverse_rpm < (s.spindle b).speed.natAbs then .next (s.spindleRefuse b)
  else
    let s1 := s.setFld (.spindle b) SPINDLE.reverse (b2n v)
    match (s.spindle b).st with
    | .off | .idle | .fault => .next s1
    | .stop => .next s1
    | _ => .next ((s1.spindleStop b false false 0).modSpindle b (fun x => { x with wantStart := true }) |>.requestGrant .spin b.val)

/-- TARGET_RPM_WRITE (R180). -/
def execTargetRpmWrite (b : BayId) (rpm : BitVec 13) (s : State) : Host.Outcome State Fault Refusal :=
  if !s.answers (.spindle b) then .next (s.absent (.spindle b) SPINDLE.rpm.off) else
  .next (s.setTarget b rpm.toNat)

/-- SENSE_END (R173, R189, Table 07-3). A speed whose direction is not resolved counts as backward. -/
def execSenseEnd (b : BayId) (i : SenseIn) (s : State) : Host.Outcome State Fault Refusal :=
  if (s.spindle b).st ≠ .sense then .next s
  else if !i.shuntOk then .next (s.spindleFault b 7)
  else if i.speed < 10 * s.fld (.spindle b) SPINDLE.emf_detect then .next (s.enterAlign b)
  else
    let rev := s.spReverse b
    let forward : Bool := match i.direction with
      | some d => d != rev
      | none => false
    let sgn : Int := if forward != rev then i.speed else -(i.speed : Int)
    let s1 := s.modSpindle b (fun x => { x with speed := sgn })
    if forward then
      if 10 * s.fld (.spindle b) SPINDLE.handover_rpm ≤ i.speed then
        if rev then .next (s1.modSpindle b (fun x => x.go .brake))
        else .next ((s1.modSpindle b (fun x => { x with ref := 40 * (i.speed : Int), idRef := 0 })).enterRun b)
      else .next (s1.enterRamp b (40 * i.speed))
    else if i.speed ≤ 10 * s.fld (.spindle b) SPINDLE.reverse_rpm then .next (s1.enterAlign b)
    else .next (s1.modSpindle b (fun x => x.go .brake))

/-- BRAKE_TIMEOUT (Table 07-2). -/
def execBrakeTimeout (b : BayId) (s : State) : Host.Outcome State Fault Refusal :=
  if (s.spindle b).st = .brake then .next (s.spindleFault b 5) else .next s

/-- ALIGN_END (R175). -/
def execAlignEnd (b : BayId) (s : State) : Host.Outcome State Fault Refusal :=
  if (s.spindle b).st = .align then .next (s.enterRamp b 0) else .next s

/-- SPINDLE_COAST_TIMEOUT (Table 07-2). -/
def execSpindleCoastTimeout (b : BayId) (s : State) : Host.Outcome State Fault Refusal :=
  if (s.spindle b).st = .coast then .next (s.spindleFault b 6) else .next s

/-- TORQUE_RESTORED (R182). -/
def execTorqueRestored (b : BayId) (s : State) : Host.Outcome State Fault Refusal :=
  if (s.spindle b).st = .resync then
    .next ((s.modSpindle b (fun x => { x with lastCoast := min 65535 ((s.time.localNs - x.coastBegan) / 1000) })).enterRun b)
  else .next s

/-- STOP_BRAKE_END (R177, R188): IDLE, the next attempt under the same grant, or the FAULT that STOP led to. -/
def execStopBrakeEnd (b : BayId) (s : State) : Host.Outcome State Fault Refusal :=
  let x := s.spindle b
  if x.st ≠ .stop then .next s
  else if x.stopFault then .next (s.spindleFault b x.faultCause)
  else if x.stopNext then .next (s.enterSense b)
  else .next ((s.modSpindle b (fun y => { y.go .idle with regen := false })).spindleStopped b)

/-- FIELD_WEAKEN_LIMIT (R169). -/
def execFieldWeakenLimit (b : BayId) (s : State) : Host.Outcome State Fault Refusal :=
  let x := s.spindle b
  if x.st = .run ∧ x.idRef = -(10 * s.spf b SPINDLE.fw_imax) ∧ s.fwd b x.speed < x.ref / 40 then
    .next (s.modSpindle b (fun y => { y with limited := true, atSpeed := false, revGood := 0, ref := 40 * s.fwd b y.speed }))
  else .next s

/-- SPINDLE_OVERCURRENT (Table 07-6). -/
def execSpindleOvercurrent (b : BayId) (s : State) : Host.Outcome State Fault Refusal :=
  if (s.spindle b).st = .off ∨ (s.spindle b).st = .fault then .next s else .next (s.spindleFault b 1)

/-- The bays whose bridges and stages lie on a power-stage die (Table 01-1). -/
def dieBays (die : Fin 2) : List BayId := if die = 0 then [0, 1, 2, 3] else [4, 5, 6, 7]

/-- An axis whose die is too hot enters FAULT, unless it is off or in FAULT already (Table 08-5). -/
def State.axisHot (s : State) (a : AxisId) : State :=
  match (s.axis a).st with
  | .off | .fault => s
  | _ => s.axisFault a 3

/-- The bridges of a bay are too hot: its drive and the axes of its heads fault. -/
def State.bayHot (s : State) (b : BayId) : State :=
  let s1 := if (s.spindle b).st = .off ∨ (s.spindle b).st = .fault then s else s.spindleFault b 2
  s1.eachHead b (fun t g => (t.axisHot (.sled g)).axisHot (.sa g))

/-- BRIDGE_OVERTEMP (Tables 01-1, 07-6, 08-5): the drives, sled and SA stages of the die, and PWR1's transport stages. -/
def execBridgeOvertemp (die : Fin 2) (s : State) : Host.Outcome State Fault Refusal :=
  let s1 := (dieBays die).foldl State.bayHot s
  .next (if die = 1 then (List.finRange 4).foldl (fun t n => t.axisHot (.transport n)) s1 else s1)

/-- SPINDLE_PHASE_OPEN (Table 07-6). -/
def execSpindlePhaseOpen (b : BayId) (s : State) : Host.Outcome State Fault Refusal :=
  match (s.spindle b).st with
  | .align | .ramp | .run => .next (s.spindleFault b 3)
  | _ => .next s

/-- SPINDLE_COMMIT (R191). -/
def execSpindleCommit (b : BayId) (s : State) : Host.Outcome State Fault Refusal :=
  if !s.answers (.spindle b) then .next (s.absent (.spindle b) SPINDLE.go.off) else
  .next (s.commitWith (tagSpindle b) true (srcSpindle b) none)

end Sys2Proof.Machine
end

