-- ==== Sys2Proof/Machine/Calib.lean ====
section
/-! DEFINITION. Calibration, margins and ageing (chapter 19): temperature recomputes, trials, the margins and the steps that restore them, read
speed steps, trends and the hourly write of the head sets. -/

namespace Sys2Proof.Machine

def srcCalib : BitVec 16 := srcBlock 15

def State.modCalib (s : State) (f : CalibSt → CalibSt) : State := { s with calib := f s.calib }

/-! ### Head temperature (R72, R462) -/

/-- TRIM_TEMP_RECOMPUTE (R72, R462): a reading of HTEMP, converted to 1/16 °C. Outside −40 to 150 °C it is a sensor fault, and the last valid one
stands; a move of 0.5 °C since the last commit commits every trim of the head anew. -/
def execTrimTempRecompute (g : HeadId) (adc : BitVec 16) (s : State) : Host.Outcome State Fault Refusal :=
  let t := adc.toInt
  if t < -640 ∨ 2400 < t then
    let s1 := s.modHead g (fun h => { h with sensorFault := true })
    if s.heads[g.val].sensorFault then .next s1 else .next (s1.logEv srcCalib .sensorFault [g.val, adc.toNat])
  else
    let s1 := s.modHead g (fun h => { h with temp := t, sensorFault := false })
    let far : Bool := match Tab.get? s.calib.temps g.val with
      | some p => decide (8 ≤ (t - p).natAbs)
      | none => true
    if far then .next (s1.recomputeTrims g) else .next s1

/-! ### Head sets (R463) -/

/-- The share of a correction that each point of a head set takes at a temperature. -/
def setShare (v : Vector Int 5) (temp d : Int) : Vector Int 5 :=
  let t := clampI temp 240 880
  let i := min 3 ((t - 240) / 160).toNat
  let w := t - 240 - 160 * i
  Vector.ofFn (fun j : Fin 5 => v[j.val] +
    (if j.val = i then roundHE ((160 - w) * d) 160 else if j.val = i + 1 then roundHE (w * d) 160 else 0))

/-- The per-disc delta of a trim takes d (R464); no entry is written with disc_trim_enable 0. -/
def State.addDelta (s : State) (g : HeadId) (key : Nat) (d : Int) : State :=
  match s.bays[(bayOf g).val].disc with
  | none => s
  | some id =>
    if s.fld .calib CALIB.disc_trim_enable = 0 then s
    else
      let k := 4 * keyIndex key + keyCode key
      { s with discStore := s.discStore.map (fun (e : DiscEntry) =>
          if e.disc = id then { e with deltas := Tab.set 0 e.deltas k (Tab.get 0 e.deltas k + d) } else e) }

/-- A correction that stands enters the head set, and for the per-layer trims the rest enters the per-disc delta (R463). -/
def State.learnTrim (s : State) (g : HeadId) (key : Nat) (d : Int) : State :=
  let share := if keyCode key ≤ 3 then roundHE (d * s.fld .calib CALIB.head_share) 256 else d
  let old := Tab.get (Vector.replicate 5 0) s.calib.sets key
  let s1 := s.modCalib (fun c => { c with sets := Tab.put c.sets key (setShare old (s.heads[g.val]).temp share), changed := true })
  if keyCode key ≤ 3 then s1.addDelta g key (d - share) else s1

/-! ### Trials (R466) -/

/-- A trial starts on a head (R465, R466): of the focus offset, the SA position or the tilt trim of the layer in focus; which one the
management plane takes is a free value. Its dither is 8 steps of Table 19-1 each way. -/
def State.trialStart (s : State) (g : HeadId) (syndrome : Nat) : State :=
  match s.heads[g.val].foc.sl with
  | none => s
  | some sl =>
    if s.fld .calib CALIB.auto_trim = 0 ∨ s.heads[g.val].lost = true ∨ (Tab.get? s.sweeps g.val).isSome = true then s
    else
      let d := s.draw
      let key := trimKey (1 + d.1 % 3) g.val sl.toNat
      let base := Tab.get 0 s.trims key
      let s1 := (d.2.modCalib (fun c => { c with trials := Tab.put c.trials g.val ⟨key, .plus, base, 8, 0, syndrome⟩ })).commitTrim key (base + 8)
      s1.incSat .calib CALIB.trials

/-- TRIAL_PHASE_END (R466): trial_revs revolutions pass on a head, with the low-margin fraction in 1/65,536 and the mean syndrome weight
measured over them. The phases are + dither, − dither, and the judgement of the correction that followed. -/
def execTrialPhaseEnd (g : HeadId) (fraction syndrome : BitVec 16) (s : State) : Host.Outcome State Fault Refusal :=
  match Tab.get? s.calib.trials g.val with
  | none => .next (s.trialStart g syndrome.toNat)
  | some t =>
    let set (u : State) (x : Trial) : State := u.modCalib (fun c => { c with trials := Tab.put c.trials g.val x })
    let drop (u : State) : State := u.modCalib (fun c => { c with trials := Tab.erase c.trials g.val })
    match t.phase with
    | .plus => .next ((set s { t with phase := .minus, fraction := fraction.toNat }).commitTrim t.key (t.base - t.dither))
    | .minus =>
      let diff := (t.fraction : Int) - fraction.toNat
      if diff.natAbs * 50 < 65536 then .next ((drop s).commitTrim t.key t.base)
      else
        let d := if diff < 0 then t.dither else -t.dither
        .next ((set s { t with phase := .judge, dither := d }).commitTrim t.key (t.base + d))
    | .judge =>
      if syndrome.toNat * 100 ≤ t.before * 105 then .next ((drop s).learnTrim g t.key t.dither)
      else
        let s1 := ((drop s).commitTrim t.key t.base).incSat .calib CALIB.rejected
        .next (s1.logEv srcCalib .trimRejected [t.key, g.val])

/-- HEAD_SET_NV_WRITE (R463): changed head sets enter the next generation of the NV image, at most once per hour. -/
def execHeadSetNvWrite (s : State) : Host.Outcome State Fault Refusal :=
  let due : Bool := match s.calib.lastSetWrite with
    | some t => decide (t + 3600000000000 ≤ s.time.localNs)
    | none => true
  if s.calib.changed && due then
    .next { s with calib := { s.calib with changed := false, lastSetWrite := some s.time.localNs }, nv := { s.nv with dueOwned := true } }
  else .next s

/-! ### Margins (R467, Table 19-3) -/

/-- The number of a margin: engine slack, decoder capacity, cipher, other domains, and the spindle speed of each bay. -/
def marginKeys : List Nat := List.range 12

/-- The loops in RUN, with the least slack of each and the engine that runs it (R107). -/
def State.runSlacks (s : State) : List (Nat × HeadId × Fin 6) :=
  (List.finRange 16).flatMap (fun g => (List.finRange 6).filterMap (fun l =>
    if (s.heads[g.val].loops[l.val]).st = .run then some (s.sta (engBlk g l) ENG.slack_min, g, l) else none))

/-- The least of them. -/
def leastSlack : List (Nat × HeadId × Fin 6) → Option (Nat × HeadId × Fin 6)
  | [] => none
  | x :: r =>
    match leastSlack r with
    | none => some x
    | some y => if y.1 < x.1 then some y else some x

/-- Σ of 8 × 12 × 12,653 × rpm over the bays, times 64/99 of D (R467): D in bit/s is this × 64 / 99. -/
def State.demandRaw (s : State) : Nat := ((List.finRange 8).map (fun b => 8 * 12 * 12653 * s.readRpm b)).sum

/-- C / D as a numerator and a denominator (R467), none where a measured time is 0. -/
def State.capacity (s : State) (i : MarginIn) : Option (Nat × Nat) :=
  let n := max 800 i.decoderItersX100
  if i.decoderIterPs = 0 then none
  else some (s.activeDecoders * 19456 * 10 ^ 14 * 99, i.decoderIterPs * n * s.demandRaw * 64)

/-- A margin's measure against its floor as a ratio, over 2^16, below 2^16 where it is short, and whether it is at its recover level. -/
structure MarginVal where
  ratio : Nat
  short : Bool
  recovered : Bool
deriving DecidableEq, Repr

/-- a / b over 2^16. -/
def ratio16 (a b : Nat) : Nat := if b = 0 then 2 ^ 32 else a * 65536 / b

/-- The margins as measured (Table 19-3). -/
def State.margin (s : State) (i : MarginIn) (k : Nat) : MarginVal :=
  let f := s.fld .calib
  if k = 0 then
    let v := min i.enginePrediction (((leastSlack s.runSlacks).map (·.1)).getD i.enginePrediction)
    ⟨ratio16 v (f CALIB.slack_floor), decide (v < f CALIB.slack_floor), decide (f CALIB.slack_recover ≤ v)⟩
  else if k = 1 then
    match s.capacity i with
    | none => ⟨2 ^ 32, false, true⟩
    | some (c, d) =>
      ⟨ratio16 (100 * c) (d * f CALIB.cap_floor), decide (100 * c < d * f CALIB.cap_floor), decide (d * f CALIB.cap_recover ≤ 100 * c)⟩
  else if k = 2 then ⟨ratio16 3400 i.cipherUnitNs, decide (3400 < i.cipherUnitNs), decide (i.cipherUnitNs ≤ 3000)⟩
  else if k = 3 then ⟨ratio16 100 i.otherPct, decide (100 < i.otherPct), decide (i.otherPct ≤ 90)⟩
  else
    let lim : Bool := if h : k - 4 < 8 then (s.spindle ⟨k - 4, h⟩).limited else false
    let rpm := if h : k - 4 < 8 then s.readRpm ⟨k - 4, h⟩ else 1
    ⟨ratio16 (i.reachedRpm.toList.getD (k - 4) 0) rpm, lim, !lim⟩

/-- The steps of a margin's row but for the report (Table 19-3). -/
def marginSteps (k : Nat) : List Nat :=
  if k = 0 then [1, 2] else if k = 1 then [1, 2, 3] else if k ≤ 3 then [2] else [3]

/-! ### Re-planning (R468–R470) -/

/-- The loop with the least slack, where R109 lets it take a spare. -/
def State.proactive (s : State) : Option (HeadId × Fin 6) :=
  match leastSlack s.runSlacks with
  | none => none
  | some (_, g, l) =>
    if (s.heads[g.val]).move.isNone && s.fld (engBlk g l) ENG.spare_permit == 1 && (s.chooseSpare g).isSome then some (g, l) else none

/-- The fastest step whose speed lies at or below the speed that a drive reached (R469). -/
def State.limitStep (s : State) (reached : Nat) : Option Nat :=
  (List.range (min 8 (s.fld .calib CALIB.speed_step_max) + 1)).find? (fun n => decide (stepRpm n ≤ reached))

/-- Whether a step can act for a margin (R468). -/
def State.stepCan (s : State) (i : MarginIn) (k step : Nat) : Bool :=
  if step = 1 then
    (if k = 0 then s.proactive.isSome
     else s.fld .decode DECODE.spare_permit == 1 && s.decoders.any (fun d => d.st == .spare))
  else if step = 2 then decide (s.fld .power POWER.trim < 10)
  else if k = 1 then decide (s.calib.decoderSteps < min 8 (s.fld .calib CALIB.speed_step_max))
  else if h : k - 4 < 8 then
    (match s.limitStep (i.reachedRpm.toList.getD (k - 4) 0) with
     | some n => decide (s.speedWant ⟨k - 4, h⟩ < n)
     | none => false)
  else false

def State.action (s : State) (n : Nat) : State := s.setSta .calib CALIB.last_action n

/-- Step 4: the report (R468). -/
def State.reportMargin (s : State) (data : List Nat) (e : Ev) (bit : Nat) : State :=
  ((s.flag .calib CALIB.margin_exhausted).action 4).logVec srcCalib e data bit

/-- A step acts for a margin. -/
def State.takeStep (s : State) (i : MarginIn) (k step : Nat) : State :=
  if step = 1 then
    (if k = 0 then
      (match s.proactive with
       | some (g, l) => (s.beginMove g l true).action 1
       | none => s)
     else s.decoderSpare.action 1)
  else if step = 2 then
    ((s.setFld .power POWER.trim (s.fld .power POWER.trim + 1)).modCalib (fun c => { c with vcore := c.vcore + 1 })).action 2
  else if step = 3 then
    (if k = 1 then (s.modCalib (fun c => { c with decoderSteps := c.decoderSteps + 1 })).action 3
     else if h : k - 4 < 8 then
      (match s.limitStep (i.reachedRpm.toList.getD (k - 4) 0) with
       | some n => ((s.modCalib (fun c => { c with limits := c.limits.set (k - 4) n })).setSta .calib (CALIB.bay_limited (k - 4)) 1).action 3
       | none => s)
     else s)
  else s.reportMargin [k, (s.margin i k).ratio] .margin 3

/-- The margin served first: that with the smallest ratio to its floor. -/
def worstMargin (s : State) (i : MarginIn) : List Nat → Nat
  | [] => 0
  | [k] => k
  | k :: r => let m := worstMargin s i r; if (s.margin i m).ratio < (s.margin i k).ratio then m else k

/-- The margins wait settle seconds. -/
def State.settleMargins (s : State) (l : List Nat) : State :=
  s.modCalib (fun c => { c with waits := l.foldl (fun t k => Tab.put t k (s.time.localNs + s.fld1 .calib CALIB.settle * 1000000000)) c.waits })

/-- One step for the short margins (R468): the earliest that lies in every row and can act, else the first that can act for the margin with
the smallest ratio, else the report. -/
def State.restoreMargins (s : State) (i : MarginIn) (short : List Nat) : State :=
  let common := [1, 2, 3].find? (fun n => short.all (fun k => (marginSteps k).contains n) && short.any (fun k => s.stepCan i k n))
  match common with
  | some n => (s.takeStep i (worstMargin s i (short.filter (fun k => s.stepCan i k n))) n).settleMargins short
  | none =>
    let k := worstMargin s i short
    (s.takeStep i k (((marginSteps k).find? (s.stepCan i k)).getD 4)).settleMargins [k]

/-- Since when each margin has been at or above its recover level. -/
def State.trackGood (s : State) (i : MarginIn) : State :=
  s.modCalib (fun c => { c with good := marginKeys.foldl (fun t k =>
    if (s.margin i k).recovered then (if (Tab.get? t k).isSome then t else Tab.put t k s.time.localNs) else Tab.erase t k) c.good })

/-- The margins have all stayed recovered for a time. -/
def State.goodFor (s : State) (l : List Nat) (ns : Nat) : Bool :=
  l.all (fun k => match Tab.get? s.calib.good k with
    | some t => decide (t + ns ≤ s.time.localNs)
    | none => false)

/-- The recovery of some margins is counted anew. -/
def State.restartGood (s : State) (l : List Nat) : State :=
  s.modCalib (fun c => { c with good := l.foldl (fun t k => Tab.put t k s.time.localNs) c.good })

/-- The bays whose own speed limit has been clear for 1 h. -/
def State.limitClear (s : State) : Option BayId :=
  (List.finRange 8).find? (fun b => decide (0 < s.calib.limits[b.val]) && s.goodFor [4 + b.val] 3600000000000)

/-- Steps are undone in reverse order (R470): a bay's own step, then the decoder step, then a step of VCORE. -/
def State.undoStep (s : State) : State :=
  let speedRows := 1 :: (List.range 8).map (· + 4)
  match s.limitClear with
  | some b =>
    let n := s.calib.limits[b.val] - 1
    let s1 := s.modCalib (fun c => { c with limits := c.limits.set b.val n })
    (((if n = 0 then s1.setSta .calib (CALIB.bay_limited b.val) 0 else s1).restartGood [4 + b.val])).action 6
  | none =>
    if 0 < s.calib.decoderSteps ∧ s.goodFor speedRows (s.fld .calib CALIB.speed_hold * 60000000000) = true then
      ((s.modCalib (fun c => { c with decoderSteps := c.decoderSteps - 1 })).restartGood speedRows).action 6
    else if 0 < s.calib.vcore ∧ s.goodFor marginKeys (s.fld .calib CALIB.vcore_hold * 3600000000000) = true then
      (((s.setFld .power POWER.trim (s.fld .power POWER.trim - 1)).modCalib (fun c => { c with vcore := c.vcore - 1 })).restartGood
        marginKeys).action 5
    else s

/-- MARGIN_EVALUATION (R467–R470): slow decoders are retired, the margins are measured, and one step restores or undoes. -/
def execMarginEvaluation (i : MarginIn) (s : State) : Host.Outcome State Fault Refusal :=
  let s0 := i.decoderSlow.foldl (fun (t : State) d => if (t.decoders[d.val]).st = .active then t.retireDecoder d else t) s
  let worst := leastSlack s0.runSlacks
  let s1 := (s0.setSta .calib CALIB.worst_slack (min 0xFFF (min i.enginePrediction ((worst.map (·.1)).getD i.enginePrediction)))).setSta
    .calib CALIB.worst_engine ((worst.map (fun w => ((s0.heads[w.2.1.val]).loops[w.2.2.val]).runner)).getD 0)
  let s2 := s1.setSta .calib CALIB.cap_now (match s1.capacity i with
    | some (c, d) => min 65535 (100 * c / max 1 d)
    | none => 65535)
  let s3 := s2.trackGood i
  if s3.fld .calib CALIB.replan_enable = 0 then .next s3
  else
    let short := marginKeys.filter (fun k => (s3.margin i k).short && (match Tab.get? s3.calib.waits k with
      | some t => decide (t ≤ s3.time.localNs)
      | none => true))
    if short.isEmpty then .next s3.undoStep else .next (s3.restoreMargins i short)

/-- SPEED_STEP_APPLY (R469): a new step becomes the bay's target in READ with no read window open. The target moves where it was the
read speed before. -/
def execSpeedStepApply (b : BayId) (s : State) : Host.Outcome State Fault Refusal :=
  let x := s.bays[b.val]
  let want := s.speedWant b
  if want = x.speedStep ∨ x.sess ≠ .read ∨ x.requests.any (fun r => r.isRead && r.opened) = true then .next s
  else
    let was := decide (s.fld (.spindle b) SPINDLE.rpm = s.readRpm b)
    let s1 := s.modBay b (fun y => { y with speedStep := want })
    .next ((if was then s1.setTarget b (s1.readRpm b) else s1).logEv (srcBay b 1) .speedStep [want])

/-! ### Trends (R471, Table 19-4) -/

/-- The number of a trend. -/
def trendKey : Trend → Nat
  | .laser g k p => (4 * g.val + k.val) * 5 + p.val
  | .coil g c => 1000 + 4 * g.val + (match c with
      | .focus => 0
      | .tracking => 1
      | .tilt => 2
      | .skew => 3)
  | .backEmf b => 2000 + b.val
  | .dramCe c => 3000 + (chanIx c).val

/-- The source of a trend's log entry. -/
def trendSrc : Trend → BitVec 16
  | .laser g k _ => srcHead g (0x40 + k.val)
  | .coil g c => srcHead g (match c with
      | .focus => 0
      | .tracking => 1
      | .tilt => 2
      | .skew => 3)
  | .backEmf b => srcBay b 0
  | .dramCe c => srcDram c

/-- A trend is compared now: a laser's only within ±2 °C of its point (Table 19-4). -/
def State.trendNow (s : State) : Trend → Bool
  | .laser g _ p => decide (((s.heads[g.val]).temp - 16 * (15 + 10 * p.val : Nat)).natAbs ≤ 32)
  | _ => true

/-- The measure after its correction (Table 19-4). -/
def State.trendValue (s : State) (t : Trend) (v : Nat) : Nat :=
  match t with
  | .coil g _ => (roundNear ((v : Int) * 160000) (160000 + 39 * ((s.heads[g.val]).temp - 400))).toNat
  | _ => v

/-- The baseline of a trend: the motor's flux for a drive, that of the NV image else (Table 19-4). -/
def State.trendBase (s : State) (t : Trend) : Option Nat :=
  match t with
  | .backEmf b => some (s.fld (.spindle b) SPINDLE.flux)
  | .dramCe _ => some 0
  | _ => Tab.get? s.calib.bases (trendKey t)

/-- The level of a trend: 1 at its warn level, 2 at its limit. -/
def State.trendLevel (s : State) (t : Trend) (base v : Nat) : Nat :=
  let f := s.fld .calib
  let up (w l : Nat) : Nat := if base * (100 + l) ≤ v * 100 then 2 else if base * (100 + w) ≤ v * 100 then 1 else 0
  match t with
  | .laser _ _ _ => up (f CALIB.laser_warn) (f CALIB.laser_limit)
  | .coil _ _ => up (f CALIB.coil_warn) (f CALIB.coil_limit)
  | .backEmf _ =>
    if v * 100 ≤ base * (100 - f CALIB.flux_limit) then 2 else if v * 100 ≤ base * (100 - f CALIB.flux_warn) then 1 else 0
  | .dramCe _ => if 4 * f CALIB.ce_warn ≤ v then 2 else if f CALIB.ce_warn ≤ v then 1 else 0

/-- TREND_EVALUATION (R471): a first measure is the baseline; a crossing of the warn level or the limit is reported. -/
def execTrendEvaluation (t : Trend) (value : BitVec 32) (s : State) : Host.Outcome State Fault Refusal :=
  let v := s.trendValue t value.toNat
  if !s.trendNow t then .next s
  else match s.trendBase t with
    | none => .next { s with calib := { s.calib with bases := Tab.put s.calib.bases (trendKey t) v }, nv := { s.nv with dueOwned := true } }
    | some base =>
      let old := Tab.get 0 s.calib.trends (trendKey t)
      let new := s.trendLevel t base v
      let s1 := s.modCalib (fun c => { c with trends := Tab.set 0 c.trends (trendKey t) new })
      let s2 := if old < 1 ∧ 1 ≤ new then (s1.flag .calib CALIB.trend_warn).logVec (trendSrc t) .trend [1, v] 4 else s1
      if old < 2 ∧ new = 2 then .next ((((s2.flag .calib CALIB.trend_limit).flag .calib CALIB.margin_exhausted).action 4).logVec (trendSrc t) .trend [2, v] 4)
      else .next s2

/-- CALIB_CLEAR_STATS (R473). -/
def execCalibClearStats (s : State) : Host.Outcome State Fault Refusal :=
  if !s.answers .calib then .next (s.absent .calib CALIB.clear_stats.off) else
  .next ((s.setSta .calib CALIB.trials 0).setSta .calib CALIB.rejected 0)

end Sys2Proof.Machine
end

