-- ==== Sys2Proof/Machine/ChainPorts.lean ====
section
/-! DEFINITION. The chain port's links (R426–R432, R435): port states, HELLO and routes, broken links, replay, and the packets that keep a link up. -/

namespace Sys2Proof.Machine

def srcChain : BitVec 16 := srcBlock 12

/-! ### Ports (R426) -/

/-- The ports may leave DOWN: enabled, with an ID, PD17 on and the reference present (R426, R427, R458). -/
def State.chainMay (s : State) : Bool :=
  s.fld .chain CHAIN.enable == 1 && s.moduleId != 0xFFFF && s.pdOn 17 && !s.time.refLost

/-- The ports in DOWN begin to train where they may. -/
def State.chainRelease (s : State) : State :=
  if s.chainMay then
    s.modChain (fun c => { c with ports := c.ports.map (fun (x : PortSt) => if x.st = .down then { x with st := .train, attempts := 0, good := 0 } else x) })
  else s

/-- Both ports are held in DOWN: what they knew of the chain is gone. -/
def State.chainHold (s : State) : State :=
  s.modChain (fun c => { c with
    ports := Vector.replicate 2 PortSt.reset, ring := false, downLinks := [], masters := [], locked := 0 })

/-- The module next on a port's link: the ID one hop away. -/
def PortSt.neighbour (x : PortSt) : Option Nat := (x.seen.find? (fun e => e.2 == 1)).map (·.1)

/-- A HELLO of a nonce that the module draws (R428, R429), with whether it is a time master as its payload (DESIGN CHOICE, log entry 32). -/
def State.sendHello (s : State) (i : Fin 2) : State :=
  let d := s.draw
  let nonce := d.1 % 65536
  let s1 := d.2.modChain (fun c => { c with nonces := if c.nonces.contains nonce then c.nonces else nonce :: c.nonces })
  s1.sendOn i ⟨0x20, 1, 0xFFFF, s.moduleId, 0, nonce, 0, 0, leBytes 4 (s.fld .chain CHAIN.time_master)⟩

/-- A port enters UP: the lanes that trained are a free value of 4, 2 and 1, and a HELLO goes out (R426, R428). -/
def State.enterUp (s : State) (i : Fin 2) : State :=
  let d := s.draw
  let lanes := match d.1 % 3 with
    | 0 => 4
    | 1 => 2
    | _ => 1
  let s1 := (d.2.modPort i (fun x => { x with st := .up, attempts := 0, good := 0, lanes := lanes })).logEv srcChain .chainUp [i.val]
  s1.sendHello i

/-! ### Broken links (R435) -/

/-- The ends of a link, the lower ID first. -/
def linkOf (a b : Nat) : Nat × Nat := (min a b, max a b)

/-- Hops to a module as a port sees it, the module itself at 0. -/
def State.hopsOn (s : State) (i : Fin 2) (id : Nat) : Option Nat :=
  if id = s.moduleId then some 0 else Tab.get? (s.port i).seen id

/-- The routes of a port that cross a broken link are dropped: those beyond its nearer end. -/
def State.cutPort (s : State) (i : Fin 2) (l : Nat × Nat) : State :=
  match s.hopsOn i l.1, s.hopsOn i l.2 with
  | some a, some b => s.modPort i (fun x => { x with seen := x.seen.filter (fun e => decide (e.2 ≤ min a b)) })
  | _, _ => s

/-- A link is reported down: a ring is broken, and a second broken link makes it a chain (R435, Table 17-1). -/
def State.linkDown (s : State) (l : Nat × Nat) : State :=
  let s1 := (s.cutPort 0 l).cutPort 1 l
  if !s.chain.ring || s.chain.downLinks.contains l then s1
  else if s.chain.downLinks = [] then s1.modChain (fun c => { c with downLinks := [l] })
  else s1.modChain (fun c => { c with ring := false, downLinks := [] })

/-- The bytes of a sent packet as a packet again, diverted around the ring: flag [1] set and its hops 0 (R435). -/
def diverted (b : List Byte) : Packet :=
  let u (o n : Nat) : Nat := ofLe ((b.drop o).take n)
  { type := u 0 1, flags := u 1 1 ||| 2, dest := u 2 2, source := u 4 2, hops := 0, tag := u 8 2, status := u 12 2, address := u 16 8
    payload := (b.drop 24).take (u 10 2) }

/-- A port leaves UP for a state (R435): its routes are gone, LINK_STATE goes out through the other port, and in a ring so does every packet of
its replay buffer. -/
def State.leaveUp (s : State) (i : Fin 2) (st : PortState) : State :=
  let x := s.port i
  let end_ := x.neighbour.getD 0xFFFF
  let l := linkOf s.moduleId end_
  let s1 := (s.modPort i (fun y => { y with st := st, seen := [], good := 0, attempts := 0, lanes := 0 })).logEv srcChain .chainDown [i.val]
  let s2 := s1.sendOn (otherIx i) ⟨0x21, 1, 0xFFFF, s.moduleId, 0, 0, 0, 0, leBytes 2 l.1 ++ leBytes 2 l.2⟩
  let s3 := s2.linkDown l
  if s.chain.ring then x.sent.reverse.foldl (fun t p => t.sendOn (otherIx i) (diverted p.bytes)) s3 else s3

/-! ### Receiving (R431, R432) -/

/-- LINK_ACK with the last good sequence of a port. -/
def State.sendAck (s : State) (i : Fin 2) : State :=
  s.sendOn i ⟨0x22, 0, 0, s.moduleId, 0, ((s.port i).rxSeq + 65535) % 65536, 0, 0, []⟩

/-- A packet whose CRC fails is counted and dropped. -/
def State.badCrc (s : State) (i : Fin 2) : State := (s.incSat .chain CHAIN.crc_errors).sendAck i

/-- A sequenced packet is taken by the link: false, with LINK_ACK, where its CRC fails or its sequence is out of order (R432). -/
def State.linkTake (s : State) (p : PacketIn) : Bool × State :=
  let i := portIx p.port
  if (s.port i).st ≠ .up then (false, s)
  else if !p.crcOk then (false, s.badCrc i)
  else if p.seq.toNat ≠ (s.port i).rxSeq then (false, s.sendAck i)
  else (true, s.modPort i (fun x => { x with rxSeq := (x.rxSeq + 1) % 65536 }))

def satHops (n : Nat) : Nat := min 65535 (n + 1)

/-- A received packet of a type, as it goes on. -/
def onward (p : PacketIn) (type : Nat) : Packet :=
  { type := type, flags := p.flags.toNat, dest := p.dest.toNat, source := p.source.toNat, hops := satHops p.hops.toNat, tag := p.tag.toNat
    status := p.status.toNat, address := p.address.toNat, payload := p.payload }

/-- A packet for another module passes through: out of the other port, or back toward its destination where that link is broken; with a
duplicate ID only HELLO and LINK_STATE are forwarded (R428, R429, R435). -/
def State.forward (s : State) (p : PacketIn) (type : Nat) : State :=
  let o := otherIx (portIx p.port)
  if s.chain.dupId ∧ type ≠ 0x20 ∧ type ≠ 0x21 then s
  else if (s.port o).st = .up then s.sendOn o (onward p type)
  else if type = 0x20 ∨ type = 0x21 then s
  else match s.route p.dest.toNat with
    | some i => s.sendOn i (onward p type)
    | none => s

/-- A packet of a type arrives: the link takes it, one for another module is forwarded, and one for this module acts. -/
def State.receive (s : State) (p : PacketIn) (type : Nat) (act : State → State) : State :=
  let t := s.linkTake p
  if !t.1 then t.2
  else if p.dest.toNat = s.moduleId then act t.2
  else t.2.forward p type

/-! ### Keepalive and training (R426) -/

/-- KEEPALIVE (R426): the fourth valid one in a row takes a training port to UP. -/
def execKeepalive (p : PacketIn) (s : State) : Host.Outcome State Fault Refusal :=
  let i := portIx p.port
  let x := s.port i
  if x.st = .train then
    if !p.crcOk then .next ((s.incSat .chain CHAIN.crc_errors).modPort i (fun y => { y with good := 0 }))
    else if 4 ≤ x.good + 1 then .next (s.enterUp i)
    else .next (s.modPort i (fun y => { y with good := y.good + 1 }))
  else if x.st = .up ∧ p.crcOk = false then .next (s.badCrc i)
  else .next s

/-- CHAIN_TRAIN_TIMEOUT (R426): the attempt is counted, and the port is FAILED after retrain_limit attempts. -/
def execChainTrainTimeout (p : Port) (s : State) : Host.Outcome State Fault Refusal :=
  let i := portIx p
  let x := s.port i
  if x.st ≠ .train then .next s
  else if s.fld1 .chain CHAIN.retrain_limit ≤ x.attempts + 1 then
    .next (s.modPort i (fun y => { y with st := .failed, attempts := 0, good := 0 }))
  else .next (s.modPort i (fun y => { y with attempts := y.attempts + 1, good := 0 }))

/-- KEEPALIVE_TIMEOUT (R426). -/
def execKeepaliveTimeout (p : Port) (s : State) : Host.Outcome State Fault Refusal :=
  let i := portIx p
  if (s.port i).st = .up then .next (s.leaveUp i .train) else .next s

/-- KEEPALIVE_TIMER (R426). -/
def execKeepaliveTimer (p : Port) (s : State) : Host.Outcome State Fault Refusal :=
  .next (s.sendOn (portIx p) ⟨0x23, 0, 0, s.moduleId, 0, 0, 0, 0, []⟩)

/-- HELLO_TIMER (R428). -/
def execHelloTimer (p : Port) (s : State) : Host.Outcome State Fault Refusal :=
  if (s.port (portIx p)).st = .up then .next (s.sendHello (portIx p)) else .next s

/-! ### HELLO and LINK_STATE (R428, R429, R435) -/

/-- A HELLO of another module: its route, and whether it is a time master (R428, R439). -/
def State.takeHello (s : State) (p : PacketIn) : State :=
  let id := p.source.toNat
  let master : Bool := bitOf (ofLe (p.payload.take 4)) 0
  let s1 := (s.modPort (portIx p.port) (fun x => { x with seen := Tab.put x.seen id (satHops p.hops.toNat) })).modChain (fun c => { c with
    masters := if master then (if c.masters.contains id then c.masters else id :: c.masters) else c.masters.filter (· != id) })
  if master && !s.chain.masters.contains id && s.fld .chain CHAIN.time_master == 1 then s1.logEv srcChain .dupMaster [id] else s1

/-- HELLO (R428, R429): the module's own HELLO closes a ring; a foreign one with its ID marks a duplicate; any other is taken, and forwarded. -/
def execHello (p : PacketIn) (s : State) : Host.Outcome State Fault Refusal :=
  let t := s.linkTake p
  if !t.1 then .next t.2
  else if p.source.toNat = s.moduleId then
    if s.chain.nonces.contains p.tag.toNat then .next (t.2.modChain (fun c => { c with ring := true, downLinks := [] }))
    else
      let s1 := t.2.modChain (fun c => { c with dupId := true })
      let s2 := if s.chain.dupId then s1 else s1.logEv srcChain .duplicate [s.moduleId]
      .next (s2.forward p 0x20)
  else .next ((t.2.takeHello p).forward p 0x20)

/-- LINK_STATE (R435): a module's own report that has come round goes no further. -/
def execLinkState (p : PacketIn) (s : State) : Host.Outcome State Fault Refusal :=
  let t := s.linkTake p
  if !t.1 then .next t.2
  else if p.source.toNat = s.moduleId ∧ s.chain.dupId = false then .next t.2
  else .next ((t.2.linkDown (linkOf (ofLe (p.payload.take 2)) (ofLe ((p.payload.drop 2).take 2)))).forward p 0x21)

/-! ### LINK_ACK (R432) -/

/-- The packets after the acknowledged one are sent again; one that is replayed 8 times sends the port to TRAIN. -/
def State.replayFrom (s : State) (i : Fin 2) (seq : Nat) : State :=
  let x := s.port i
  let after := x.sent.takeWhile (fun e => e.seq != seq)
  let s1 := s.modPort i (fun y => { y with
    sent := after.map (fun (e : Sent) => { e with replays := e.replays + 1 }) ++ x.sent.drop after.length })
  let s2 := (after.reverse.foldl (fun t e => t.emit (.chain (ixPort i) e.bytes)) s1).addSat .chain CHAIN.replays after.length
  if after.any (fun e => 8 ≤ e.replays + 1) then s2.leaveUp i .train else s2

/-- LINK_ACK (R432). -/
def execLinkAck (p : PacketIn) (s : State) : Host.Outcome State Fault Refusal :=
  let i := portIx p.port
  if (s.port i).st ≠ .up then .next s
  else if !p.crcOk then .next (s.badCrc i)
  else .next (s.replayFrom i p.tag.toNat)

/-! ### CTRL (R429, R441) -/

/-- A port in UP or FAILED goes to TRAIN. -/
def State.retrainPort (s : State) (i : Fin 2) : State :=
  match (s.port i).st with
  | .up => s.leaveUp i .train
  | .failed => s.modPort i (fun x => { x with st := .train, attempts := 0, good := 0 })
  | _ => s

/-- CHAIN_RETRAIN (R441). -/
def execChainRetrain (s : State) : Host.Outcome State Fault Refusal :=
  if !s.answers .chain then .next (s.absent .chain CHAIN.retrain.off) else
  .next ((s.retrainPort 0).retrainPort 1)

/-- CHAIN_ENABLE_WRITE (R429, R441). -/
def execChainEnableWrite (v : Bool) (s : State) : Host.Outcome State Fault Refusal :=
  if !s.answers .chain then .next (s.absent .chain CHAIN.enable.off) else
  let s1 := s.setFld .chain CHAIN.enable (b2n v)
  if v then .next s1.chainRelease else .next s1.chainHold

/-- CHAIN_CLEAR_STATS (R441). -/
def execChainClearStats (s : State) : Host.Outcome State Fault Refusal :=
  if !s.answers .chain then .next (s.absent .chain CHAIN.clear_stats.off) else
  .next ((s.setSta .chain CHAIN.crc_errors 0).setSta .chain CHAIN.replays 0)

end Sys2Proof.Machine
end

