-- ==== Sys2Proof/Machine/Aes.lean ====
section
/-! DEFINITION. AES-256 (FIPS-197), XTS-AES-256 over a 4,096-byte unit (IEEE Std 1619, R409), the key tag (R411) and AES key wrap (NIST
SP 800-38F, KW; Table 16-1), on lists of bytes. -/

namespace Sys2Proof.Machine

/-! ### GF(2^8) of AES -/

/-- Multiplication by x. -/
def xtime (b : Byte) : Byte := if b.msb then (b <<< 1) ^^^ 0x1B else b <<< 1

/-- The product over the bits of the second factor, least significant first, n of them. -/
def aesMulBits : Nat → Byte → Byte → Byte
  | 0, _, _ => 0
  | n + 1, a, b => (if b.getLsbD 0 then a else 0) ^^^ aesMulBits n (xtime a) (b >>> 1)

def aesMul (a b : Byte) : Byte := aesMulBits 8 a b

/-- The inverse, x^254; 0 for 0. -/
def aesInv (x : Byte) : Byte :=
  let x2 := aesMul x x
  let x4 := aesMul x2 x2
  let x8 := aesMul x4 x4
  let x16 := aesMul x8 x8
  let x32 := aesMul x16 x16
  let x64 := aesMul x32 x32
  let x128 := aesMul x64 x64
  aesMul x2 (aesMul x4 (aesMul x8 (aesMul x16 (aesMul x32 (aesMul x64 x128)))))

/-- SubBytes of one byte. -/
def sbox (x : Byte) : Byte :=
  let b := aesInv x
  b ^^^ b.rotateLeft 1 ^^^ b.rotateLeft 2 ^^^ b.rotateLeft 3 ^^^ b.rotateLeft 4 ^^^ 0x63

/-- InvSubBytes of one byte. -/
def invSbox (x : Byte) : Byte := aesInv (x.rotateLeft 1 ^^^ x.rotateLeft 3 ^^^ x.rotateLeft 6 ^^^ 0x05)

/-! ### The cipher -/

def xorBytes (a b : List Byte) : List Byte := List.zipWith (· ^^^ ·) a b

/-- Byte r + 4c of a state of 16 bytes, rows and columns modulo 4. -/
def aesAt (l : List Byte) (r c : Nat) : Byte := l.getD (r % 4 + 4 * (c % 4)) 0

def shiftRows (l : List Byte) : List Byte := (List.range 16).map (fun i => aesAt l (i % 4) (i / 4 + i % 4))

def invShiftRows (l : List Byte) : List Byte := (List.range 16).map (fun i => aesAt l (i % 4) (i / 4 + 4 - i % 4))

/-- Each column multiplied by the circulant matrix whose first row is m. -/
def mixWith (m : List Byte) (l : List Byte) : List Byte :=
  (List.range 16).map (fun i =>
    let r := i % 4
    let c := i / 4
    (List.range 4).foldl (fun acc k => acc ^^^ aesMul (m.getD ((k + 4 - r) % 4) 0) (aesAt l k c)) 0)

def mixColumns : List Byte → List Byte := mixWith [2, 3, 1, 1]

def invMixColumns : List Byte → List Byte := mixWith [0x0E, 0x0B, 0x0D, 0x09]

/-- The round constant of round i ≥ 1. -/
def rcon : Nat → Byte
  | 0 => 1
  | n + 1 => xtime (rcon n)

/-- Word i of the key schedule from word i − 8 and word i − 1. -/
def keyWord (i : Nat) (back last : List Byte) : List Byte :=
  if i % 8 = 0 then
    xorBytes back (xorBytes ((last.drop 1 ++ last.take 1).map sbox) [rcon (i / 8 - 1), 0, 0, 0])
  else if i % 8 = 4 then xorBytes back (last.map sbox)
  else xorBytes back last

/-- n further words of the schedule, from word i on; `w` holds the last eight words, oldest first. -/
def expandFrom : Nat → Nat → List (List Byte) → List (List Byte)
  | 0, _, _ => []
  | n + 1, i, w =>
    let x := keyWord i (w.headD []) (w.getLastD [])
    x :: expandFrom n (i + 1) (w.drop 1 ++ [x])

/-- The eight words of a 32-byte key. -/
def keyWords (k : List Byte) : List (List Byte) := (List.range 8).map (fun i => (k.drop (4 * i)).take 4)

/-- The 15 round keys of AES-256. -/
def roundKeys (k : List Byte) : List (List Byte) :=
  let w := keyWords k ++ expandFrom 52 8 (keyWords k)
  (List.range 15).map (fun i => (w.drop (4 * i)).take 4 |>.flatten)

/-- The rounds after the first key addition. -/
def encRounds : List (List Byte) → List Byte → List Byte
  | [], x => x
  | [k], x => xorBytes (shiftRows (x.map sbox)) k
  | k :: r, x => encRounds r (xorBytes (mixColumns (shiftRows (x.map sbox))) k)

/-- AES-256 of one block. -/
def aesEnc (ks : List (List Byte)) (x : List Byte) : List Byte :=
  match ks with
  | [] => x
  | k :: r => encRounds r (xorBytes x k)

/-- The inverse rounds, with the round keys in reverse order. -/
def decRounds : List (List Byte) → List Byte → List Byte
  | [], x => x
  | [k], x => xorBytes ((invShiftRows x).map invSbox) k
  | k :: r, x => decRounds r (invMixColumns (xorBytes ((invShiftRows x).map invSbox) k))

/-- The inverse of AES-256 of one block. -/
def aesDec (ks : List (List Byte)) (x : List Byte) : List Byte :=
  match ks.reverse with
  | [] => x
  | k :: r => decRounds r (xorBytes x k)

/-! ### XTS (R409) -/

/-- The tweak multiplied by α: a shift of the 128 bits, least significant byte first. -/
def tweakNext (t : List Byte) : List Byte :=
  let carry := (t.getLastD 0).msb
  let shifted := (List.range t.length).map (fun i =>
    (t.getD i 0 <<< 1) ^^^ (if 0 < i ∧ (t.getD (i - 1) 0).msb = true then 1 else 0))
  match shifted with
  | [] => []
  | b :: r => (if carry then b ^^^ 0x87 else b) :: r

/-- n blocks of XTS from a tweak on, each passed through `f`. -/
def xtsBlocks (f : List Byte → List Byte) : Nat → List Byte → List Byte → List Byte
  | 0, _, _ => []
  | n + 1, t, l => xorBytes (f (xorBytes (l.take 16) t)) t ++ xtsBlocks f n (tweakNext t) (l.drop 16)

/-- The tweak bytes: the logical block, little-endian in bytes 0–7, the namespace ID in 8–11, and 0 (R409). -/
def tweakBytes (ns lba : Nat) : List Byte :=
  (List.range 8).map (fun i => BitVec.ofNat 8 (lba / 256 ^ i)) ++ (List.range 4).map (fun i => BitVec.ofNat 8 (ns / 256 ^ i)) ++ [0, 0, 0, 0]

/-- The data unit of 4,096 bytes, 0x00 beyond the end of the list. -/
def unitOf (l : List Byte) : List Byte := (l ++ List.replicate (4096 - l.length) 0).take 4096

/-- XTS-AES-256 of a unit under Key1 then Key2. -/
def xtsEnc (key : List Byte) (ns lba : Nat) (l : List Byte) : List Byte :=
  xtsBlocks (aesEnc (roundKeys (key.take 32))) 256 (aesEnc (roundKeys (key.drop 32)) (tweakBytes ns lba)) (unitOf l)

/-- The inverse. -/
def xtsDec (key : List Byte) (ns lba : Nat) (l : List Byte) : List Byte :=
  xtsBlocks (aesDec (roundKeys (key.take 32))) 256 (aesEnc (roundKeys (key.drop 32)) (tweakBytes ns lba)) (unitOf l)

/-- The key tag: the first four bytes of AES-256 under Key1 of zeros, little-endian (R411). -/
def keyTagOf (key : List Byte) : BitVec 32 :=
  BitVec.ofNat 32 (((aesEnc (roundKeys (key.take 32)) (List.replicate 16 0)).take 4).foldr (fun b n => b.toNat + 256 * n) 0)

/-! ### Key wrap (Table 16-1) -/

/-- The 8 big-endian bytes of a step counter. -/
def be64 (n : Nat) : List Byte := (List.range 8).map (fun i => BitVec.ofNat 8 (n / 256 ^ (7 - i)))

/-- n steps of the wrap, from step t on: the integrity register and the semiblocks, rotated once a step. -/
def wrapSteps (ks : List (List Byte)) : Nat → Nat → List Byte → List (List Byte) → List Byte × List (List Byte)
  | 0, _, a, r => (a, r)
  | n + 1, t, a, r =>
    let b := aesEnc ks (a ++ r.headD [])
    wrapSteps ks n (t + 1) (xorBytes (b.take 8) (be64 t)) (r.drop 1 ++ [b.drop 8])

/-- KW of a 64-byte key under a 32-byte key: 72 bytes. -/
def wrapKey (kek key : List Byte) : List Byte :=
  let r := (List.range 8).map (fun i => (key.drop (8 * i)).take 8)
  let p := wrapSteps (roundKeys kek) 48 1 (List.replicate 8 0xA6) r
  p.1 ++ p.2.flatten

/-- n steps of the unwrap, back from step t. -/
def unwrapSteps (ks : List (List Byte)) : Nat → Nat → List Byte → List (List Byte) → List Byte × List (List Byte)
  | 0, _, a, r => (a, r)
  | n + 1, t, a, r =>
    let b := aesDec ks (xorBytes a (be64 t) ++ r.getLastD [])
    unwrapSteps ks n (t - 1) (b.take 8) (b.drop 8 :: r.dropLast)

/-- The unwrapped key, none where the integrity check fails. -/
def unwrapKey (kek w : List Byte) : Option (List Byte) :=
  let r := (List.range 8).map (fun i => (w.drop (8 + 8 * i)).take 8)
  let p := unwrapSteps (roundKeys kek) 48 48 (w.take 8) r
  if p.1 = List.replicate 8 0xA6 then some p.2.flatten else none

end Sys2Proof.Machine
end

