-- ==== Sys2Proof/Machine/Cipher.lean ====
section
/-! DEFINITION. The cipher engine (chapter 16): requests, dual computation, slot fetches, alarms, and the NAMESPACE and KEY commands. -/

namespace Sys2Proof.Machine

def State.modCipher (s : State) (f : Cipher → Cipher) : State := { s with cipher := f s.cipher }

/-! ### Slots (R413, R414, R422) -/

/-- The record of a slot. -/
def State.slot (s : State) (n : Nat) : SlotRec := Tab.get SlotRec.empty s.slots n

def State.setSlot (s : State) (n : Nat) (r : SlotRec) : State := { s with slots := Tab.set SlotRec.empty s.slots n r }

/-- The state of a slot: a LOADED one of another KEK epoch counts as LOST (R414). -/
def State.slotState (s : State) (n : Nat) : Nat :=
  let r := s.slot n
  if r.state = 1 ∧ r.epoch ≠ s.cipher.epoch then 2 else r.state

/-- A slot's owner: while it is LOADED, and while any namespace is bound to it (R422). -/
def State.slotOwner (s : State) (n : Nat) : Option Nat :=
  if s.slotState n = 1 ∨ (s.slot n).bound ≠ 0 then some (s.slot n).owner else none

/-- The key of a slot leaves the slot cache. -/
def State.uncache (s : State) (n : Nat) : State := s.modCipher (fun c => { c with cache := c.cache.filter (fun p => p.1 != n) })

/-- A LOADED record becomes LOST. -/
def SlotRec.lose (r : SlotRec) : SlotRec := if r.state = 1 then { r with state := 2 } else r

/-- A slot becomes LOST (R402, R413). -/
def State.loseSlot (s : State) (n : Nat) : State :=
  (s.setSlot n (s.slot n).lose).uncache n

/-- Requests of a slot that are queued or in flight, numbered below n. -/
def State.slotBusy (s : State) (slot n : Nat) : Bool :=
  s.cipher.queue.any (fun r => r.slot == slot && decide (r.id < n)) ||
    s.cipher.cores.any (fun c => c.job.any (fun r => r.slot == slot && decide (r.id < n)))

/-! ### Failing and finishing requests (R412, R415, R418, R420) -/

/-- The block of a READ that a decryption serves. -/
def Cmd.blockOf (c : Cmd) (r : CipherReq) : Nat := r.lba - c.first

/-- Bytes accrue to the owner of a namespace (R489). -/
def State.meterCipher (s : State) (ns : BitVec 32) : State :=
  match s.nss.find? (fun n => n.nsid == ns) with
  | some n => s.meterAdd n.owner cCipher 4096
  | none => s

/-- A request fails with a status: its READ's block fails, or its WRITE as a whole (R421). -/
def State.failReq (s : State) (r : CipherReq) (status : Nat) : State :=
  let s1 := if status = stat 2 4 then s.incSat .cipher CIPHER.requests else s
  match s1.cmd? r.cmd with
  | none => s1
  | some c =>
    if c.isRead then (s1.modBlock c.id (c.blockOf r) (fun x => { x with failed := status })).readCheck c.id
    else if c.isWrite ∧ c.stage = .running then s1.failWrite c.id status (c.blockOf r) true
    else s1

/-- Requests fail one after another. -/
def State.failReqs (s : State) (l : List CipherReq) (status : Nat) : State := l.foldl (fun t r => t.failReq r status) s

/-- A write's data are all in DRAM: it enters the stage in which it is recorded whatever happens (R29, R275), and is placed. -/
def State.dataIn (s : State) (id : Nat) : State :=
  match s.cmd? id with
  | none => s
  | some c =>
    if c.stage = .running ∧ c.units.all (fun u => u == .done) = true then
      (s.modCmd id (fun x => { x with stage := .dataIn })).placeReady
    else s

/-- The output of a request: ciphertext into the write's buffer, mirrored, or plaintext for the host (R27–R29). -/
def State.finishReq (s : State) (r : CipherReq) (key : List Byte) : State :=
  let s1 := s.meterCipher r.nsid
  match s1.cmd? r.cmd with
  | none => s1
  | some c =>
    let i := c.blockOf r
    if r.decrypt then
      if c.isRead then
        (s1.modBlock c.id i (fun x => { x with data := some (xtsDec key r.nsid.toNat r.lba r.data) })).readCheck c.id
      else s1
    else if c.isWrite then
      let a := (s1.blockAddr c i).getD r.buffer
      let s2 := s1.store a (xtsEnc key r.nsid.toNat r.lba r.data)
      (s2.modCmd c.id (fun x => { x with keyTag := keyTagOf key, units := x.units.set i .done })).dataIn c.id
    else s1

/-! ### Cores (R416–R418) -/

/-- Every core is fenced (R418). -/
def State.allFenced (s : State) : Bool := s.cipher.cores.all (fun c => c.st == .fenced)

/-- A core that can take a request. -/
def State.freeCore (s : State) : Option (Fin 8) :=
  (List.finRange 8).find? (fun i => (s.cipher.cores[i.val]).st == .active && (s.cipher.cores[i.val]).job.isNone)

/-- A request waits for a LOAD or ERASE of its slot to take effect (Table 16-4). -/
def State.reqHeld (s : State) (r : CipherReq) : Bool := s.cipher.ops.any (fun o => o.slot == r.slot && decide (o.from_ ≤ r.id))

/-- The oldest request whose slot is in the slot cache (R417). -/
def State.nextReq (s : State) : Option CipherReq :=
  (s.cipher.queue.take 4096).find? (fun r => s.cipher.cache.any (fun p => p.1 == r.slot) && !s.reqHeld r)

/-- The tag of the block that a decryption serves differs from its slot's (R412). -/
def State.tagBad (s : State) (r : CipherReq) : Bool :=
  r.decrypt && (match s.cmd? r.cmd with
    | some c => c.isRead && (match c.blocks[c.blockOf r]? with
        | some x => x.tag != (s.slot r.slot).tag
        | none => false)
    | none => false)

def State.modCore (s : State) (i : Fin 8) (f : CipherCore → CipherCore) : State :=
  s.modCipher (fun c => { c with cores := vmod c.cores i f })

/-- Free cores take requests, for at most n of them (R412, R417). -/
def State.serveCores (s : State) : Nat → State
  | 0 => s
  | n + 1 =>
    if s.cipher.st ≠ .ready ∨ s.fld .cipher CIPHER.enable = 0 then s
    else if s.allFenced then
      State.failReqs (s.modCipher (fun c => { c with queue := [] })) s.cipher.queue (stat 2 5)
    else match s.freeCore, s.nextReq with
      | some i, some r =>
        let s1 := s.modCipher (fun c => { c with queue := c.queue.erase r })
        if s.tagBad r then ((s1.incSat .cipher CIPHER.blocks).failReq r (stat 2 4)).serveCores n
        else
          let key := s.cipher.cache.filter (fun p => p.1 == r.slot)
          ((s1.modCipher (fun c => { c with cache := key ++ c.cache.filter (fun p => p.1 != r.slot) })).modCore i
            (fun c => { c with job := some r, again := false })).serveCores n
      | _, _ => s

/-- Slots that queued requests wait for are fetched (R416); requests found in the cache count as hits. -/
def State.wantSlot (s : State) (slot : Nat) : State :=
  if s.cipher.cache.any (fun p => p.1 == slot) then s.incSat .cipher CIPHER.hits
  else if s.cipher.fetching.contains slot then s
  else (s.modCipher (fun c => { c with fetching := c.fetching ++ [slot] })).incSat .cipher CIPHER.fetches

/-- LOADs and ERASEs that wait take effect once the requests before them have drained (Table 16-4), and a LOAD once the engine is READY
(R422). -/
def State.opReady (s : State) (o : KeyOp) : Bool := !s.slotBusy o.slot o.from_ && (o.load.isNone || s.cipher.st == .ready)

/-- The record of a loaded key (Table 16-1). -/
def State.loadedRec (s : State) (old : SlotRec) (key : List Byte) (owner : Nat) : SlotRec :=
  { state := 1, owner := owner, bound := old.bound, tag := keyTagOf key, epoch := s.cipher.epoch
    wrapped := wrapKey (s.cipher.kek.getD []) key, time := s.now }

/-- A LOAD or ERASE takes effect, and its command ends (R422). -/
def State.applyOp (s : State) (o : KeyOp) : State :=
  let s0 := s.modCipher (fun c => { c with ops := c.ops.erase o })
  let r := s.slot o.slot
  match o.load with
  | some (key, owner) =>
    let s1 := ((s0.setSlot o.slot (s.loadedRec r key owner)).uncache o.slot).logEv (srcBlock 11) .keyChange [o.slot, 1]
    s1.finish o.cmd 0 (keyTagOf key).toNat 0xFFFFFFFF true
  | none =>
    let s1 := ((s0.setSlot o.slot { SlotRec.empty with owner := if r.bound = 0 then 0 else r.owner, bound := r.bound }).uncache o.slot).logEv
      (srcBlock 11) .keyChange [o.slot, 2]
    s1.finish o.cmd 0 0 0xFFFFFFFF true

/-- Operations that can take effect do, in order, and their slots' held requests are fetched anew, for at most n of them. -/
def State.applyOps (s : State) : Nat → State
  | 0 => s
  | n + 1 =>
    match s.cipher.ops.find? s.opReady with
    | none => s
    | some o =>
      let s1 := s.applyOp o
      (if s1.cipher.queue.any (fun r => r.slot == o.slot) then s1.wantSlot o.slot else s1).applyOps n

/-- The engine goes on: operations, then cores. -/
def State.pump (s : State) : State :=
  let s1 := s.applyOps s.cipher.ops.length
  s1.serveCores (s1.cipher.queue.length + 8)

/-- A request is posted (R417): in ALARM it fails (R421), with PD16 off it fails as R415 gives, and with every core fenced it fails. -/
def State.postReq (s : State) (r : CipherReq) : State :=
  match s.cipher.st with
  | .alarm => s.failReq r (stat 2 4)
  | .off => s.failReq r (stat 0 4)
  | _ =>
    if s.allFenced then s.failReq r (stat 2 5)
    else
      let s1 := s.modCipher (fun c => { c with queue := c.queue ++ [r] })
      (if s.reqHeld r then s1 else s1.wantSlot r.slot).pump

/-- CIPHER_REQUEST (R417): one unit of a READ whose ciphertext is at hand, or of a WRITE that has not been posted. -/
def execCipherRequest (cmd : BitVec 64) (decrypt : Bool) (slot : BitVec 16) (nsid : BitVec 32) (lba : BitVec 64) (buffer : BitVec 37)
    (data : List Byte) (s : State) : Host.Outcome State Fault Refusal :=
  match s.cmd? cmd.toNat with
  | none => .next s
  | some c =>
    let i := lba.toNat - c.first
    let r (d : List Byte) : CipherReq := ⟨s.cipher.nextId, c.id, decrypt, slot.toNat, nsid, lba.toNat, buffer.toNat, d, 0⟩
    let s1 := s.modCipher (fun x => { x with nextId := x.nextId + 1 })
    if c.stage ≠ .running ∨ lba.toNat < c.first then .next s
    else if decrypt then
      match c.isRead, c.blocks[i]? with
      | true, some x =>
        (match x.lo, x.hi with
          | some lo, some hi =>
            if x.posted || x.data.isSome || x.failed != 0 then .next s
            else .next ((s1.modBlock c.id i (fun y => { y with posted := true })).postReq (r (lo ++ hi)))
          | _, _ => .next s)
      | _, _ => .next s
    else if c.isWrite ∧ c.units[i]? = some .todo then
      .next ((s1.modCmd c.id (fun x => { x with units := x.units.set i .posted })).postReq (r data))
    else .next s

/-- Requests of a slot that are not held. -/
def State.ofSlot (s : State) (slot : Nat) : List CipherReq := s.cipher.queue.filter (fun r => r.slot == slot && !s.reqHeld r)

/-- A key enters the slot cache; the least recently used entry with no request goes where 512 are held (R416). -/
def State.cacheKey (s : State) (slot : Nat) (key : List Byte) : State :=
  let keep := s.cipher.cache.filter (fun p => p.1 != slot)
  let idle (p : Nat × List Byte) : Bool := !s.slotBusy p.1 s.cipher.nextId
  let room := if keep.length < 512 then keep
    else match keep.reverse.find? idle with
      | some p => keep.erase p
      | none => keep
  s.modCipher (fun c => { c with cache := (slot, key) :: room })

/-- SLOT_FETCH_DONE (R413, R414, R416): a LOADED record that is sound is unwrapped into the cache; a record that is not makes its slot LOST;
the requests of a slot without a key fail with 0x02/0x04. -/
def execSlotFetchDone (slot : BitVec 16) (recordOk : Bool) (s : State) : Host.Outcome State Fault Refusal :=
  let n := slot.toNat
  if !s.cipher.fetching.contains n then .next s
  else
    let s0 := s.modCipher (fun c => { c with fetching := c.fetching.filter (· != n) })
    let r := s.slot n
    let key := if recordOk ∧ s.slotState n = 1 then unwrapKey (s.cipher.kek.getD []) r.wrapped else none
    match key with
    | some k => .next ((s0.cacheKey n k).pump)
    | none =>
      let s1 := if r.state = 1 then s0.loseSlot n else s0
      let mine := s1.ofSlot n
      .next ((State.failReqs (s1.modCipher (fun c => { c with queue := c.queue.filter (fun x => !mine.contains x) })) mine (stat 2 4)).pump)

/-- The requests queued and in flight. -/
def State.allReqs (s : State) : List CipherReq := s.cipher.cores.toList.filterMap (·.job) ++ s.cipher.queue

/-- A lost record acts on its slot alone as an alarm does on every slot (R421): the slot is LOST and its requests fail. -/
def State.slotLost (s : State) (n : Nat) : State :=
  let s1 := s.loseSlot n
  let mine (r : CipherReq) : Bool := r.slot == n
  let reqs := s1.allReqs.filter mine
  State.failReqs (s1.modCipher (fun c => { c with
    queue := c.queue.filter (fun r => !mine r)
    cores := c.cores.map (fun (x : CipherCore) => if x.job.any mine then { x with job := none, again := false } else x) })) reqs (stat 2 4)

/-- CIPHER_UNIT_DONE (R418): matching output leaves the core. A first mismatch is computed again; a second fences the core, which is tested, and
re-posts the request, which fails once it has fenced two cores. -/
def execCipherUnitDone (core : Fin 8) (isMatch : Bool) (s : State) : Host.Outcome State Fault Refusal :=
  let c := s.cipher.cores[core.val]
  match c.job with
  | none => .next s
  | some r =>
    if isMatch then
      let key := ((s.cipher.cache.find? (fun p => p.1 == r.slot)).map (·.2)).getD []
      let s1 := s.modCore core (fun x => { x with job := none, again := false, units := satInc 24 x.units })
      .next (s1.finishReq r key).pump
    else if c.again = false then .next ((s.modCore core (fun x => { x with again := true })).incSat .cipher CIPHER.retries)
    else
      let e := s.resError (srcCipher core.val)
      let s1 := e.2.modCore core (fun x => { x with job := none, again := false, st := if e.1 then .fenced else .testing })
      let s2 := (s1.incSat .cipher CIPHER.fences).logEv (srcCipher core.val) .cipherMismatch [r.slot, r.lba]
      let s3 := if e.1 then s2.testOutcome (srcCipher core.val) false else s2
      if r.fences = 1 then .next ((s3.meterCipher r.nsid).failReq r (stat 2 5)).pump
      else .next (State.pump (s3.modCipher (fun x => { x with queue := { r with fences := r.fences + 1 } :: x.queue })))

/-! ### Alarms and key epochs (R414, R415, R419–R421) -/

/-- The entry into KEYGEN: a fresh KEK and the next epoch (R414). -/
def State.enterKeygen (s : State) : State :=
  let d := s.draw
  d.2.modCipher (fun c => { c with st := .keygen, kek := some (Config.kek d.1), epoch := (c.epoch + 1) % 2 ^ 32, alarmHeld := false })

/-- Every request, queued or in flight, leaves the engine. -/
def State.clearReqs (s : State) : State :=
  s.modCipher (fun c => { c with queue := [], fetching := [], cache := [], cores := c.cores.map (fun x => { x with job := none, again := false }) })

/-- The bit of a source in CIPHER.STATUS. -/
def alarmBit : AlarmSource → Nat
  | .supply => 0
  | .temperature => 1
  | .shield => 2
  | .tamper => 3

/-- The LOADs that wait fail; an ERASE that waits takes effect (R422). -/
def State.dropLoads (s : State) (status : Nat) : State :=
  let loads := s.cipher.ops.filter (fun o => o.load.isSome)
  let s1 := s.modCipher (fun c => { c with ops := c.ops.filter (fun o => o.load.isNone) })
  let s2 := loads.foldl (fun t o => t.finish o.cmd status 0 0xFFFFFFFF true) s1
  s2.applyOps s2.cipher.ops.length

/-- CIPHER_ALARM (R419, R420): cores stop, keys are zeroised, every request fails with 0x02/0x04, every LOADED slot is LOST; logged, PF vector 0.
A broken shield stays active until reset; the other sources are taken as momentary (DESIGN CHOICE, log entry 43). -/
def execCipherAlarm (src : AlarmSource) (s : State) : Host.Outcome State Fault Refusal :=
  let bit := BitVec.ofNat 4 (2 ^ alarmBit src)
  let reqs := s.allReqs
  let s1 := s.clearReqs.modCipher (fun c => { c with
    st := if c.st = .off then .off else .alarm
    cause := c.cause ||| bit
    active := if src = .shield then c.active ||| bit else c.active
    kek := none
    alarmHeld := true })
  let s2 := { s1 with slots := s1.slots.map (fun (p : Nat × SlotRec) => (p.1, p.2.lose)) }
  let s3 := (s2.failReqs reqs (stat 2 4)).dropLoads (stat 2 4)
  .next (s3.logVec (srcBlock 11) .cipherAlarm [alarmBit src] 2)

/-- CIPHER_REARM (R421): with no source active the engine leaves ALARM for KEYGEN. -/
def execCipherRearm (s : State) : Host.Outcome State Fault Refusal :=
  if !s.answers .cipher then .next (s.absent .cipher CIPHER.rearm.off) else
  if s.cipher.st = .alarm ∧ s.cipher.active = 0 then .next (s.enterKeygen.logEv (srcBlock 11) .cipherRearm []) else .next s

/-- KEYGEN_DONE (R414): READY; the LOADs that waited proceed. -/
def execKeygenDone (s : State) : Host.Outcome State Fault Refusal :=
  if s.cipher.st = .keygen then .next (State.pump (s.modCipher (fun c => { c with st := .ready }))) else .next s

/-- PD16 switches off (R415): requests count as failed with 0x00/0x04, and the slot cache is empty. -/
def State.cipherOff (s : State) : State :=
  let reqs := s.allReqs
  let s1 := s.clearReqs.modCipher (fun c => { c with st := .off, alarmHeld := c.alarmHeld || c.st == .alarm })
  (s1.failReqs reqs (stat 0 4)).dropLoads (stat 2 4)

/-- PD16 switches on (R415): to ALARM, to KEYGEN, or to READY with the KEK kept. -/
def State.cipherOn (s : State) : State :=
  if s.cipher.st ≠ .off then s
  else if s.cipher.alarmHeld then s.modCipher (fun c => { c with st := .alarm })
  else match s.cipher.kek with
    | none => s.enterKeygen
    | some _ => State.pump (s.modCipher (fun c => { c with st := .ready }))

/-- CIPHER_CLEAR_STATS (R424). -/
def execCipherClearStats (s : State) : Host.Outcome State Fault Refusal :=
  if !s.answers .cipher then .next (s.absent .cipher CIPHER.clear_stats.off) else
  let s1 := [CIPHER.hits, CIPHER.fetches, CIPHER.retries, CIPHER.fences, CIPHER.requests, CIPHER.blocks].foldl
    (fun t f => t.setSta .cipher f 0) s
  .next (s1.modCipher (fun c => { c with cores := c.cores.map (fun x => { x with units := 0 }) }))

/-! ### NAMESPACE and KEY (R422) -/

/-- A NAMESPACE or KEY command of an op. -/
def State.opCmd? (s : State) (cmd : BitVec 64) (opcode : Byte) (op : Nat) : Option Cmd :=
  match s.adminCmd? cmd opcode with
  | some c => if specByte c.e 36 = op then some c else none
  | none => none

def State.ns? (s : State) (id : Nat) : Option Ns := s.nss.find? (fun n => n.nsid.toNat == id)

/-- The status of a CREATE (Table 16-3); an owner or slot that does not exist is an invalid field. -/
def State.nsCreateStatus (s : State) (c : Cmd) : Nat :=
  let id := specLe c.e 40 4
  let owner := specLe c.e 44 2
  let slot := specLe c.e 48 4
  if id = 0 ∨ id = 0xFFFFFFFF ∨ 2048 < owner ∨ 65535 < slot then stat 0 2
  else if (s.ns? id).isSome || (s.slotOwner slot).any (fun o => o != owner) then stat 3 3
  else 0

/-- NAMESPACE_CREATE (R422): the namespace, its slot bound, and its creation floor; the table persists. -/
def execNamespaceCreate (cmd : BitVec 64) (s : State) : Host.Outcome State Fault Refusal :=
  match s.opCmd? cmd 0x86 1 with
  | none => .next s
  | some c =>
    match s.nsCreateStatus c with
    | 0 =>
      let owner := specLe c.e 44 2
      let slot := specLe c.e 48 4
      let n : Ns := ⟨BitVec.ofNat 32 (specLe c.e 40 4), owner, slot, specLe c.e 52 8, s.seqNext⟩
      let r := s.slot slot
      let s1 := (s.accrueMounted.setSlot slot { r with owner := owner, bound := r.bound + 1 }).logEv (srcBlock 11) .namespaceChange [specLe c.e 40 4, 1]
      .next (State.adminOk { s1 with nss := s1.nss ++ [n], nv := { s1.nv with dueOwned := true } } c 0)
    | st => .next (s.finish c.id st 0 0xFFFFFFFF false)

/-- NAMESPACE_DELETE (R422): its runs leave the map at once; refused while commands of it are outstanding. -/
def execNamespaceDelete (cmd : BitVec 64) (s : State) : Host.Outcome State Fault Refusal :=
  match s.opCmd? cmd 0x86 2 with
  | none => .next s
  | some c =>
    match s.ns? (specLe c.e 40 4) with
    | none => .next (s.finish c.id (stat 1 1) 0 0xFFFFFFFF false)
    | some n =>
      if s.cmds.any (fun x => !x.admin && x.e.nsid == n.nsid) then .next (s.finish c.id (stat 3 3) 0 0xFFFFFFFF false)
      else
        let r := s.slot n.slot
        let s1 := (s.accrueMounted.setSlot n.slot { r with
          bound := r.bound - 1, owner := if r.bound ≤ 1 ∧ r.state = 0 then 0 else r.owner }).logEv (srcBlock 11) .namespaceChange [specLe c.e 40 4, 2]
        .next (State.adminOk { s1 with
          nss := s1.nss.filter (fun x => x.nsid != n.nsid)
          map := s1.map.filter (fun x => x.nsid != n.nsid)
          nv := { s1.nv with dueOwned := true } } c 0)

/-- NAMESPACE_QUERY (R422). -/
def execNamespaceQuery (cmd : BitVec 64) (s : State) : Host.Outcome State Fault Refusal :=
  match s.opCmd? cmd 0x86 3 with
  | none => .next s
  | some c =>
    match s.ns? (specLe c.e 40 4) with
    | none => .next (s.finish c.id (stat 1 1) 0 0xFFFFFFFF false)
    | some n => .next (s.adminOk c (n.owner + 2 ^ 16 * n.slot + 2 ^ 32 * (s.slot n.slot).tag.toNat))

/-- The key of a KEY LOAD: the 64 bytes at its data address. -/
def loadKey (c : Cmd) : List Byte := (c.e.buffer ++ List.replicate (64 - c.e.buffer.length) 0).take 64

/-- The status of a KEY LOAD (Table 16-3). -/
def State.loadStatus (s : State) (c : Cmd) : Nat :=
  let slot := specLe c.e 40 4
  let owner := specLe c.e 44 2
  let key := loadKey c
  if 65535 < slot ∨ 2048 < owner then stat 0 2
  else if (s.slotState slot = 1 ∧ specByte c.e 37 = 0) ∨ (s.slotOwner slot).any (fun o => o != owner) = true then stat 3 3
  else if key.take 32 = key.drop 32 ∨ keyTagOf key = 0 then stat 0 2
  else if s.cipher.st = .off ∨ s.cipher.st = .alarm then stat 2 4
  else 0

/-- A LOAD or ERASE is taken up: at once where it can be, else when it can (R422, Table 16-4). -/
def State.takeOp (s : State) (o : KeyOp) : State := State.pump (s.modCipher (fun c => { c with ops := c.ops ++ [o] }))

/-- KEY_LOAD (R411, R422). -/
def execKeyLoad (cmd : BitVec 64) (s : State) : Host.Outcome State Fault Refusal :=
  match s.opCmd? cmd 0x87 1 with
  | none => .next s
  | some c =>
    if s.cipher.ops.any (fun o => o.cmd == c.id) then .next s
    else match s.loadStatus c with
      | 0 => .next ((s.emit (.hostRead c.f c.e.dataAddr 64)).takeOp
          ⟨c.id, specLe c.e 40 4, some (loadKey c, specLe c.e 44 2), s.cipher.nextId⟩)
      | st => .next (s.finish c.id st 0 0xFFFFFFFF false)

/-- KEY_ERASE (R422): needs no KEK. -/
def execKeyErase (cmd : BitVec 64) (s : State) : Host.Outcome State Fault Refusal :=
  match s.opCmd? cmd 0x87 2 with
  | none => .next s
  | some c =>
    if s.cipher.ops.any (fun o => o.cmd == c.id) then .next s
    else if 65535 < specLe c.e 40 4 then .next (s.finish c.id (stat 0 2) 0 0xFFFFFFFF false)
    else .next (s.takeOp ⟨c.id, specLe c.e 40 4, none, s.cipher.nextId⟩)

/-- KEY_QUERY (R422). -/
def execKeyQuery (cmd : BitVec 64) (s : State) : Host.Outcome State Fault Refusal :=
  match s.opCmd? cmd 0x87 3 with
  | none => .next s
  | some c =>
    let slot := specLe c.e 40 4
    if 65535 < slot then .next (s.finish c.id (stat 0 2) 0 0xFFFFFFFF false)
    else .next (s.adminOk c (s.slotState slot + 2 ^ 16 * (s.slot slot).owner + 2 ^ 32 * (s.slot slot).tag.toNat))

end Sys2Proof.Machine
end

