-- ==== Sys2Proof/Machine/Mount.lean ====
section
/-! DEFINITION. Mounting a disc (R292–R299, R422): MOUNT_START, MOUNT_STAGE_DONE and DISC_UNLOAD. -/

namespace Sys2Proof.Machine

/-- A sequence number that a disc holds has been found: the module's counter resumes above it (R251). -/
def State.seenSeq (s : State) (n : Nat) : State := { s with seqNext := max s.seqNext (n + 1) }

/-- The disc is the most recently loaded: the runout store keeps the tables of 1,024 discs and the per-disc store the entries of 4,096
(R160, R464). -/
def State.loadDisc (s : State) (d : BitVec 128) : State :=
  let l := (d :: s.loadedDiscs.filter (· != d)).take 4096
  let store := s.discStore.filter (fun e => l.contains e.disc)
  { s with
    loadedDiscs := l
    runoutStore := s.runoutStore.filter (fun r => (l.take 1024).contains r.key.disc)
    discStore := if store.any (fun e => e.disc == d) || s.fld .calib CALIB.disc_trim_enable == 0 then store else DiscEntry.mk d [] [] :: store }

/-- A head of a bay that takes a disc: one in FAILED starts again, and its trims are computed for the disc (R132, R462). -/
def State.remount (s : State) (b : BayId) (g : HeadId) : State :=
  (if s.focState g = .failed ∧ s.sessionSpeed b = true then s.startHead g else s).recomputeTrims g

/-- A mount begins with stage 1 (R132, R292, R301, R462). -/
def State.beginMount (s : State) (b : BayId) (disc : BitVec 128) : State :=
  let s1 := (s.accrueMounted.loadDisc disc).modBay b (fun x => { x with disc := some disc, unusable := false })
  (s1.modMount b (fun _ => { Mount.reset with st := .mounting, stage := 1 })).eachHead b (fun t g => t.remount b g)

/-- MOUNT_START (R292): a bay with no disc mounted begins a mount, once the DECODE group has been committed. -/
def execMountStart (b : BayId) (disc : BitVec 128) (s : State) : Host.Outcome State Fault Refusal :=
  if (s.mounts[b.val]).st ≠ .none ∨ s.committedOnce 0x0800 = false then .next s else .next (s.beginMount b disc)

/-! ### Stage 3: the standing generation (R293) -/

/-- A copy's content (R293). -/
def anchorContent (a : AnchorIn) : AnchorIn := { a with area := 0 }

/-- The highest generation of some copies. -/
def topGeneration (l : List AnchorIn) : Nat := (l.map (·.generation.toNat)).foldl max 0

/-- The content that stands for a generation: the only one, or the one that more than half of its copies hold (Table 11-5). -/
def generationContent (l : List AnchorIn) (g : Nat) : Option AnchorIn :=
  let c := (l.filter (fun a => decide (a.generation.toNat = g))).map anchorContent
  c.find? (fun a => decide (c.length < 2 * (c.filter (· == a)).length))

/-- The copies of a generation differ. -/
def generationDiffers (l : List AnchorIn) (g : Nat) : Bool :=
  let c := (l.filter (fun a => decide (a.generation.toNat = g))).map anchorContent
  c.any (fun a => c.any (fun x => a != x))

/-- The contents that stand for the generations of some copies, highest generation first. -/
def standingContents (l : List AnchorIn) : List AnchorIn :=
  let gens := (l.map (·.generation.toNat)).dedup.mergeSort (fun a b => decide (b ≤ a))
  gens.filterMap (generationContent l)

/-- The high-water frames and record frames that a content gives. -/
def Mount.takeAnchor (m : Mount) (a : AnchorIn) (lower : List AnchorIn) : Mount :=
  { m with
    standing := some a, lower := lower, generation := a.generation.toNat, highestSeq := a.highestSeq.toNat
    highWater := a.layers.map (·.1.toNat)
    lastRec := a.layers.map (fun p => if p.2 = 0xFFFFFFFF then none else some p.2.toNat)
    ckpt := if a.ckptFrame = 0xFFFFFFFF then none else some (a.ckptSl, a.ckptFrame.toNat) }

/-- Table 11-5. -/
def Mount.decide (m : Mount) : Mount :=
  if m.copies.isEmpty then { m with roCause := m.roCause }
  else
    let g := topGeneration m.copies
    let differ := generationDiffers m.copies g
    let lower := (standingContents m.copies).filter (fun a => Decidable.decide (a.generation.toNat < g))
    let lack := (List.finRange 3).any (fun i => !m.copies.any (fun a => a.area == i && Decidable.decide (a.generation.toNat = g)))
    let m1 := { m with differ := differ, lacking := lack }
    match generationContent m.copies g with
    | some a =>
      let m2 := m1.takeAnchor a lower
      if a.flags.getLsbD 1 then { m2 with roCause := 1 } else m2
    | none =>
      match lower with
      | a :: r => { (m1.takeAnchor a r) with roCause := 2 }
      | [] => { m1 with roCause := 2 }

/-! ### Stage 7: the map (R270, R422) -/

/-- A couching record enters the map: its namespace is in the table with no higher creation floor, and no later record of its number was found
(R270, R422). -/
def State.recordEnters (s : State) (l : List RecordIn) (r : RecordIn) : Bool :=
  s.nss.any (fun n => n.nsid == r.nsid && decide (n.floor ≤ r.seq.toNat))
    && !l.any (fun x => x.seq == r.seq && decide (r.timestamp.toNat < x.timestamp.toNat))

/-- A checkpoint entry enters the map (R422), unless a record found later in the roll-forward is of its extent. -/
def State.entryEnters (s : State) (covered : Nat) (l : List RecordIn) (e : CkptEntryIn) : Bool :=
  s.nss.any (fun n => n.nsid == e.nsid && decide (n.floor ≤ covered)) && !l.any (fun x => x.seq == e.seq)

/-- The runs of a record with their first blocks within the extent. -/
def recOffsets : Nat → List RunIn → List (Nat × RunIn)
  | _, [] => []
  | n, r :: l => (n, r) :: recOffsets (n + r.count.toNat) l

def relocList (l : List (BitVec 8 × BitVec 32)) : List (Nat × Nat) := l.map (fun p => (p.1.toNat, p.2.toNat))

/-- The map runs of a record (R272). -/
def recordRuns (d : BitVec 128) (r : RecordIn) : List MapRun :=
  (recOffsets 0 r.runs).map (fun p =>
    ⟨r.nsid, p.2.first.toNat, p.2.count.toNat, d, r.sl, r.frame.toNat, p.1, r.keyTag, r.seq.toNat, r.start.toNat,
      r.clusters.toNat, relocList r.relocs⟩)

/-- The map run of a checkpoint entry. -/
def entryRun (d : BitVec 128) (e : CkptEntryIn) : MapRun :=
  ⟨e.nsid, e.first.toNat, e.count.toNat, d, e.sl, e.recordFrame.toNat, e.blockOffset.toNat, e.keyTag, e.seq.toNat, e.start.toNat,
    e.clusters.toNat, relocList e.relocs⟩

/-- The record that comes last in the order of R252, and its number. -/
def lastRecord (l : List RecordIn) (es : List CkptEntryIn) : Option (Nat × BitVec 5 × Nat) :=
  (l.map (fun r => (r.seq.toNat, r.sl, r.frame.toNat)) ++ es.map (fun e => (e.seq.toNat, e.sl, e.recordFrame.toNat))).foldl
    (fun a x => match a with
      | none => some x
      | some y => if y.1 < x.1 then some x else a) none

/-- Stage 7 (R270, R422): the map takes what was found, and the counters resume above it. -/
def State.applyMount (s : State) (b : BayId) (d : BitVec 128) : State :=
  let m := s.mounts[b.val]
  let recs := m.records.filter (s.recordEnters m.records)
  let ents := m.entries.filter (s.entryEnters m.covered m.records)
  let last := lastRecord m.records m.entries
  let top := max m.highestSeq ((last.map (·.1)).getD 0)
  let s1 := { s with map := recs.flatMap (recordRuns d) ++ ents.map (entryRun d) ++ s.map.filter (fun (r : MapRun) => r.disc != d) }
  let s2 := if m.standing.isSome || !m.records.isEmpty || !m.entries.isEmpty then s1.seenSeq top else s1
  s2.modMount b (fun m => { m with
    highestSeq := top
    prevRec := last.map (fun (x : Nat × BitVec 5 × Nat) => (x.2.1, x.2.2))
    lastRec := m.records.foldl (fun v (r : RecordIn) => if h : slIndex r.sl < 24 then v.set (slIndex r.sl) (some (max (v[slIndex r.sl].getD 0) r.frame.toNat)) else v)
      m.lastRec })

/-! ### Stages (Table 11-4) -/

/-- An unload (R276): a writable disc has a generation appended first, and leaves once that is done; a read-only one leaves at once (R294);
during a mount the unload follows it (Table 11-8). -/
def State.unload (s : State) (b : BayId) : State :=
  match (s.mounts[b.val]).st with
  | .none => s.endMount b
  | .mounting => s.modMount b (fun m => { m with unloadAsked := true })
  | .mounted => s.modMount b (fun m => { m with unloadAsked := true, anchorDue := true })
  | .readOnly => s.endMount b

/-- The mount ends as mounted or read-only; an unload that waited follows (Table 11-8). -/
def State.mountEnds (s : State) (b : BayId) (st : MountState) : State :=
  let asked := (s.mounts[b.val]).unloadAsked
  let s1 := ((s.accrueMounted.modMount b (fun m => { m with st := st, stage := 0, unloadAsked := false })).logEv (srcBay b 1) .mount
    [(s.mounts[b.val]).generation]).eachHead b State.openRequests
  if asked then s1.unload b else s1

/-- The checkpoint that a lower generation names in place of one that cannot be read (R296). -/
def Mount.otherCheckpoint (m : Mount) : Option (BitVec 5 × Nat) × List AnchorIn :=
  match m.lower.dropWhile (fun a => a.ckptFrame == 0xFFFFFFFF || some (a.ckptSl, a.ckptFrame.toNat) == m.ckpt) with
  | [] => (none, [])
  | a :: r => (some (a.ckptSl, a.ckptFrame.toNat), r)

/-- High-water frames never fall. -/
def maxHigh (a : Vector Nat 24) (b : Vector (BitVec 32) 24) : Vector Nat 24 := Vector.ofFn (fun i : Fin 24 => max a[i.val] (b[i.val]).toNat)

/-- Stage 3 has chosen the standing generation. -/
def State.mountDecided (s : State) (b : BayId) : State :=
  let d := (s.mounts[b.val]).decide
  let s1 := s.modMount b (fun _ => { d with stage := 4 })
  if d.differ then (s1.flag .decode (DECODE.copies_differ b.val)).logEv (srcBay b 1) .mountDiffer [d.generation] else s1

/-- Stage 4: the checkpoint, or the one of a lower generation in place of one that cannot be read (R296). -/
def State.mountCheckpoint (s : State) (b : BayId) (readable : Bool) (covered : BitVec 64) (highWater : Vector (BitVec 32) 24)
    (entries : List CkptEntryIn) : State :=
  let o := (s.mounts[b.val]).otherCheckpoint
  if (s.mounts[b.val]).ckpt.isNone then s.modMount b (fun m => { m with stage := 5, covered := 0, entries := [] })
  else if readable then
    s.modMount b (fun m => { m with
      stage := 5, covered := covered.toNat, entries := entries, highWater := maxHigh m.highWater highWater })
  else if o.1.isSome then s.modMount b (fun m => { m with ckpt := o.1, lower := o.2 })
  else s.modMount b (fun m => { m with stage := 5, covered := 0, entries := [], ckpt := none })

/-- Stage 5: the records of the chain that the checkpoint does not cover. -/
def State.mountChain (s : State) (b : BayId) (records : List RecordIn) : State :=
  let m := s.mounts[b.val]
  let l := records.filter (fun x => decide (m.covered < x.seq.toNat) || m.ckpt.isNone)
  s.modMount b (fun m => { m with stage := 6, records := l, changed := !l.isEmpty, rolled := !l.isEmpty })

/-- Stage 6: the records found forward of the high-water frames (R298). -/
def State.mountForward (s : State) (b : BayId) (records : List RecordIn) (highWater : Vector (BitVec 32) 24) : State :=
  let m := s.mounts[b.val]
  let l := records.filter (fun x => decide (m.highestSeq < x.seq.toNat) || m.standing.isNone)
  let hw := maxHigh m.highWater highWater
  s.modMount b (fun m => { m with
    stage := 7, records := m.records ++ l, highWater := hw, rolled := m.rolled || !l.isEmpty
    changed := m.changed || !l.isEmpty || hw != m.highWater })

/-- Stage 7: the map takes what was found; a disc that needs a new generation goes on to stage 8. -/
def State.mountApplied (s : State) (b : BayId) : State :=
  match s.bays[b.val].disc with
  | none => s
  | some d =>
    let m := s.mounts[b.val]
    let s1 := s.accrueMounted.applyMount b d
    if m.roCause ≠ 0 then s1.mountEnds b .readOnly
    else if m.lacking || m.differ || m.changed then s1.modMount b (fun m => { m with stage := 8 })
    else s1.mountEnds b .mounted

/-- Stage 8: the generation is on the disc. -/
def State.mountAppended (s : State) (b : BayId) : State :=
  (s.modMount b (fun m => { m with
    generation := m.generation + 1, standing := some m.nextAnchor, sinceAnchor := 0, lacking := false })).mountEnds b .mounted

/-- The stage that a read belongs to. -/
def readStage : MountRead → Nat
  | .discId _ => 1
  | .anchors _ _ => 2
  | .decided => 3
  | .checkpoint _ _ _ _ => 4
  | .chain _ _ => 5
  | .forward _ _ => 6
  | .applied => 7
  | .appended => 8

/-- The stage that is under way takes what it read. -/
def State.mountRead (s : State) (b : BayId) (r : MountRead) : State :=
  match r with
  | .discId id => ((s.loadDisc id).modBay b (fun x => { x with disc := some id })).modMount b (fun m => { m with stage := 2 })
  | .anchors blank copies =>
    s.modMount b (fun m => { m with stage := 3, copies := copies, roCause := if !blank && copies.isEmpty then 3 else 0 })
  | .decided => s.mountDecided b
  | .checkpoint readable covered highWater entries => s.mountCheckpoint b readable covered highWater entries
  | .chain _ records => s.mountChain b records
  | .forward records highWater => s.mountForward b records highWater
  | .applied => s.mountApplied b
  | .appended => s.mountAppended b

/-- MOUNT_STAGE_DONE (Table 11-4). -/
def execMountStageDone (b : BayId) (r : MountRead) (s : State) : Host.Outcome State Fault Refusal :=
  if (s.mounts[b.val]).st ≠ .mounting ∨ (s.mounts[b.val]).stage ≠ readStage r then .next s else .next (s.mountRead b r)

/-- DISC_UNLOAD (R276, Table 11-8). -/
def execDiscUnload (b : BayId) (s : State) : Host.Outcome State Fault Refusal := .next (s.unload b)

end Sys2Proof.Machine
end

