-- ==== Sys2Proof/Machine/Dram.lean ====
section
/-! DEFINITION. The DRAM channels and memory protection (chapter 15): training, frequency switches, burst decoding, the CE table and marks,
channel freezes, diagnosis, resilver, scrub and row disturbance. -/

namespace Sys2Proof.Machine

def dayNs : Nat := 86400000000000

/-- The other channel serves, so that this one can freeze (R402). -/
def State.otherServes (s : State) (c : DramChan) : Bool := (s.dramCh (otherChan c)).st.serves

/-- The pools of a channel that keep one copy of each buffer (R357, Table 15-5). -/
def State.plainPools (s : State) (c : DramChan) : List (Fin 16) :=
  (List.finRange 16).filter (fun p => s.fld (.pool p) POOL.dual == 0 && addrChan (s.poolBase p) == c)

/-- Parts that wait on the pools of a channel that is ACTIVE again take their buffers (R362, Table 15-5). -/
def State.poolsBack (s : State) (c : DramChan) : State :=
  (s.plainPools c).foldl (fun t p => t.retryAll p t.poolWaits.length) s

/-! ### Training and frequency switches (R385, R386, R389) -/

/-- The timing set in force of a channel has no field that keeps the channel in OFF (Table 15-7). -/
def State.timingLoaded (s : State) (c : DramChan) : Bool :=
  let n := (s.dramCh c).set
  let b : Blk := .tset c (if n = 0 then 0 else 1)
  [TSET.cl n, TSET.trcd n, TSET.trp n, TSET.tras n, TSET.trfc, TSET.trefi].all (fun f => s.fld b f != 0)

/-- The power domain of a channel. -/
def chanPd : DramChan → Nat
  | .a => 13
  | .b => 14

/-- A channel enters TRAINING. -/
def State.beginTraining (s : State) (c : DramChan) : State := s.modDram c (fun x => { x with st := .training, attempts := 0 })

/-- DRAM_TRAIN (R407, Table 15-2): OFF, once its domain is on and its timing is loaded, or FAILED. -/
def execDramTrain (c : DramChan) (s : State) : Host.Outcome State Fault Refusal :=
  if !s.answers (.dramc c) then .next (s.absent (.dramc c) DRAMC.train.off) else
  let x := s.dramCh c
  if x.st = .failed ∨ (x.st = .off ∧ s.pdOn (chanPd c) = true ∧ s.timingLoaded c = true) then .next (s.beginTraining c)
  else .next s

/-- A channel becomes FAILED: logged, and reported on PF vector 0 (R386). -/
def State.chanFailed (s : State) (c : DramChan) (e : Ev) : State :=
  (s.modDram c (fun x => { x with st := .failed, rejoin := false })).logVec (srcDram c) e [] 1

/-- TRAINING_DONE (R383, R386, Table 15-2): a pass with the thresholds read, a further attempt, or FAILED after train_retry attempts. -/
def execTrainingDone (c : DramChan) (pass matchesConfig : Bool) (imt mmt : BitVec 12) (s : State) : Host.Outcome State Fault Refusal :=
  let x := s.dramCh c
  if x.st ≠ .training then .next s
  else if pass then
    let back := x.rejoin && s.otherServes c
    let s1 := s.modDram c (fun y => { y with
      st := if back then .resilver else .active
      attempts := 0, rejoin := false, fresh := [], imt := imt.toNat, mmt := mmt.toNat, mismatch := !matchesConfig })
    .next (if back then s1 else s1.poolsBack c)
  else
    let s1 := s.modDram c (fun y => { y with attempts := y.attempts + 1, mismatch := y.mismatch || !matchesConfig })
    if s.fld1 (.dramc c) DRAMC.train_retry ≤ x.attempts + 1 then .next (s1.chanFailed c .dramTrain) else .next s1

/-- DRAM_SWITCH (R389): refused while the other channel is not ACTIVE. -/
def execDramSwitch (c : DramChan) (s : State) : Host.Outcome State Fault Refusal :=
  if !s.answers (.dramc c) then .next (s.absent (.dramc c) DRAMC.switch.off) else
  if (s.dramCh (otherChan c)).st ≠ .active then .next (s.flag (.dramc c) DRAMC.switch_refused)
  else if (s.dramCh c).st = .active then .next (s.modDram c (fun x => { x with st := .switching }))
  else .next s

/-! ### What a freeze does to the data of its channel (Table 15-5) -/

/-- The pools that can serve parts now, for parts of the given sizes; a part with none keeps the pool that it would have (Table 15-5). -/
def State.poolsUp (s : State) (k : PartKind) (old : List (Fin 16)) (sizes : List Nat) : List (Fin 16) :=
  sizes.mapIdx (fun i n =>
    match ((List.finRange 16).filter (fun p => s.poolServes k n p && s.poolUp p)).foldl s.betterPool none with
    | some p => p
    | none => old.getD i 0)

/-- A READ's block is read again: a block that was taken from a write which has left the module is read from the disc. -/
def State.restartBlock (s : State) (c : Cmd) (i : Nat) (x : RBlock) : RBlock :=
  let src := match x.src with
    | .buffer w => if (s.cmd? w).isSome then x.src else s.mapPlace c.e.nsid (c.first + i)
    | y => y
  { x with src := src, lo := none, hi := none, tag := src.tag, asked := false, posted := false, data := none, failed := 0 }

/-- A READ whose buffers are gone starts again, with buffers of pools that serve (Table 15-5). -/
def State.restartRead (s : State) (id : Nat) : State :=
  match s.cmd? id with
  | none => s
  | some c =>
    let s1 := s.dropCodewords id
    let s2 := State.dropBufs { s1 with cipher := { s1.cipher with queue := s1.cipher.queue.filter (fun r => r.cmd != id) } } id
    if c.stage = .ended then s2
    else
      let parts := s2.poolsUp c.kind c.parts (partSizes (4096 * c.count))
      (s2.modCmd id (fun x => { x with
        stage := .held, charged := false, parts := parts, charge := s2.chargeOf parts
        blocks := x.blocks.mapIdx (fun i b => s2.restartBlock c i b) })).beginAlloc id

/-- A command whose data are lost ends with 0x02/0x03. -/
def State.loseCmd (s : State) (id : Nat) : State :=
  match s.cmd? id with
  | none => s
  | some c =>
    if c.stage = .ended then s
    else if c.isWrite then s.failWrite id (stat 2 3) 0 true
    else (s.dropCodewords id).finish id (stat 2 3) 0 0 true

/-- A command with data in a frozen channel alone: a READ starts anew, another is lost (Table 15-5). -/
def State.frozenCmd (s : State) (id : Nat) : State :=
  match s.cmd? id with
  | some x => if x.isRead then s.restartRead id else s.loseCmd id
  | none => s

/-- The buffers that lie in a channel alone. -/
def State.plainBufs (s : State) (pools : List (Fin 16)) : List Buf := s.bufs.filter (fun b => pools.contains b.ref.pool)

/-- The replay store or the runout store lies in a channel. -/
def storeIn (c : DramChan) (n : Nat) : Bool := Config.storeInB n == decide (c = .b)

/-- The stores that lie in a channel are empty. -/
def State.frozenStores (s : State) (c : DramChan) : State :=
  { s with
    replay := if storeIn c 0 then [] else s.replay
    runoutStore := if storeIn c 1 then [] else s.runoutStore }

/-- Everything that lay in a frozen channel alone is handled as Table 15-5 gives. -/
def State.frozenData (s : State) (c : DramChan) : State :=
  let pools := s.plainPools c
  let s1 := (((s.plainBufs pools).filterMap Buf.cmd).dedup).foldl State.frozenCmd s
  ((s1.plainBufs pools).foldl State.freeBuf s1).frozenStores c

/-- A freeze (R398, R400): the channel goes on to DIAGNOSE, or to FAILED once it has frozen more than freeze_limit times within 24 h; one that
was switching trains to the set that it was moving to (Table 15-6). -/
def State.freeze (s : State) (c : DramChan) : State :=
  let now := s.time.localNs
  let recent := (s.dramCh c).freezes.filter (fun t => decide (now < t + dayNs))
  let over_ := decide (s.fld .memprot MEMPROT.freeze_limit < recent.length)
  let s1 := s.modDram c (fun x => { x with
    st := if over_ then .failed else .diagnose
    set := if x.st = .switching then 1 - x.set else x.set
    freezes := now :: recent, fresh := [] })
  ((s1.incSat (.dramc c) DRAMC.freezes).frozenData c).logVec (srcDram c) .dramFreeze [recent.length] 1

/-- A channel state in which a trigger of R397 freezes the channel. -/
def DramState.canFreeze (x : DramState) : Bool := x.serves || x == .resilver

/-- SWITCH_DONE (R389, R397, R402): the shadow set is in force, and a training failure at self-refresh exit freezes the channel where the other
one serves. -/
def execSwitchDone (c : DramChan) (trainOk : Bool) (s : State) : Host.Outcome State Fault Refusal :=
  if (s.dramCh c).st ≠ .switching then .next s
  else if !trainOk && s.otherServes c then .next (s.freeze c)
  else .next ((s.modDram c (fun x => { x with st := .active, set := 1 - x.set })).incSat (.dramc c) DRAMC.switches)

/-- DEVICE_ALERT (R397, R402). -/
def execDeviceAlert (c : DramChan) (clearedByRetry : Bool) (s : State) : Host.Outcome State Fault Refusal :=
  if !clearedByRetry && (s.dramCh c).st.canFreeze && s.otherServes c then .next (s.freeze c) else .next s

/-! ### Lost bursts (R402) -/

/-- The queue contexts at an offset of REGION[0]: 64 bytes for each global SQ, then 32 for each global CQ (Table 14-1). -/
def State.loseContexts (s : State) (off : Nat) : State :=
  if off < 2 ^ 24 then
    match s.sqs.find? (fun x => s.fld (.func x.f) FUNC.base + x.q == off / 64) with
    | some x => if x.error then s else s.sqErrorWith x (stat 2 3)
    | none => s
  else
    let n := (off - 2 ^ 24) / 64
    (s.cqs.filter (fun x => (s.fld (.func x.f) FUNC.base + x.q) / 2 == n && !x.error)).foldl State.cqError s

/-- A command is for a disc: a READ of a block on it, a WRITE with an extent on it, a FLUSH that waits for its generation. -/
def State.usesDisc (s : State) (d : BitVec 128) (c : Cmd) : Bool :=
  c.blocks.any (fun x => x.data.isNone && (match x.src with
    | .disc e _ _ _ _ _ _ => e == d
    | _ => false))
  || s.extents.any (fun e => e.disc == d && e.runs.any (fun r => r.write == c.id))
  || c.anchors.contains d

/-- A lost map page: the outstanding commands of the disc end with 0x02/0x03, and the disc is mounted again (R402). -/
def State.loseMap (s : State) (b : BayId) : State :=
  match s.bays[b.val].disc with
  | none => s
  | some d =>
    if (s.mounts[b.val]).st = .none then s
    else
      let ids := (s.cmds.filter (fun c => c.stage != .ended && s.usesDisc d c && !c.isWrite)).map (·.id)
      let s1 := (s.extents.filter (fun e => e.disc == d)).foldl (fun t e => t.giveUp e (stat 2 3)) s
      (ids.foldl State.loseCmd s1).beginMount b d

/-- The allocated buffer that holds an address, and the offset within it. -/
def State.bufAt (s : State) (a : Nat) : Option (Buf × Nat) :=
  (s.bufs.find? (fun b => decide (s.bufAddr b.ref ≤ a) && decide (a < s.bufAddr b.ref + s.poolSize b.ref.pool))).map
    (fun b => (b, a - s.bufAddr b.ref))

/-- A lost burst of a command's data: a READ's block fails, and a WRITE's extent is given up with 0x02/0x03 (R402, Table 15-5). -/
def State.loseBlock (s : State) (c : Cmd) (i : Nat) : State :=
  if c.isRead then (s.modBlock c.id i (fun x => { x with failed := stat 2 3 })).readCheck c.id
  else if !c.isWrite || c.stage == .ended then s
  else match s.extents.find? (fun e => e.runs.any (fun r => r.write == c.id && decide (r.first ≤ i) && decide (i < r.first + r.count))) with
    | some e => s.giveUp e (stat 2 3)
    | none => if c.placed then s else s.failWrite c.id (stat 2 3) i true

/-- A lost burst that a buffer holds: the block that it carried is lost. -/
def State.loseBufBurst (s : State) (a : Nat) : State :=
  match s.bufAt a with
  | none => s
  | some (b, off) =>
    match b.cmd.bind s.cmd? with
    | none => s
    | some c => s.loseBlock c (1024 * c.bufs.idxOf b.ref + off / 4096)

/-- A lost line of REGION[1]: the map of its bay is read again. -/
def State.losePage (s : State) (a : Nat) : State :=
  match Config.mapPageBay ((a - s.regionBase 1) / 64) with
  | some b => s.loseMap b
  | none => s

/-- The data of a lost burst (R402): a queue context, a map page, a key-slot record, or a command's data. -/
def State.loseBurst (s : State) (a : Nat) : State :=
  if s.regionOf a = some 0 then s.loseContexts (a - s.regionBase 0)
  else if s.regionOf a = some 1 then s.losePage a
  else if s.regionOf a = some 2 then s.slotLost ((a - s.regionBase 2) / 128)
  else s.loseBufBurst a

/-- The address in channel A of a byte of mirrored data, and any other address itself (R397). -/
def State.homeAddr (s : State) (a : Nat) : Nat := if 2 ^ 36 ≤ a ∧ s.mirrored (a - 2 ^ 36) 64 = true then a - 2 ^ 36 else a

/-- The other channel, in RESILVER, holds a burst as written since (R402). -/
def State.otherHas (s : State) (a : Nat) : Bool :=
  let c := addrChan a
  let home := s.homeAddr a
  s.mirrored home 64 && (s.dramCh (otherChan c)).st == .resilver
    && (s.dramCh (otherChan c)).fresh.contains ((if c = .a then home + 2 ^ 36 else home) / 64)

/-! ### Burst codes, the CE table and marks (R394, R395, R404, R405) -/

/-- The rank of a burst within its channel: 2 × subchannel + rank (R384). -/
def State.rankOf (s : State) (a : Nat) : Nat :=
  let b := Blk.dramc (addrChan a)
  let bit := if s.fld b DRAMC.width = 0 then 19 else 18
  2 * (a / 64 % 2) + (if s.fld b DRAMC.ranks = 1 then a / 2 ^ bit % 2 else 0)

def markKey (c : DramChan) (rank : Nat) : Nat := 4 * (chanIx c).val + rank

/-- Bytes in error by device, of the devices that the channel has. -/
def devErrors (x8 : Bool) (e : BurstErrors) : List (Nat × Nat) :=
  ((List.range (if x8 then 5 else 10)).map (fun d =>
    (d, min (if x8 then 16 else 8) ((e.perDevice.filter (fun p => p.1.val == d)).map (·.2.toNat)).sum))).filter (fun p => p.2 != 0)

/-- How a burst decodes (R395). -/
inductive BurstVerdict
  | clean
  | corrected (devs : List (Nat × Nat))     -- devices outside the mark with their bytes in error
  | lost
deriving DecidableEq, Repr

def judgeErrors (devs : List (Nat × Nat)) (limit : Nat) : BurstVerdict :=
  let n := (devs.map (·.2)).sum
  if n = 0 then .clean else if n ≤ limit then .corrected devs else .lost

/-- The verdict on a burst: up to 8 bytes anywhere, or, with a device marked as erasures, up to 4 further bytes (x4) or none (x8). -/
def State.judgeBurst (s : State) (a : Nat) (e : BurstErrors) : BurstVerdict :=
  let x8 : Bool := s.fld (.dramc (addrChan a)) DRAMC.width == 1
  match Tab.get? s.marks (markKey (addrChan a) (s.rankOf a)) with
  | none => judgeErrors (devErrors x8 e) 8
  | some m => judgeErrors ((devErrors x8 e).filter (fun p => p.1 != m)) (if x8 then 0 else 4)

/-- The entry that a new address replaces in a full table: the lowest count, then the oldest time (R404). -/
def worseEntry (a b : CeEntry) : Bool := decide (b.count < a.count) || (a.count == b.count && decide (b.time.toNat < a.time.toNat))

def evictIx : List CeEntry → Nat
  | [] => 0
  | x :: r =>
    match r with
    | [] => 0
    | _ =>
      let i := evictIx r
      match r[i]? with
      | some y => if worseEntry x y then i + 1 else 0
      | none => 0

/-- A correctable error in the CE table (R404). -/
def ceAdd (l : List CeEntry) (x : CeEntry) : List CeEntry :=
  if l.any (fun y => y.addr == x.addr && y.sram == x.sram && y.source == x.source) then
    l.map (fun y => if y.addr = x.addr ∧ y.sram = x.sram ∧ y.source = x.source then
      { y with count := min 65535 (y.count + 1), time := x.time } else y)
  else if l.length < 32 then l ++ [x]
  else l.set (evictIx l) x

/-- A device is marked: logged, and recorded in the NV image (R400, R405). -/
def State.markDevice (s : State) (c : DramChan) (rank device : Nat) : State :=
  State.logEv { s with
    marks := Tab.put s.marks (markKey c rank) device
    devErrs := s.devErrs.filter (fun (x : DevErr) => !(x.chan == c && x.rank == rank))
    nv := { s.nv with dueOwned := true } } (srcDram c) .mark [rank, device]

/-- Different bursts with errors of one device within 24 h. -/
def State.devBursts (s : State) (c : DramChan) (rank device : Nat) : Nat :=
  ((s.devErrs.filter (fun x => x.chan == c && x.rank == rank && x.device == device && decide (s.time.localNs < x.at_ + dayNs))).map
    (·.burst)).dedup.length

/-- A correctable error is attributed to a device of a rank with no mark; dev_thr different bursts within 24 h mark it (R405). -/
def State.blameDevice (s : State) (a device : Nat) : State :=
  let c := addrChan a
  let rank := s.rankOf a
  if (Tab.get? s.marks (markKey c rank)).isSome then s
  else
    let l := s.devErrs.filter (fun (x : DevErr) => decide (s.time.localNs < x.at_ + dayNs))
    let s1 := { s with devErrs := ⟨c, rank, device, a / 64, s.time.localNs⟩ :: l }
    if s.fld1 .memprot MEMPROT.dev_thr ≤ s1.devBursts c rank device then s1.markDevice c rank device else s1

/-- A correctable burst: the counter, the table and the devices (R404, R405). -/
def State.correctable (s : State) (a : Nat) (devs : List (Nat × Nat)) : State :=
  let x : CeEntry := ⟨a / 64 * 64, false, 0, (devs.map (fun p => 2 ^ p.1)).sum, (devs.map (·.2)).sum, 1, s.now⟩
  let s1 := (s.incSat .memprot MEMPROT.CE_DRAM_count).logEv (srcDram (addrChan a)) .ce [a]
  (devs.map (·.1)).foldl (fun t d => t.blameDevice a d) { s1 with ceTable := ceAdd s1.ceTable x }

/-- An uncorrectable burst: the counter, the log, and a freeze, or, where the other channel does not serve, the loss of the burst (R397,
R402). -/
def State.uncorrectable (s : State) (a : Nat) : State :=
  let c := addrChan a
  let s1 := (s.incSat .memprot MEMPROT.UE_DRAM_count).logEv (srcDram c) .ue [a]
  if s1.otherServes c then s1.freeze c
  else if s1.otherHas a then s1
  else s1.loseBurst (s1.homeAddr a)

/-- A burst is read and decoded. -/
def State.readBurst (s : State) (a : Nat) (e : BurstErrors) : State :=
  match s.judgeBurst a e with
  | .clean => s
  | .corrected devs => s.correctable a devs
  | .lost => s.uncorrectable a

/-- DRAM_BURST_READ (R384, R395): an access to a hole is a violation; a channel that serves reads the burst. -/
def execDramBurstRead (addr : BitVec 37) (errs : BurstErrors) (s : State) : Host.Outcome State Fault Refusal :=
  let a := addr.toNat
  if s.hole a then .next (s.violation (srcDram (addrChan a)) 4 (a % 2 ^ 32))
  else if (s.dramCh (addrChan a)).st.serves then .next (s.readBurst a errs)
  else .next s

/-! ### Diagnosis and resilver (R400, R401) -/

/-- DIAGNOSE_DONE (R400). -/
def execDiagnoseDone (c : DramChan) (r : DiagResult) (s : State) : Host.Outcome State Fault Refusal :=
  if (s.dramCh c).st ≠ .diagnose then .next s
  else
    let again (t : State) : State := (t.modDram c (fun x => { x with st := .resilver, fresh := [] })).logEv (srcDram c) .dramDiag [0]
    match r with
    | .clean => .next (again s)
    | .oneDevice sub rank device =>
      let k := 2 * sub.val + rank.val
      if (Tab.get? s.marks (markKey c k)).isSome then .next (s.chanFailed c .dramDiag)
      else .next (again (s.markDevice c k device.val))
    | .other => .next (s.chanFailed c .dramDiag)

/-- The mirrored ranges, by their start in channel A and their length in bytes (R397). -/
def State.mirrorRanges (s : State) : List (Nat × Nat) :=
  ((List.finRange 8).map (fun i => (s.fld (.mirror i) MIRROR.base * 65536, s.fld (.mirror i) MIRROR.size * 65536))
    ++ ((List.finRange 16).filter (fun p => s.fld (.pool p) POOL.dual == 1)).map
      (fun p => (s.poolBase p, s.poolBytes p))).filter (fun r => r.2 != 0)

/-- An offset within the channels is mirrored. -/
def State.mirroredOff (s : State) (o : Nat) : Bool := s.mirrorRanges.any (fun r => decide (r.1 ≤ o) && decide (o < r.1 + r.2))

/-- The address of the other copy of a byte of mirrored data. -/
def twinAddr (a : Nat) : Nat := if a < 2 ^ 36 then a + 2 ^ 36 else a - 2 ^ 36

/-- The mirrored bytes that a channel takes from the other: those outside the bursts written since RESILVER began. -/
def State.copiedCells (s : State) (c : DramChan) : List Host.Cell :=
  (s.dram.filter (fun x => addrChan x.1 != c && s.mirroredOff (dramOffset x.1) && !(s.dramCh c).fresh.contains (twinAddr x.1 / 64))).map
    (fun x => (twinAddr x.1, x.2))

/-- The DRAM once a channel has been resilvered: its mirrored bytes are those of the other channel but for the bursts written since, and the
rest of it holds nothing (R401). -/
def State.resilvered (s : State) (c : DramChan) : List Host.Cell :=
  let base := s.dram.filter (fun x => addrChan x.1 != c || (s.mirroredOff (dramOffset x.1) && (s.dramCh c).fresh.contains (x.1 / 64)))
  (s.copiedCells c).foldl (fun m x => memWrite m x.1 [x.2]) base

/-- RESILVER_DONE (R401): the channel is ACTIVE, with both copies equal. -/
def execResilverDone (c : DramChan) (s : State) : Host.Outcome State Fault Refusal :=
  if (s.dramCh c).st ≠ .resilver then .next s
  else
    let s1 := State.modDram { s with dram := s.resilvered c } c (fun x => { x with st := .active, fresh := [] })
    let mib := (s.mirrorRanges.map (·.2)).sum / 2 ^ 20
    .next ((s1.setSta (.dramc c) DRAMC.copied mib).poolsBack c)

/-! ### Scrub (R403, R404) -/

/-- The next burst of the scrubber: of the channels that it does not skip, the one less far in the pass (R403). -/
def State.scrubNext (s : State) : Option DramChan :=
  let due (c : DramChan) : Bool :=
    ((s.dramCh c).st == .active || (s.dramCh c).st == .resilver) && decide (64 * (s.dramCh c).scrubPos < s.chanBytes c)
  if due .a && (!due .b || decide ((s.dramCh .a).scrubPos ≤ (s.dramCh .b).scrubPos)) then some .a
  else if due .b then some .b
  else none

/-- A DRAM pass ends when every burst of both channels has been read. -/
def State.scrubWrap (s : State) : State :=
  let done_ (c : DramChan) : Bool := decide (s.chanBytes c ≤ 64 * (s.dramCh c).scrubPos)
  if done_ .a && done_ .b then
    ((s.modDram .a (fun x => { x with scrubPos := 0 })).modDram .b (fun x => { x with scrubPos := 0 })).incSat .memprot MEMPROT.dram_passes
  else s

/-- An SRAM word read by the scrubber (R393, R404): an uncorrectable one puts its bank under test (R493). -/
def State.scrubSram (s : State) (bits : Nat) (source : BitVec 16) : State :=
  let pos := s.sramPos
  let s1 := if Config.sramWords ≤ pos + 1 then State.incSat { s with sramPos := 0 } .memprot MEMPROT.sram_passes
    else { s with sramPos := pos + 1 }
  if bits = 0 then s1
  else if bits = 1 then
    let x : CeEntry := ⟨pos, true, source, 0, (Config.sramSyndrome s1.free).toNat, 1, s1.now⟩
    let s2 := (s1.incSat .memprot MEMPROT.CE_SRAM_count).logEv source .ce [pos]
    { s2 with ceTable := ceAdd s2.ceTable x, free := s2.free + 1 }
  else
    let s2 := (s1.incSat .memprot MEMPROT.UE_SRAM_count).logEv source .ue [pos]
    let e := s2.resError source
    let v := if e.1 || Tab.get 0 s.srams source.toNat != 0 then 2 else 1
    let s3 := { e.2 with srams := Tab.put e.2.srams source.toNat v }
    if v = 2 ∧ Tab.get 0 s.srams source.toNat ≠ 2 then s3.testOutcome source false else s3

/-- SCRUB_INTERVAL (R403): the next burst, or the next SRAM word. -/
def execScrubInterval (sram : Bool) (errs : BurstErrors) (sramBits : Fin 3) (source : BitVec 16) (s : State) : Host.Outcome State Fault Refusal :=
  if s.fld .memprot MEMPROT.scrub_enable = 0 then .next s
  else if sram then .next (s.scrubSram sramBits.val source)
  else match s.scrubNext with
    | none => .next s
    | some c =>
      let a := 64 * (s.dramCh c).scrubPos + (if c = .a then 0 else 2 ^ 36)
      let s1 := (s.modDram c (fun x => { x with scrubPos := x.scrubPos + 1 })).scrubWrap
      .next (s1.readBurst a errs)

/-! ### Row disturbance (R390–R392) -/

/-- The class with the most activations, of the classes above 0; the lowest of equals (R392). -/
def topClass (acts : Vector (BitVec 12) 5) : Nat × Nat :=
  (List.range 4).foldl (fun a i => let n := (acts.toList.getD (i + 1) 0).toNat; if a.2 < n then (i + 1, n) else a) (0, 0)

/-- TREFI_WINDOW (R390–R392): a bank's refresh-management commands of the window, the refresh that ends it, and the throttle of the class that
activated most where the bank exceeded act_thr. -/
def execTrefiWindow (c : DramChan) (bank : BitVec 6) (acts : Vector (BitVec 12) 5) (s : State) : Host.Outcome State Fault Refusal :=
  let x := s.dramCh c
  if !x.st.serves && x.st != .resilver then .next s
  else
    let b := bank.toNat
    let n := (acts.toList.map (·.toNat)).sum
    let raa := Tab.get 0 x.raa b + n
    let rfm := if x.imt = 0 then 0 else raa / x.imt
    let left := if x.imt = 0 then raa else raa % x.imt - x.imt
    let older := (x.throttles.map (fun (t : Throttle) => if t.bank = b then { t with windows := t.windows - 1 } else t)).filter
      (fun (t : Throttle) => t.windows != 0)
    let top := topClass acts
    let hit := decide (s.fld (.dramc c) DRAMC.act_thr < n) && top.2 != 0
    let new := if hit then
        (⟨b, top.1, s.fld (.dramc c) DRAMC.throttle_windows⟩ : Throttle) :: older.filter (fun (t : Throttle) => !(t.bank == b && t.cls == top.1))
      else older
    let s1 := (s.modDram c (fun y => { y with raa := Tab.set 0 y.raa b left, throttles := new.filter (fun (t : Throttle) => t.windows != 0) })).addSat
      (.dramc c) DRAMC.rfm_issued rfm
    if hit then
      .next (((s1.flag (.dramc c) DRAMC.throttled).incSat (.dramc c) DRAMC.events).logEv (srcDram c) .throttle [b, top.1])
    else .next s1

/-! ### Clears -/

/-- MARK_CLEAR (R405). -/
def execMarkClear (c : DramChan) (sub rank : Fin 2) (s : State) : Host.Outcome State Fault Refusal :=
  if !s.answers .memprot then .next (s.absent .memprot (if c = .a then 0x20 else 0x24)) else
  .next { s with marks := Tab.erase s.marks (markKey c (2 * sub.val + rank.val)), nv := { s.nv with dueOwned := true } }

/-- CE_CLEAR_TABLE (R408). -/
def execCeClearTable (s : State) : Host.Outcome State Fault Refusal :=
  if !s.answers .memprot then .next (s.absent .memprot MEMPROT.clear_table.off) else
  .next { s with ceTable := [] }

/-- DRAMC_CLEAR_STATS (R407). -/
def execDramcClearStats (c : DramChan) (s : State) : Host.Outcome State Fault Refusal :=
  if !s.answers (.dramc c) then .next (s.absent (.dramc c) DRAMC.clear_stats.off) else
  .next ([DRAMC.freezes, DRAMC.switches, DRAMC.rfm_issued, DRAMC.events].foldl (fun t f => t.setSta (.dramc c) f 0) s)

/-- MEMPROT_CLEAR_STATS (R408). -/
def execMemprotClearStats (s : State) : Host.Outcome State Fault Refusal :=
  if !s.answers .memprot then .next (s.absent .memprot MEMPROT.clear_stats.off) else
  .next ([MEMPROT.dram_passes, MEMPROT.sram_passes, MEMPROT.CE_DRAM_count, MEMPROT.CE_SRAM_count, MEMPROT.UE_DRAM_count,
    MEMPROT.UE_SRAM_count].foldl (fun t f => t.setSta .memprot f 0) s)

/-! ### Power domains PD13 and PD14 (R446, Table 15-6) -/

/-- The domain of a channel switches off: what lay in it alone is handled as in a freeze, and it trains and resilvers when it comes back. -/
def State.dramOff (s : State) (c : DramChan) : State :=
  let x := s.dramCh c
  if x.st = .off then s
  else
    let s1 := s.modDram c (fun y => { y with st := .off, rejoin := y.rejoin || y.st.canFreeze, fresh := [], attempts := 0 })
    let s2 := s1.frozenData c
    { s2 with dram := s2.dram.filter (fun (y : Host.Cell) => addrChan y.1 != c) }

/-- The domain of a channel comes on: the channel trains once its timing is loaded (Table 15-2). -/
def State.dramOn (s : State) (c : DramChan) : State :=
  if (s.dramCh c).st = .off ∧ s.timingLoaded c = true then s.beginTraining c else s

end Sys2Proof.Machine
end

