-- ==== Sys2Proof/Machine/Chain.lean ====
section
/-! DEFINITION. The chain port's traffic (R430, R431, R433–R440): windows, mirror writes at both ends, requests, and the timebase along the chain. -/

namespace Sys2Proof.Machine

/-! ### Windows (R433, R434) -/

/-- A window set: every field as read by `f`, committed or shadow. -/
structure WinSet where
  enable : Bool
  src : Nat
  read : Bool
  write : Bool
  mirror : Bool
  base : Nat                -- chain address
  size : Nat                -- bytes
  dram : Nat                -- DRAM address
deriving DecidableEq, Repr

def winSet (f : Field → Nat) : WinSet :=
  { enable := f WIN.enable == 1, src := f WIN.src_id, read := f WIN.read == 1, write := f WIN.write == 1, mirror := f WIN.mirror == 1
    base := f WIN.chain_base_hi * 2 ^ 32 + f WIN.chain_base_lo, size := f WIN.size * 4096
    dram := f WIN.local_base_hi * 2 ^ 32 + f WIN.local_base_lo * 4096 }

/-- The committed set of a window. -/
def State.window (s : State) (w : Fin 64) : WinSet := winSet (s.act (.win w))

/-- A span from a source hits a window. -/
def WinSet.hit (w : WinSet) (source a n : Nat) : Bool :=
  w.enable && (w.src == source || w.src == 0xFFFF) && decide (w.base ≤ a) && decide (a + n ≤ w.base + w.size)

/-- The lowest window that a span hits. -/
def State.windowFor (s : State) (source a n : Nat) : Option WinSet :=
  ((List.finRange 64).find? (fun w => (s.window w).hit source a n)).map s.window

/-- The local address of a chain address in a window. -/
def WinSet.localAddr (w : WinSet) (a : Nat) : Nat := w.dram + (a - w.base)

/-- A miss: ERROR_RESP with status 1, MISS_ADDR, the flag and the violation (R434, R495). -/
def State.windowMiss (s : State) (p : PacketIn) : State :=
  let a := p.address.toNat
  let s1 := (((s.setSta .chain CHAIN.addr (a % 2 ^ 32)).setSta .chain CHAIN.addr_hi (a / 2 ^ 32)).setSta .chain CHAIN.source p.source.toNat).flag
    .chain CHAIN.window_miss
  s1.violation srcChain 6 (a % 2 ^ 32)

/-- A response to a packet. -/
def State.respond (s : State) (p : PacketIn) (type status flags : Nat) (payload : List Byte) : State :=
  (s.sendTo ⟨type, flags, p.source.toNat, s.moduleId, 0, p.tag.toNat, status, 0, payload⟩).2

/-- DRAM at an address is served now: by its channel, or by either for mirrored data (R397, Table 15-5). -/
def State.served? (s : State) (a n : Nat) : Bool :=
  (s.dramCh (addrChan (s.serveAt a n))).st.serves

/-- CHAIN_WRITE (R433, R434): through a window that permits writes, answered by WRITE_ACK. -/
def execChainWrite (p : PacketIn) (s : State) : Host.Outcome State Fault Refusal :=
  .next (s.receive p 0x01 (fun t =>
    match t.windowFor p.source.toNat p.address.toNat p.payload.length with
    | none => (t.windowMiss p).respond p 0x3F 1 1 []
    | some w =>
      if !w.write then t.respond p 0x04 2 1 []
      else
        let a := w.localAddr p.address.toNat
        if t.served? a p.payload.length then (t.store a p.payload).respond p 0x04 0 1 []
        else t.respond p 0x04 3 1 []))

/-- Bytes cut into pieces of n, for at most k of them. -/
def pieces (n : Nat) : Nat → List Byte → List (List Byte)
  | 0, _ => []
  | k + 1, l => if l.length ≤ n then [l] else l.take n :: pieces n k (l.drop n)

/-- READ_REQ (R433, R434): through a window that permits reads, answered by READ_RESP packets of up to 512 bytes. -/
def execReadReq (p : PacketIn) (length : BitVec 16) (s : State) : Host.Outcome State Fault Refusal :=
  .next (s.receive p 0x02 (fun t =>
    let n := length.toNat
    match t.windowFor p.source.toNat p.address.toNat n with
    | none => (t.windowMiss p).respond p 0x3F 1 1 []
    | some w =>
      if !w.read then t.respond p 0x03 2 1 []
      else
        let a := w.localAddr p.address.toNat
        if t.served? a n then
          let l := pieces 512 (n / 512 + 1) (t.load a n)
          (l.mapIdx (fun i d => (i, d))).foldl (fun u x => u.respond p 0x03 0 (b2n (x.1 + 1 == l.length)) x.2) t
        else t.respond p 0x03 3 1 []))

/-! ### The CHAIN group (R434) -/

/-- A window's range of the set to be committed crosses no hole and no context-cache region. -/
def State.winRangeOk (s : State) (w : WinSet) : Bool :=
  w.size == 0 || (s.fitted w.dram w.size &&
    !(List.finRange 3).any (fun i => rangesMeet w.dram w.size (s.regionBase i) (64 * s.fld (.region i) REGION.lines)))

/-- A mirror window lies wholly in one enabled pool with both copies, count release and use chain port. -/
def State.mirrorPoolOk (s : State) (w : WinSet) : Bool :=
  !w.mirror || (List.finRange 16).any (fun p =>
    s.fld (.pool p) POOL.enable == 1 && s.fld (.pool p) POOL.dual == 1 && s.fld (.pool p) POOL.release == 1
      && bitOf (s.fld (.pool p) POOL.use_mask) 2 && decide (s.poolBase p ≤ w.dram) && decide (w.dram + w.size ≤ s.poolBase p + s.poolBytes p))

/-- The commit check of R434. -/
def State.chainOk (s : State) : Bool :=
  (List.finRange 64).all (fun w => let x := winSet (s.fld (.win w)); s.winRangeOk x && s.mirrorPoolOk x)

def tagChain : Nat := 0x0900

/-- The CHAIN group's pending set is adopted, and EPOCH increases (R434). -/
def State.adoptChain (s : State) : State :=
  if s.pendingSet tagChain then (s.adopt tagChain).modChain (fun c => { c with epoch := (c.epoch + 1) % 256 }) else s

/-- A CHAIN commit is adopted at once, since every packet that has arrived is complete (R434); while PD17 is off, when it comes on (R504). -/
def State.commitChain (s : State) : State :=
  let s1 := s.commitWith tagChain s.chainOk srcChain (some (.chain, CHAIN.commit_error))
  if s.chainOk && s.pdOn 17 then s1.adoptChain else s1

/-- CHAIN_COMMIT (R434). -/
def execChainCommit (s : State) : Host.Outcome State Fault Refusal :=
  if !s.answers .chain then .next (s.absent .chain CHAIN.go.off) else
  .next s.commitChain

/-! ### Requests of the module (R430, R431, R434) -/

/-- A response ends an outstanding request of its tag; one with a bad status ends its command as a request that failed. -/
def State.endRequest (s : State) (tag : Nat) (ok : Bool) : State :=
  match s.chain.reqs.find? (fun r => r.tag == tag) with
  | none => s
  | some r =>
    let s1 := s.modChain (fun c => { c with reqs := c.reqs.filter (fun x => x.tag != tag) })
    match r.cmd with
    | some id => if ok then s1 else s1.failCmd id 4 1
    | none => s1

/-- READ_RESP (R431): the last packet ends the request. -/
def execReadResp (p : PacketIn) (s : State) : Host.Outcome State Fault Refusal :=
  .next (s.receive p 0x03 (fun t => if p.flags.getLsbD 0 ∨ p.status ≠ 0 then t.endRequest p.tag.toNat (p.status == 0) else t))

/-- WRITE_ACK (R431). -/
def execWriteAck (p : PacketIn) (s : State) : Host.Outcome State Fault Refusal :=
  .next (s.receive p 0x04 (fun t => t.endRequest p.tag.toNat (p.status == 0)))

/-- ERROR_RESP (R434). -/
def execErrorResp (p : PacketIn) (s : State) : Host.Outcome State Fault Refusal :=
  .next (s.receive p 0x3F (fun t => t.endRequest p.tag.toNat false))

/-- REQ_TIMEOUT (R430): the request fails with 0x04/0x01. -/
def execReqTimeout (tag : BitVec 16) (s : State) : Host.Outcome State Fault Refusal := .next (s.endRequest tag.toNat false)

/-! ### Mirror writes at the origin (R436, R438) -/

/-- The buffer's count for the chain's copy is released (R367). -/
def State.releaseCopy (s : State) (m : MirrorMsg) : State :=
  match m.buf.bind s.bufAt with
  | some (b, _) => (s.releaseBuf b.ref .chain).getD s
  | none => s

/-- An outcome that is not success is logged. -/
def State.logMirror (s : State) (m : MirrorMsg) (status : Nat) : State :=
  if status = 0 then s else s.logEv srcChain .mirrorFault [m.num, status]

/-- A message's outcome is decided: the first that is not success stands for its write (R438, Table 17-4). -/
def State.messageOutcome (s : State) (m : MirrorMsg) (status : Nat) : State :=
  if m.done then s
  else
    (((s.releaseCopy m).modCmd m.cmd (fun c => { c with
      mirrorLeft := c.mirrorLeft - 1
      mirrorStatus := if c.mirrorStatus = 0 then status else c.mirrorStatus })).logMirror m status).settleWrite m.cmd
/-- The descriptor of Table 17-3. -/
def mirrorDescriptor (num : Nat) (c : Cmd) (first count : Nat) : List Byte :=
  leBytes 8 num ++ leBytes 4 c.e.nsid.toNat ++ leBytes 4 c.keyTag.toNat ++ leBytes 8 first ++ leBytes 4 count ++ leBytes 4 (4096 * count)

/-- The packets of a message: the first starts with the descriptor, and each goes to the address of its data in the slot (R436; log
entry 31). -/
def State.mirrorPackets (s : State) (m : MirrorMsg) (slot : Nat) (c : Cmd) : List Packet :=
  let first := 1024 * m.part
  let count := min 1024 (c.count - first)
  let data := match c.bufs[m.part]? with
    | some r => s.load (s.bufAddr r) (4096 * count)
    | none => List.replicate (4096 * count) 0
  let at_ := m.base + slot * 4194304
  let pkt (flags off : Nat) (l : List Byte) : Packet := ⟨0x05, flags, m.peer, s.moduleId, 0, 0, 0, at_ + off, l⟩
  let rest := pieces 512 8193 (data.drop 480)
  pkt 0 0 (mirrorDescriptor m.num c (c.first + first) count ++ data.take 480)
    :: rest.mapIdx (fun i d => pkt (b2n (i + 1 == rest.length)) (480 + 512 * i) d)

/-- The lowest slot of a peer's window that no message of the module uses (R436). -/
def State.freeSlot (s : State) (m : MirrorMsg) : Option Nat :=
  (List.range m.slots).find? (fun n => !s.chain.msgs.any (fun x => x.peer == m.peer && x.base == m.base && x.slot == some n))

/-- The message of an entry that is due: the lowest-numbered one not yet sent (R436, R437). -/
def State.nextMessage (s : State) (e : Nat) : Option MirrorMsg := s.chain.msgs.find? (fun m => m.entry == e && m.slot.isNone)

/-- A message is sent in a slot: its buffer gains a count, and its packets go (R367, R436). -/
def State.sendMessage (s : State) (m : MirrorMsg) (slot : Nat) (c : Cmd) : State :=
  let addr := (c.bufs[m.part]?).map s.bufAddr
  let s1 := s.modChain (fun x => { x with msgs := x.msgs.map (fun (y : MirrorMsg) => if y.num = m.num then { y with slot := some slot, buf := addr } else y) })
  let s2 := { s1 with bufs := s1.bufs.map (fun (b : Buf) => if c.bufs[m.part]? = some b.ref then { b with count := b.count + 1 } else b) }
  (s.mirrorPackets m slot c).foldl (fun t p => (t.sendTo p).2) s2
/-- MIRROR_MESSAGE_SEND (R436, R438): the due message of an entry is sent once its data are all in DRAM and a slot is free; with no route to the
peer its outcome is 0x04/0x01. -/
def execMirrorMessageSend (m : Fin 64) (s : State) : Host.Outcome State Fault Refusal :=
  match s.nextMessage m.val with
  | none => .next s
  | some x =>
    let drop (t : State) : State := t.modChain (fun c => { c with msgs := c.msgs.filter (fun y => y.num != x.num) })
    match s.cmd? x.cmd with
    | none => .next (drop s)
    | some c =>
      if c.stage = .ended then .next (drop s)
      else if c.stage ≠ .dataIn then .next s
      else if s.chain.dupId || (s.route x.peer).isNone then .next ((drop s).messageOutcome x (stat 4 1))
      else match s.freeSlot x with
        | none => .next s
        | some n => .next (s.sendMessage x n c)

/-- The status that a MIRROR_DONE gives the write (Table 17-4). -/
def doneStatus (status : Nat) : Nat := if status = 0 then 0 else if status = 5 then stat 4 2 else stat 4 3

/-- MIRROR_DONE (R437, R438): the slot is free, and the message has its outcome. -/
def execMirrorDone (p : PacketIn) (s : State) : Host.Outcome State Fault Refusal :=
  .next (s.receive p 0x06 (fun t =>
    match t.chain.msgs.find? (fun m => m.num == ofLe (p.payload.take 8) && m.peer == p.source.toNat && m.slot.isSome) with
    | none => t
    | some m =>
      (t.modChain (fun c => { c with msgs := c.msgs.filter (fun y => y.num != m.num) })).messageOutcome m (doneStatus p.status.toNat)))

/-- MIRROR_TIMEOUT (R438): the outcome is 0x04/0x01; the slot of a message that was sent stays in use until its MIRROR_DONE. -/
def execMirrorTimeout (msg : BitVec 64) (s : State) : Host.Outcome State Fault Refusal :=
  match s.chain.msgs.find? (fun m => m.num == msg.toNat && !m.done) with
  | none => .next s
  | some m =>
    let s1 := s.modChain (fun c => { c with
      msgs := if m.slot.isSome then c.msgs.map (fun (y : MirrorMsg) => if y.num = m.num then { y with done := true } else y)
        else c.msgs.filter (fun y => y.num != m.num) })
    .next (s1.messageOutcome m (stat 4 1))

/-! ### Mirror writes at the peer (R437) -/

/-- The answer to a message stands, and is sent (R437). -/
def State.answer (s : State) (m : PeerMsg) (status : Nat) : State :=
  (s.modChain (fun c => { c with peers := c.peers.map (fun y =>
    if y.origin = m.origin ∧ y.num = m.num then { y with answer := some status, whole := true, got := [] } else y) })).sendMirrorDone m.origin m.num m.slot
    status

/-- A message's namespace and key tag match (R436, R437). -/
def State.peerMatches (s : State) (m : PeerMsg) : Bool :=
  s.nss.any (fun n => n.nsid == m.nsid && (s.slot n.slot).tag == m.keyTag)

/-- The entry under which a message is recorded. -/
def peerEntry (m : PeerMsg) : EntryIn :=
  { opcode := 2, flags := 0, cid := 0, nsid := m.nsid, slba := BitVec.ofNat 64 m.first, nlbM1 := BitVec.ofNat 32 (m.count - 1), reserved := 0
    dataAddr := 0, ndesc := 0, spec := Vector.replicate 28 0, descriptors := [], buffer := [] }

/-- A message becomes a write of requester 2,049 whose data wait for buffers (R355, R437). -/
def State.takeMessage (s : State) (m : PeerMsg) : State :=
  if !s.peerMatches m then s.answer m 5
  else
    let q : Sq := ⟨0, 0, 0, 0, 0, false, 0, 0, 0, false, none, false⟩
    let c := { newCmd s.nextCmd q 0 (peerEntry m) with req := 2049, admin := false, keyTag := m.keyTag, units := List.replicate m.count .done }
    let pools := s.partPools .chainPort (partSizes (4096 * m.count))
    if s.allocFails 2049 pools then s.answer m 4
    else
      let parts := pools.getD []
      let s1 := { s with
        cmds := s.cmds ++ [{ c with parts := parts, charge := s.chargeOf parts, fence := s.heldBy c }]
        nextCmd := s.nextCmd + 1 }
      ((s1.modChain (fun x => { x with peers := x.peers.map (fun y =>
        if y.origin = m.origin ∧ y.num = m.num then { y with cmd := some c.id } else y) })).beginAlloc c.id).placeReady

/-- A whole message that no incomplete message of its origin precedes (R437). -/
def State.takeable (s : State) (m : PeerMsg) : Bool :=
  m.whole && m.cmd.isNone && m.answer.isNone
    && !s.chain.peers.any (fun x => x.origin == m.origin && decide (x.num < m.num) && !x.whole && x.answer.isNone)

/-- The whole messages of an origin are taken in message-number order, for at most n of them (R437). -/
def State.takeMessages (s : State) (origin : Nat) : Nat → State
  | 0 => s
  | n + 1 =>
    let due := s.chain.peers.filter (fun m => m.origin == origin && s.takeable m)
    match due.find? (fun m => due.all (fun x => decide (m.num ≤ x.num))) with
    | none => s
    | some m => (s.takeMessage m).takeMessages origin n

/-- The first packet of a message: its descriptor, in place of an incomplete message of its slot; a message already taken is answered
again (R437). -/
def State.firstPacket (s : State) (p : PacketIn) (slot : Nat) : State :=
  let u (o n : Nat) : Nat := ofLe ((p.payload.drop o).take n)
  let origin := p.source.toNat
  match s.chain.peers.find? (fun m => m.origin == origin && m.num == u 0 8 && (m.whole || m.answer.isSome)) with
  | some m =>
    (match m.answer with
      | some a => s.sendMirrorDone origin m.num m.slot a
      | none => s)
  | none =>
    let data := p.payload.drop 32
    let m : PeerMsg := ⟨origin, u 0 8, slot, BitVec.ofNat 32 (u 8 4), BitVec.ofNat 32 (u 12 4), u 16 8, u 24 4, u 28 4, data,
      decide (u 28 4 ≤ data.length), none, none⟩
    s.modChain (fun c => { c with
      peers := c.peers.filter (fun x => !(x.origin == origin && !x.whole && x.answer.isNone && (x.slot == slot || x.num == m.num))) ++ [m] })

/-- A further packet of a message in its slot: data that follow what has come (R437; DESIGN CHOICE, log entry 33). -/
def State.nextPacket (s : State) (p : PacketIn) (slot off : Nat) : State :=
  s.modChain (fun c => { c with peers := c.peers.map (fun m =>
    if m.origin = p.source.toNat ∧ m.slot = slot ∧ m.whole = false ∧ m.answer = none ∧ m.got.length = off then
      { m with got := m.got ++ p.payload, whole := decide (m.need ≤ m.got.length + p.payload.length) }
    else m) })

/-- A mirror packet that misses its window: the message is answered with status 1 (Table 17-5). -/
def State.mirrorMiss (s : State) (p : PacketIn) : State :=
  let origin := p.source.toNat
  match s.chain.peers.find? (fun m => m.origin == origin && !m.whole && m.answer.isNone) with
  | some m => s.answer m 1
  | none => if 32 ≤ p.payload.length then s.sendMirrorDone origin (ofLe (p.payload.take 8)) 0 1 else s

/-- A mirror packet within a window, at an offset into it: it joins its message, and the messages that are whole are taken in order. -/
def State.mirrorJoin (s : State) (p : PacketIn) (rel : Nat) : State :=
  let slot := rel / 4194304
  let off := rel % 4194304
  let s1 := if off = 0 then (if 32 ≤ p.payload.length then s.firstPacket p slot else s) else s.nextPacket p slot off
  s1.takeMessages p.source.toNat s1.chain.peers.length

/-- A mirror packet for this module. -/
def State.mirrorPacket (p : PacketIn) (s : State) : State :=
  match s.windowFor p.source.toNat p.address.toNat p.payload.length with
  | none => (s.windowMiss p).mirrorMiss p
  | some w => if !w.mirror then s.respond p 0x3F 2 1 [] else s.mirrorJoin p (p.address.toNat - w.base)

/-- MIRROR_WRITE (R433, R437). -/
def execMirrorWrite (p : PacketIn) (s : State) : Host.Outcome State Fault Refusal := .next (s.receive p 0x05 (State.mirrorPacket p))

/-! ### Timebase along the chain (R439) -/

/-- Another master exists beside this one (R439). -/
def State.dupMaster (s : State) : Bool := s.fld .chain CHAIN.time_master == 1 && s.chain.masters != []

/-- Hops to the nearest master through a port. -/
def State.masterHopsOn (s : State) (i : Fin 2) : Option Nat :=
  if (s.port i).st ≠ .up then none
  else (s.chain.masters.filterMap (fun m => Tab.get? (s.port i).seen m)).foldl (fun (a : Option Nat) n => match a with
    | none => some n
    | some x => some (min x n)) none

/-- The port toward the master: the one with fewer hops, ties to CU; CU for a module that is itself a duplicate master (R439). -/
def State.masterPort (s : State) : Option (Fin 2) :=
  if s.dupMaster then (if (s.port 0).st = .up then some 0 else none)
  else if s.fld .chain CHAIN.time_master = 1 then none
  else match s.masterHopsOn 0, s.masterHopsOn 1 with
    | none, none => none
    | some _, none => some 0
    | none, some _ => some 1
    | some a, some b => if a ≤ b then some 0 else some 1

/-- TOPO.hops_to_master. -/
def State.hopsToMaster (s : State) : Nat :=
  if s.fld .chain CHAIN.time_master = 1 then 0
  else match s.masterHopsOn 0, s.masterHopsOn 1 with
    | none, none => 0
    | some a, none => a
    | none, some b => b
    | some a, some b => min a b

/-- TIME_SYNC_TIMER (R439): an exchange with the neighbour toward the master begins; with none reachable the module runs free. -/
def execTimeSyncTimer (s : State) : Host.Outcome State Fault Refusal :=
  let out := match s.masterPort with
    | some i => ((s.port i).neighbour).map (fun id => (i, id))
    | none => none
  match out with
  | some (i, id) =>
    let tag := s.chain.nextTag
    let s1 := s.modChain (fun c => { c with nextTag := (c.nextTag + 1) % 65536, reqs := c.reqs ++ [⟨tag, 0x10, none⟩] })
    .next (s1.sendOn i ⟨0x10, 1, id, s.moduleId, 0, tag, 0, s.now.toNat, []⟩)
  | none =>
    if s.fld .chain CHAIN.time_master = 1 then .next s
    else
      let s1 := s.modChain (fun c => { c with locked := 0 })
      .next { s1 with time := { s1.time with slew := 0, slewLeft := 0, slewFrac := 0 } }

/-- TIME_SYNC (R439): answered with TIME_REPLY, whose payload is the arrival stamp t2 and the departure stamp t3 (DESIGN CHOICE, log entry 32). -/
def execTimeSync (p : PacketIn) (t2 : BitVec 64) (s : State) : Host.Outcome State Fault Refusal :=
  .next (s.receive p 0x10 (fun t =>
    t.sendOn (portIx p.port) ⟨0x11, 1, p.source.toNat, t.moduleId, 0, p.tag.toNat, 0, 0, leBytes 8 t2.toNat ++ leBytes 8 t.now.toNat⟩))

/-- The offset to the neighbour from the four stamps (R439). -/
def syncOffset (t1 t2 t3 t4 : Nat) : Int := roundHE (((t2 : Int) - t1) - ((t4 : Int) - t3)) 2

/-- An offset is removed: stepped beyond 1 µs, and logged, else slewed at up to ±100 ppm (R439, R455). -/
def State.correctTime (s : State) (o : Int) : State :=
  if 1000 < o.natAbs then
    let s1 := { s with time := { s.time with offset := s.time.offset + BitVec.ofInt 64 o, slew := 0, slewLeft := 0, slewFrac := 0 } }
    (s1.flag .timebase TIMEBASE.stepped).logEv (srcBlock 2) .timeStep [o.natAbs, b2n (decide (o < 0))]
  else { s with time := { s.time with slew := 100 * clampI o (-100) 100, slewLeft := o, slewFrac := 0 } }

/-- TIME_REPLY (R439): the offset, its correction, and the lock after 8 exchanges within ±20 ns. -/
def execTimeReply (p : PacketIn) (t1 t4 : BitVec 64) (s : State) : Host.Outcome State Fault Refusal :=
  .next (s.receive p 0x11 (fun t =>
    if !t.chain.reqs.any (fun r => r.tag == p.tag.toNat && r.type == 0x10) then t
    else
      let o := syncOffset t1.toNat (ofLe (p.payload.take 8)) (ofLe ((p.payload.drop 8).take 8)) t4.toNat
      let t5 := (t.endRequest p.tag.toNat true).modChain (fun c => { c with
        offset := clampI o (-2147483648) 2147483647
        locked := if o.natAbs ≤ 20 then min 8 (c.locked + 1) else 0 })
      t5.correctTime o))

end Sys2Proof.Machine
end

