-- ==== Sys2Proof/Machine/Engines.lean ====
section
/-! DEFINITION. The control engines' commands (chapter 04): a head's strobe, a missed sample, the commit and the statistics of a
loop's engine, and the outcome of an engine's targeted test. -/

namespace Sys2Proof.Machine

/-! ### The parts of a strobe -/

/-- The flags and the slack of the sample that ends at this strobe (R96, R107, Table 04-5). -/
def State.sampleFlags (s : State) (g : HeadId) (i : StrobeIn) (l : Fin 6) : State :=
  let b := engBlk g l
  match (s.heads[g.val].loops[l.val]).sample with
  | none => s
  | some r =>
    let s1 := if r.sat = 0 then s else s.orSta b ENG.sat r.sat
    let s2 := if r.clampDir = 0 then s1 else s1.flag b ENG.out_clamped
    let s3 := if r.notchSat then s2.flag b ENG.notch_sat else s2
    let k := (i.slack[l.val]).toNat
    (s3.setSta b ENG.slack_last k).setSta b ENG.slack_min (min k (s.sta b ENG.slack_min))

/-- A loop's pending set is adopted at the sample boundary, and its states cleared where its commit asked for it (R104, R105). -/
def State.adoptEng (s : State) (g : HeadId) (l : Fin 6) : State :=
  let tag := tagEng g l.val
  if s.pendingSet tag then
    (s.adopt tag).modLoop g l (fun x => if x.clearOnAdopt then { x.clear with clearOnAdopt := false } else x)
  else s

/-- The focus group's adoption at a strobe: at once in the states that Table 05-4 names; elsewhere it waits. -/
def State.adoptFoc (s : State) (g : HeadId) : State :=
  match s.focState g with
  | .off | .capture | .identify | .locked | .failed => s.adopt (tagFoc g)
  | _ => s

/-- The commands of a loop take effect at the sample boundary (R101, R102). -/
def State.applyCmd (s : State) (g : HeadId) (l : Fin 6) : State :=
  let on : Bool := s.fld (engBlk g l) ENG.enable = 1
  let may := on && !s.factorySet g l
  s.modLoop g l (fun x =>
    match x.st with
    | .off => { x with cmd := none }
    | _ => if on then x.apply may else x.toIdle)

/-- A loop in OVERRIDE drives the sequencer's value; for tracking the sequencer adds the runout term (R144). -/
def State.driveOverride (s : State) (g : HeadId) (l : Fin 6) : State :=
  let r := if l = lTrack then s.runoutTerm g 1 else 0
  s.modLoop g l (fun x => if x.st = .override then let v := satQ17 (x.ovr.toInt + r); { x with out := v, prevOut := v } else x)

/-- The input of each loop (Table 04-1, R116, R119, R133, R141, R142, R153). -/
def State.loopInput (s : State) (g : HeadId) (x : Sensed) (l : Fin 6) : Q17 :=
  let h := s.heads[g.val]
  match l with
  | 0 => s.focusInput g x
  | 1 => s.trkInput g x
  | 2 => h.foc.tiltIn
  | 3 => satQ17 (x.te[0] - x.te[3])
  | 4 => satQ17 ((h.foc.saRef - s.sas[g.val].pos) * 4)
  | 5 => satQ17 (if h.trk.sledMean.isEmpty then 0 else roundHE h.trk.sledMean.sum h.trk.sledMean.length)

/-- The runout value that a loop's program takes (R99). -/
def State.loopRunout (s : State) (g : HeadId) (l : Fin 6) : Int :=
  match l with
  | 0 => s.runoutTerm g 0
  | 1 => s.runoutTerm g 1
  | 2 => s.runoutTerm g 2
  | _ => 0

/-- A loop in RUN freezes its input and starts a sample, unless a move holds it (R90, Table 04-3). -/
def State.startSample (s : State) (g : HeadId) (x : Sensed) (l : Fin 6) : State :=
  if s.moveHolds g l then s
  else
    let e := s.engSet g l
    let inp := s.loopInput g x l
    let r := s.loopRunout g l
    s.modLoop g l (fun y => if y.st = .run then let z := { y with inp := inp }; { z with sample := some (compute e z r) } else y)

/-- The learner's sums over the strobes of a wedge, and the rms of the first revolution (R156, R159). -/
def State.learnStrobe (s : State) (g : HeadId) (l : Fin 3) : State :=
  let y := s.heads[g.val].loops[l.val]
  let run := s.learnRun g l
  s.modRunout g l (fun r => { r with
    sumOut := r.sumOut + y.out.toInt
    sumIn := r.sumIn + y.inp.toInt
    count := r.count + 1
    ok := r.ok && run
    sqSum := if r.firstRev = 1 then r.sqSum + y.inp.toInt.natAbs ^ 2 else r.sqSum
    sqCount := if r.firstRev = 1 then r.sqCount + 1 else r.sqCount })

/-- The SA engine's output retargets the SA axis (R204). -/
def State.driveSa (s : State) (g : HeadId) : State :=
  let y := s.heads[g.val].loops[4]
  if y.st = .run then s.saFollow g (roundHE y.out.toInt 4) else s

/-- The sled follows the sled-follow engine's output as a velocity target while the engine runs, and stands otherwise (R203). -/
def State.driveSled (s : State) (g : HeadId) : State :=
  let y := s.heads[g.val].loops[5]
  let x := s.sleds[g.val]
  let able : Bool := x.st == .hold || x.st == .moving
  if !able then s
  else if y.st = .run then
    let v := roundHE (y.out.toInt * s.act (.sled g) SLSA.v_scale) 131072
    s.modSled g (fun x => { x with mode := 2, velTarget := v })
  else if x.mode = 2 then
    s.modSled g (fun x => { x with velTarget := 0, mode := if x.vel = 0 then 0 else 2 })
  else s

/-- The tracking sequencer runs confirmation again from FOLLOW (R110). -/
def State.reconfirm (s : State) (g : HeadId) : State :=
  if s.trkState g = .follow then
    (((s.cmdLoop g lSkew .hold).tiltWait g).cmdLoop g lSled .hold).modTrk g (fun t => { t with st := .confirm, agree := [] })
  else s

/-- The misses of a loop within the 1,000 consecutive samples that end with sample n. -/
def missesIn (l : List Nat) (n : Nat) : List Nat := l.filter (fun m => n < m + 1000)

/-- The end of a sample: its index, and the end of an excess of misses (R110). -/
def State.closeSample (s : State) (g : HeadId) (l : Fin 6) : State :=
  let y := s.heads[g.val].loops[l.val]
  let m := missesIn y.misses y.sampleIx
  let ended := y.excess && !y.excessOver && decide (m.length < 50)
  let s1 := s.modLoop g l (fun x => { x with
    sampleIx := x.sampleIx + 1, misses := m, excessOver := x.excessOver || ended })
  if ended then s1.reconfirm g else s1

/-- A fold over the six loops. -/
def State.eachLoop (s : State) (f : State → Fin 6 → State) : State := (List.finRange 6).foldl f s

/-- What a strobe begins with: the previous samples are driven, and pending sets and trims are adopted. -/
def State.strobeIn (s : State) (g : HeadId) (i : StrobeIn) : State :=
  let s1 := s.eachLoop (fun t l => (t.sampleFlags g i l).modLoop g l LoopSt.drive)
  let s2 := (s1.modHead g (fun h => { h with wedgeFrac := i.wedgeFrac })).adoptTrims g [1, 3]
  ((s2.eachLoop (fun t l => t.adoptEng g l)).adoptFoc g).stepMove g

/-- The sequencers act on what the strobe senses; commands and moves take effect; each loop in RUN freezes its input and starts a sample. -/
def State.strobeRun (s : State) (g : HeadId) (x : Sensed) (i : StrobeIn) : State :=
  let s1 := (s.focStrobe g x i).trkStrobe g x
  let s2 := (s1.eachLoop (fun t l => t.applyCmd g l)).giveSpares g
  (s2.eachLoop (fun t l => t.driveOverride g l)).eachLoop (fun t l => t.startSample g x l)

/-- The learners, the axes that the sleds drive, and the end of the sample's counting. -/
def State.strobeOut (s : State) (g : HeadId) : State :=
  let s1 := (List.finRange 3).foldl (fun t l => t.learnStrobe g l) s
  ((s1.driveSa g).driveSled g).eachLoop (fun t l => t.closeSample g l)

/-- HEAD_STROBE (R90). -/
def State.strobe (s : State) (g : HeadId) (i : StrobeIn) : State :=
  let s1 := s.strobeIn g i
  (s1.strobeRun g (s1.sense g i) i).strobeOut g

/-! ### The commands -/

/-- HEAD_STROBE (R90). With the bay's signal domain off the engines are in OFF and nothing happens (Table 04-2). -/
def execHeadStrobe (g : HeadId) (i : StrobeIn) (s : State) : Host.Outcome State Fault Refusal :=
  if s.pdOn (bayOf g).val then .next (s.strobe g i) else .next s

/-- The loop that ENG[e] of a head addresses: its own loop e, or, for ENG[6], the loop that the slot engine runs (R112). -/
def State.loopOfEng (s : State) (g : HeadId) (e : EngId) : Option (HeadId × Fin 6) :=
  if h : e.val < 6 then some (g, ⟨e.val, h⟩)
  else
    let phys := s.heads[g.val].slot
    ((List.finRange 16).flatMap (fun k => (List.finRange 6).map (fun l => (k, l)))).find?
      (fun p => (s.heads[p.1.val].loops[p.2.val]).runner == phys)

/-- A miss of a loop whose sample is in progress (R108–R110). -/
def State.miss (s : State) (g : HeadId) (l : Fin 6) : State :=
  let b := engBlk g l
  let y := s.heads[g.val].loops[l.val]
  let n := y.sampleIx - 1
  let m := n :: missesIn y.misses n
  let s1 := ((s.incSat b ENG.miss_count).setSta b ENG.slack_last 0).setSta b ENG.slack_min 0
  let s2 := (s1.modLoop g l (fun x => { x with
    sample := none, misses := m, needSpare := decide (3 ≤ m.length) })).logEv (srcHead g l.val) .sampleMiss [n]
  if 50 ≤ m.length ∧ y.excess = false then
    ((s2.modLoop g l (fun x => { x with excess := true, excessOver := false })).logEv (srcHead g l.val) .missExcess []).loseHead g
      ⟨l.val, by omega⟩
  else s2

/-- SAMPLE_MISS (R108): a sample that is in progress is missed; in HOLD, OVERRIDE and IDLE there is none (Table 04-4). -/
def execSampleMiss (g : HeadId) (e : EngId) (s : State) : Host.Outcome State Fault Refusal :=
  match s.loopOfEng g e with
  | some p => if (s.heads[p.1.val].loops[p.2.val]).sample.isSome then .next (s.miss p.1 p.2) else .next s
  | none => .next s

/-- A captured ENG set passes its check (R104). -/
def State.engCheck (s : State) (b : Blk) : Bool :=
  decide (s.fldS b ENG.limit_lo ≤ s.fldS b ENG.limit_hi) && decide (0 < s.fldS b ENG.slew) && decide (s.fld b ENG.stage_count ≤ 8)

/-- The commit of a loop's group with a state_action (R103–R105). -/
def State.commitEng (s : State) (g : HeadId) (l : Fin 6) (clear : Bool) : State :=
  let b := engBlk g l
  let ok := s.engCheck b
  let s1 := s.commitWith (tagEng g l.val) ok (srcHead g l.val) (some (b, ENG.commit_error))
  if ok then s1.modLoop g l (fun x => { x with clearOnAdopt := clear }) else s1

/-- ENG_COMMIT (R103): the loop's group is captured and checked; a write to ENG[6] is discarded (R112). -/
def execEngCommit (g : HeadId) (e : EngId) (action : BitVec 2) (s : State) : Host.Outcome State Fault Refusal :=
  if !s.answers (.eng g e) then .next (s.absent (.eng g e) ENG.go.off) else
  if h : e.val < 6 then .next (s.commitEng g ⟨e.val, h⟩ (action == 1)) else .next s

/-- ENG_CLEAR_STATS (Table 04-5): miss_count and slack_min. -/
def execEngClearStats (g : HeadId) (e : EngId) (s : State) : Host.Outcome State Fault Refusal :=
  if !s.answers (.eng g e) then .next (s.absent (.eng g e) ENG.clear_stats.off) else
  .next ((s.setSta (.eng g e) ENG.miss_count 0).setSta (.eng g e) ENG.slack_min 0xFFF)

end Sys2Proof.Machine
end

