-- ==== Sys2Proof/Machine/HeadLink.lean ====
section
/-! DEFINITION. The head link (R74, R83–R88): status frames, lane states, and the faults of a head's lanes and coils. -/

namespace Sys2Proof.Machine

def srcLane (g : HeadId) (k : BeamId) : BitVec 16 := srcHead g (0x40 + k.val)

/-- Any fault of Table 03-9 in an open write stream, or a lane that leaves UP during one (R86): the event is logged and the unverified clusters of
the head's write windows fail. -/
def State.streamFault (s : State) (g : HeadId) (k : BeamId) (flags : Nat) : State :=
  ((s.logEv (srcLane g k) .linkFault [flags]).failWindow g).modHead g
    (fun h => { h with lanes := h.lanes.map (fun l => { l with stream := false }) })

/-- A lane goes to TRAIN, its attempts counted from n; from UP in an open stream that is R86. -/
def State.laneTrain (s : State) (g : HeadId) (k : BeamId) (n : Nat) : State :=
  let l := s.heads[g.val].lanes[k.val]
  let s1 := s.modLane g k (fun x => { x with st := .train, attempts := n, valid := 0, bad := 0, seq := none })
  if l.st = .up ∧ l.stream = true then s1.streamFault g k 0 else s1

/-- A frame is missing or invalid: three in a row take a lane out of UP (Table 03-7). -/
def State.laneBad (s : State) (g : HeadId) (k : BeamId) : State :=
  let l := s.heads[g.val].lanes[k.val]
  match l.st with
  | .up => if 3 ≤ l.bad + 1 then s.laneTrain g k 0 else s.modLane g k (fun x => { x with bad := x.bad + 1 })
  | .train => s.modLane g k (fun x => { x with valid := 0 })
  | _ => s

/-- Every lane of a head against its enable and its bay's domain (Table 03-7): DOWN where either is off, TRAIN from DOWN where both are on. -/
def State.laneCheck (s : State) (g : HeadId) : State :=
  (List.finRange 4).foldl (fun (t : State) k =>
    let on := bitOf (t.fld (.link g) LINK.lane_enable) k.val && t.pdOn (bayOf g).val
    let l : Lane := t.heads[g.val].lanes[k.val]
    if !on then
      let t1 := t.modLane g k (fun x => { x with st := .down, attempts := 0, valid := 0, bad := 0, seq := none, emitterOn := false })
      if l.st = .up ∧ l.stream = true then t1.streamFault g k 0 else t1
    else if l.st = .down then t.laneTrain g k 0
    else t) s

/-- A status frame is valid (R84): its CRC-16 matches, and its sequence number follows that of the previous frame, if there was one. -/
def frameValid (l : Lane) (k : BeamId) (w : Vector (BitVec 16) 8) : Bool :=
  let n : Byte := w[0].extractLsb' 0 8
  crc16 (w.toList.take 7) == w[7] && w[0].extractLsb' 12 4 == 1 && w[0].extractLsb' 8 4 == BitVec.ofNat 4 k.val
    && (match l.seq with
        | some p => n == p + 1
        | none => true)

/-- The sticky flags of LINK.STATUS that a frame's word 1 sets (Table 03-11). -/
def State.linkFlags (s : State) (g : HeadId) (k : BeamId) (f : BitVec 16) : State :=
  let b := Blk.link g
  let m := 2 ^ k.val
  let set (t : State) (c : Bool) (fd : Field) : State := if c then t.orSta b fd m else t
  let s1 := set s (f.getLsbD 0 || f.getLsbD 1) LINK.underrun
  let s2 := set s1 (f.getLsbD 2 || f.getLsbD 3) LINK.word_error
  let s3 := set s2 (f.getLsbD 4) LINK.over_power
  set s3 (f.getLsbD 5 || f.getLsbD 6) LINK.emitter_fault

/-- The fault flags of word 1 that Table 03-9 names. -/
def faultBits (f : BitVec 16) : Nat := f.toNat % 128

/-- A valid frame: lane state, the head's report, and faults that arise in an open stream (R84–R86). -/
def State.goodFrame (s : State) (g : HeadId) (k : BeamId) (w : Vector (BitVec 16) 8) : State :=
  let l := s.heads[g.val].lanes[k.val]
  let up := l.st == .up || decide (4 ≤ l.valid + 1)
  let s1 := s.modLane g k (fun x => { x with
    st := if up then .up else .train
    attempts := if up then 0 else x.attempts
    valid := x.valid + 1
    bad := 0
    seq := some (w[0].extractLsb' 0 8)
    flags := w[1], fifo := w[2], power := w[3], drive := w[4], threshold := w[5], temp := w[6]
    emitterOn := w[1].getLsbD 9 })
  let s2 := s1.linkFlags g k w[1]
  let new := clearBits (faultBits w[1]) (faultBits l.flags)
  let s3 := if new = 0 then s2 else if l.stream then s2.streamFault g k new else s2.logEv (srcLane g k) .linkFault [new]
  if l.st = .up then s3 else if up then s3.openRequests g else s3

/-! ### The commands -/

/-- STATUS_FRAME (R84). A lane in DOWN or FAILED takes none. -/
def execStatusFrame (g : HeadId) (lane : BeamId) (w : Vector (BitVec 16) 8) (s : State) : Host.Outcome State Fault Refusal :=
  let l := s.heads[g.val].lanes[lane.val]
  match l.st with
  | .down | .failed => .next s
  | _ =>
    if frameValid l lane w then .next (s.goodFrame g lane w)
    else
      let s1 := (s.orSta (.link g) LINK.frame_error (2 ^ lane.val)).incSat (.link g) LINK.frame_errors
      let s2 := if crc16 (w.toList.take 7) = w[7] then s1.modLane g lane (fun x => { x with seq := some (w[0].extractLsb' 0 8) }) else s1
      .next (s2.laneBad g lane)

/-- LANE_TRAIN_TIMEOUT (Table 03-7): the attempt is counted; at retrain_limit the lane is FAILED. -/
def execLaneTrainTimeout (g : HeadId) (lane : BeamId) (s : State) : Host.Outcome State Fault Refusal :=
  let l := s.heads[g.val].lanes[lane.val]
  if l.st = .train then
    let n := l.attempts + 1
    if s.fld1 (.link g) LINK.retrain_limit ≤ n then .next (s.modLane g lane (fun x => { x with st := .failed, attempts := n, valid := 0 }))
    else .next (s.modLane g lane (fun x => { x with attempts := n, valid := 0 }))
  else .next s

/-- LANE_FRAME_TIMEOUT (Table 03-7): a frame is missing. -/
def execLaneFrameTimeout (g : HeadId) (lane : BeamId) (s : State) : Host.Outcome State Fault Refusal := .next (s.laneBad g lane)

/-- LINK_RETRAIN (Table 03-7): every lane in UP or FAILED goes to TRAIN. -/
def execLinkRetrain (g : HeadId) (s : State) : Host.Outcome State Fault Refusal :=
  if !s.answers (.link g) then .next (s.absent (.link g) LINK.retrain.off) else
  .next ((List.finRange 4).foldl (fun (t : State) k =>
    let l := t.heads[g.val].lanes[k.val]
    if l.st = .up ∨ l.st = .failed then t.laneTrain g k 0 else t) s)

/-- LINK_CLEAR_COUNTS (Table 03-11). -/
def execLinkClearCounts (g : HeadId) (s : State) : Host.Outcome State Fault Refusal :=
  if !s.answers (.link g) then .next (s.absent (.link g) LINK.clear_counts.off) else
  .next ((s.setSta (.link g) LINK.code_errors 0).setSta (.link g) LINK.frame_errors 0)

/-- The loop that a coil serves, which is also the cause of LOST and the coil's bit. -/
def coilIx : Coil → Fin 9
  | .focus => 0
  | .tracking => 1
  | .tilt => 2
  | .skew => 3

/-- COIL_FAULT (R74): the bridge is disabled, the event logged, and LOST reported with the cause of the coil's loop. -/
def execCoilFault (g : HeadId) (c : Coil) (shorted : Bool) (s : State) : Host.Outcome State Fault Refusal :=
  let s1 := s.modHead g (fun h => { h with coilOff := setBit h.coilOff (coilIx c).val true })
  .next ((s1.logEv (srcHead g (coilIx c).val) .coilFault [b2n shorted]).loseHead g (coilIx c))

end Sys2Proof.Machine
end

