-- ==== Sys2Proof/Machine/Domains.lean ====
section
/-! DEFINITION. The power domains (R444–R446, Table 18-4): what each one's switch-off and switch-on do to the blocks in it. -/

namespace Sys2Proof.Machine

/-! ### What a domain holds (Table 18-3) -/

/-- The heads whose motor stages lie in a domain. -/
def motorBays (d : Nat) : List BayId := (List.finRange 8).filter (fun b => motorPd b == d)

/-- The spans of BAR0 whose blocks lie in a domain, as low and high offsets (Tables 18-3, 21-1 and 21-2). -/
def domainSpans (d : Nat) : List (Nat × Nat) :=
  if d < 8 then
    let b := bayBase d
    [(b + 0x8000, b + 0x40000)] ++
      [0, 1].flatMap (fun h => let x := headBase (2 * d + h); [(x, x + 0x3000), (x + 0x8000, x + 0x40000)])
  else if d < 12 then
    (motorBays d).flatMap (fun b =>
      (bayBase b.val, bayBase b.val + 0x8000) ::
        [0, 1].map (fun h => (headBase (2 * b.val + h) + 0x3000, headBase (2 * b.val + h) + 0x8000)))
  else match d with
    | 12 => [(0x01000000, 0x01100000)]
    | 13 => [(0x00200000, 0x00240000)]
    | 14 => [(0x00240000, 0x00280000)]
    | 15 => [(0x00400000, 0x00800000)]
    | 16 => [(0x00300000, 0x00380000)]
    | 17 => [(0x00380000, 0x00400000)]
    | 18 => [(0x00100000, 0x00200000)]
    | _ => []

/-- The shadow groups of a domain (R504, Table 21-4). -/
def domainTags (d : Nat) : List Nat :=
  let heads := (List.finRange 16).filter (fun g => (bayOf g).val == d)
  let bays := motorBays d
  if d < 8 then
    heads.flatMap (fun g => (List.range 6).map (tagEng g) ++ [tagFoc g, tagTrk g, tagChan g, tagWr g, tagVchan g])
  else if d < 12 then
    bays.map tagSpindle ++ (bays.flatMap bayHeads).flatMap (fun g => [tagAxis (.sled g), tagAxis (.sa g)])
  else match d with
    | 12 => (List.finRange 4).map (fun n => tagAxis (.transport n))
    | 15 => [0x0800]
    | 17 => [0x0900]
    | _ => []

/-- Status fields and counters of a domain's blocks return to their Bare values (R446). -/
def State.clearStatus (s : State) (d : Nat) : State :=
  { s with regs := { s.regs with sts := (domainSpans d).foldl (fun t p => Tab.dropRange t (p.1 * 32) (p.2 * 32)) s.regs.sts } }

/-! ### PD0–PD7 -/

/-- A loop on the engine that it was assigned to, in a given state, all else as at reset (Table 04-2). -/
def LoopSt.fresh (g : HeadId) (e : Fin 6) (l : LoopSt) (st : EngState) : LoopSt :=
  { LoopSt.reset g e.val with runner := l.runner, onSpare := l.onSpare, st := st }

/-- An abandoned move's spare is free again (Table 04-4). -/
def State.dropMove (s : State) (g : HeadId) : State :=
  match s.heads[g.val].move with
  | none => s
  | some m =>
    (s.modHead ⟨m.toEng / 7 % 16, by omega⟩ (fun h =>
      if h.slot = m.toEng then h else { h with reserve := h.reserve ++ [m.toEng] })).modHead g (fun h => { h with move := none })

/-- A head's blocks enter OFF (Tables 04-2, 05-1, 06-1, 03-7): loop assignments and retired engines are kept. -/
def State.headOff (s : State) (g : HeadId) : State :=
  let s1 := (s.loseHead g 8).dropMove g
  let s2 := s1.modHead g (fun h => { h with
    loops := Vector.ofFn (fun e : Fin 6 => h.loops[e.val].fresh g e .off)
    slotOff := true
    foc := FocSt.reset
    trk := TrkSt.reset
    runout := Vector.replicate 3 Runout.reset })
  (s2.modWr g (fun w => { w with run := none, stream := false })).laneCheck g

/-- A bay's signal domain turns off (R20, R75, R101): LOST with cause domain off for both heads, and the bay sequencer off. -/
def State.signalOff (s : State) (b : BayId) : State :=
  (s.eachHead b State.headOff).modBay b (fun x => { x with sess := .read, marks := false, markSeen := false, missed := 0 })

/-- A head's blocks leave OFF. -/
def State.headOn (s : State) (g : HeadId) : State :=
  (s.modHead g (fun h => { h with
    loops := Vector.ofFn (fun e : Fin 6 => h.loops[e.val].fresh g e .idle)
    slotOff := false })).laneCheck g

/-- A bay's signal domain comes on: its engines and lanes leave OFF, and the bay starts its heads at a session speed. -/
def State.signalOn (s : State) (b : BayId) : State := (s.eachHead b State.headOn).startHeads b

/-! ### PD8–PD12 -/

/-- The bridge of a drive is off: the disc coasts at the speed that it has (R171). -/
def Spindle.bridgeOff (x : Spindle) (st : SpState) : Spindle :=
  { x.go st with
    fwActive := false, regen := false, grantWait := false, idRef := 0, iqRef := 0, intD := 0, intQ := 0, intS := 0, vq := 0, cut := false
    iq := 0, id := 0, mod := 0, stopNext := false, stopFault := false, wantStart := false }

/-- An axis enters OFF: its position is lost (Tables 08-3, 08-6). -/
def State.axisOff (s : State) (a : AxisId) : State :=
  s.modAxis a (fun x => { x.drop .off with lostHome := x.lostHome || x.homed, mode := if axisKind a = .transport then x.mode else 0, pos := 0, faultCause := 0, testPass := none })

/-- An axis leaves OFF: DISABLED, and HOLD where it may be enabled (Table 08-3). -/
def State.axisOn (s : State) (a : AxisId) : State :=
  if (s.axis a).st = .off then s.modAxis a (fun x => { x with st := if s.axisMayEnable a then .hold else .disabled, cur := .hold }) else s

/-- The motor stages of a bay turn off: the drive is reported stopped (R188), and the head's axes lose their homing. -/
def State.motorOff (s : State) (b : BayId) : State :=
  let s1 := (s.modSpindle b (fun x => { x.bridgeOff .off with faultCause := 0, testPass := none })).spindleStopped b
  s1.eachHead b (fun t g => ((t.modTrk g (fun k => { k with seek := none })).axisOff (.sled g)).axisOff (.sa g))

/-- The motor stages of a bay come on: the drive is in IDLE, and its axes leave OFF. -/
def State.motorOn (s : State) (b : BayId) : State :=
  (s.modSpindle b (fun x => if x.st = .off then x.go .idle else x)).eachHead b (fun t g => (t.axisOn (.sled g)).axisOn (.sa g))

/-- The transport axes turn off, and the encoders with them. -/
def State.transportOff (s : State) : State :=
  let s1 := (List.finRange 4).foldl (fun t n => t.axisOff (.transport n)) s
  { s1 with
    trans := s1.trans.map (fun (t : Transport) => { Transport.reset with ax := t.ax })
    encs := Vector.replicate 2 Encoder.reset }

/-- The transport axes come on, in PROFILE: an unhomed axis takes no other mode (R199). -/
def State.transportOn (s : State) : State :=
  (List.finRange 4).foldl (fun (t : State) n =>
    (t.modTrans n (fun y => { y with ax := { y.ax with mode := 0 } })).axisOn (.transport n)) s

/-! ### PD15, PD18 and PD19 -/

/-- The decoders stop; a codeword on one waits again, at the place that it had. -/
def State.decodersOff (s : State) : State :=
  { s with
    decoders := s.decoders.map (fun (d : Decoder) => { d with job := none, count := 0 })
    codewords := s.codewords.map (fun (c : Codeword) => match c.phase with
      | .decoding _ => { c with phase := .ready }
      | _ => c) }

/-- The context cache's contents go to DRAM before it turns off, and the pools' peaks and the operation that ran are gone. -/
def State.queueOff (s : State) : State :=
  let s1 := s.dropLines (fun _ _ => true)
  let s2 := s1.cache.victims.foldl (fun (t : State) (v : Victim) => t.store (64 * v.line) v.data) s1
  { s2 with
    cache := Cache.reset
    quotas := s2.quotas.map (fun (p : Nat × Quota) => (p.1, { p.2 with peak := p.2.held })) }

/-- The context cache comes on, empty, with the ways that WAY_POWER keeps. -/
def State.queueOn (s : State) : State :=
  let on := s.fld .ccache CCACHE.way_on
  s.modCache (fun c => { c with powered := 0xFF + 256 * on })

/-! ### Switching (Table 18-4) -/

/-- Step 5 of Table 18-4: the clamps of domain d are applied, and its blocks enter OFF. -/
def State.domainOff (s : State) (d : Nat) : State :=
  let s1 :=
    if h : d < 8 then s.signalOff ⟨d, h⟩
    else if d < 12 then (motorBays d).foldl State.motorOff s
    else match d with
      | 12 => s.transportOff
      | 13 => s.dramOff .a
      | 14 => s.dramOff .b
      | 15 => s.decodersOff
      | 16 => s.cipherOff
      | 17 => s.chainHold
      | 18 => s.queueOff
      | 19 => { s with mgmt := { s.mgmt with coreB := false } }
      | _ => s
  s1.clearStatus d

/-- Step 3 of Table 18-4: the configuration is restored, the pending sets of the domain's groups are adopted (R504), and its blocks leave
OFF. -/
def State.domainOn (s : State) (d : Nat) : State :=
  let s1 := ((domainTags d).foldl State.adopt (if d = 17 then s.adoptChain else s)).clearStatus d
  if h : d < 8 then s1.signalOn ⟨d, h⟩
  else if d < 12 then (motorBays d).foldl State.motorOn s1
  else match d with
    | 12 => s1.transportOn
    | 13 => s1.dramOn .a
    | 14 => s1.dramOn .b
    | 16 => s1.cipherOn
    | 17 => s1.chainRelease
    | 18 => s1.queueOn
    | _ => s1

/-- The bays whose actions end when domain d turns off (R460). -/
def domainBays (d : Nat) : List Nat := if d < 8 then [d] else (motorBays d).map (·.val)

/-- A grant's bay: the head's for SEEK, else the one named. -/
def grantBay (cls : GrantClass) (who : Nat) : Nat := if cls = .seek then who / 2 else who

/-- Step 6 of Table 18-4: the rail is off, and the grants and requests of the bays in the domain are gone (R460). -/
def State.railOff (s : State) (d : Nat) : State :=
  let l := domainBays d
  State.scanGrants { s with power := { s.power with
    state := s.power.state &&& ~~~(BitVec.ofNat 20 (2 ^ d))
    queue := s.power.queue.filter (fun (r : GrantReq) => !l.contains (grantBay r.cls r.who))
    held := s.power.held.filter (fun (x : Grant) => !l.contains (grantBay x.cls x.who)) } }

/-- Step 3 of Table 18-4: the rail is up, and state shows on. -/
def State.railOn (s : State) (d : Nat) : State :=
  State.domainOn { s with power := { s.power with state := s.power.state ||| BitVec.ofNat 20 (2 ^ d) } } d

end Sys2Proof.Machine
end

