-- ==== Sys2Proof/Machine/Image.lean ====
section
/-! DEFINITION. NV image copies (R475–R478): the header, the sections, validity, and the sections that the module owns. -/

namespace Sys2Proof.Machine

/-! ### A copy as it stands in flash -/

/-- The first n bytes of a copy from an offset; what is not programmed reads 0xFF. -/
def flashRead (c : List Byte) (off n : Nat) : List Byte :=
  let l := (c.drop off).take n
  l ++ List.replicate (n - l.length) 0xFF

/-- A little-endian field of a copy. -/
def flashField (c : List Byte) (off n : Nat) : Nat := ofLe (flashRead c off n)

/-- A copy with bytes programmed at an offset. -/
def flashPut (c : List Byte) (off : Nat) (l : List Byte) : List Byte := flashRead c 0 off ++ l ++ c.drop (off + l.length)

/-- Blank: the first four bytes read 0xFFFF_FFFF. -/
def copyBlank (c : List Byte) : Bool := flashField c 0 4 == 0xFFFFFFFF

/-- The header sector is erased, which makes the copy invalid (R478). -/
def eraseHeader (c : List Byte) : List Byte := if c.length ≤ 4096 then [] else List.replicate 4096 0xFF ++ c.drop 4096

/-! ### Sections (R475, R476) -/

/-- A section's header and its data, padded with 0x00 to a multiple of 4 B. -/
def Section.bytes (x : Section) : List Byte :=
  leBytes 2 x.type ++ leBytes 2 0 ++ leBytes 4 x.data.length ++ leBytes 4 (crc32 x.data).toNat ++ x.data
    ++ List.replicate (4 * ceilDiv x.data.length 4 - x.data.length) 0

/-- The n sections that follow the header, none where one runs past the end or its CRC differs. -/
def parseSections : Nat → List Byte → Option (List Section)
  | 0, _ => some []
  | n + 1, l =>
    let len := ofLe ((l.drop 4).take 4)
    let data := (l.drop 12).take len
    if l.length < 12 + len ∨ (crc32 data).toNat ≠ ofLe ((l.drop 8).take 4) then none
    else (parseSections n (l.drop (12 + 4 * ceilDiv len 4))).map (⟨ofLe (l.take 2), data⟩ :: ·)

/-- The image of a copy that is valid (R475), none of one that is not. -/
def parseImage (c : List Byte) : Option Image :=
  let len := flashField c 16 4
  let body := flashRead c 64 (len - 64)
  if flashRead c 0 4 ≠ [0x45, 0x42, 0x4E, 0x56] ∨ flashField c 4 1 ≠ 1 ∨ len < 64 ∨ 0x800000 < len
      ∨ (crc32 (flashRead c 0 60)).toNat ≠ flashField c 60 4 ∨ (crc32 body).toNat ≠ flashField c 32 4 then none
  else (parseSections (flashField c 6 2) body).map (fun l => ⟨flashField c 8 8, flashField c 20 4, flashField c 24 8, flashField c 32 4, l⟩)

/-- The data of a section. -/
def Image.find (i : Image) (type : Nat) : Option (List Byte) := (i.sections.find? (fun x => x.type == type)).map (·.data)

/-- The 64-byte header of a copy (Table 20-2). -/
def imageHeader (copy count gen len version time crc : Nat) : List Byte :=
  let h := [0x45, 0x42, 0x4E, 0x56] ++ leBytes 1 1 ++ leBytes 1 copy ++ leBytes 2 count ++ leBytes 8 gen ++ leBytes 4 len
    ++ leBytes 4 version ++ leBytes 8 time ++ leBytes 4 crc ++ List.replicate 24 0
  h ++ leBytes 4 (crc32 h).toNat

/-- A whole copy. -/
def imageBytes (copy gen version time : Nat) (l : List Section) : List Byte :=
  let body := l.flatMap Section.bytes
  imageHeader copy l.length gen (64 + body.length) version time (crc32 body).toNat ++ body

/-- The sections that host software owns (Table 20-3). -/
def hostOwned (x : Section) : Bool := x.type == 1 || x.type == 2 || x.type == 3

/-! ### Entries (Table 20-3) -/

/-- Data cut into entries of k bytes; a last part that is shorter is no entry. -/
def entriesOf (k : Nat) : Nat → List Byte → List (List Byte)
  | 0, _ => []
  | n + 1, l => if l.length < k then [] else l.take k :: entriesOf k n (l.drop k)

/-- Every entry of k bytes of a section's data. -/
def sectionEntries (k : Nat) (l : List Byte) : List (List Byte) := entriesOf k (l.length / k) l

def byteField (l : List Byte) (off n : Nat) : Nat := ofLe ((l.drop off).take n)

/-- A REG_DEFAULTS entry: offset, mask and value. -/
structure RegDefault where
  off : Nat
  mask : Nat
  value : Nat
deriving DecidableEq, Repr

def regDefaults (l : List Byte) : List RegDefault :=
  (sectionEntries 12 l).map (fun e => ⟨byteField e 0 4, byteField e 4 4, byteField e 8 4⟩)

def nsBytes (n : Ns) : List Byte :=
  leBytes 4 n.nsid.toNat ++ leBytes 2 n.owner ++ leBytes 2 0 ++ leBytes 4 n.slot ++ leBytes 4 0 ++ leBytes 8 n.limit ++ leBytes 8 n.floor

def nsOf (l : List Byte) : List Ns :=
  (sectionEntries 32 l).map (fun e => ⟨BitVec.ofNat 32 (byteField e 0 4), byteField e 4 2, byteField e 8 4, byteField e 16 8, byteField e 24 8⟩)

/-- A head set: its values in two's complement. -/
def setBytes (p : Nat × Vector Int 5) : List Byte :=
  leBytes 2 (keyCode p.1) ++ leBytes 2 (keyInst p.1) ++ leBytes 2 (keyIndex p.1) ++ leBytes 2 0
    ++ p.2.toList.flatMap (fun v => leBytes 4 (unsigned 32 v))

def setsOf (l : List Byte) : Tab (Vector Int 5) :=
  (sectionEntries 28 l).foldl (fun t e =>
    Tab.put t ((byteField e 0 2 * 65536 + byteField e 2 2) * 65536 + byteField e 4 2)
      (Vector.ofFn (fun i : Fin 5 => signed 32 (byteField e (8 + 4 * i.val) 4)))) []

/-- A trend baseline: its number and its value (DESIGN CHOICE, log entry 50: the spec gives the section no layout). -/
def baseBytes (p : Nat × Nat) : List Byte := leBytes 4 p.1 ++ leBytes 4 p.2

def basesOf (l : List Byte) : Tab Nat := (sectionEntries 8 l).foldl (fun t e => Tab.put t (byteField e 0 4) (byteField e 4 4)) []

/-- MARK_A or MARK_B as a word: device and valid of each of the four subchannel ranks (Table 15-8). -/
def markWord (marks : Tab Nat) (chan : Nat) : Nat :=
  ((List.range 4).map (fun i => match Tab.get? marks (4 * chan + i) with
    | some d => (d % 16 + 128) * 256 ^ i
    | none => 0)).sum

/-- The marks of the two words of DRAM_MARKS. -/
def marksOf (l : List Byte) : Tab Nat :=
  (List.range 8).foldl (fun t i =>
    let b := byteField l i 1
    if bitOf b 7 then Tab.put t i (b % 16) else t) []

/-- The sections that the module owns, as they stand. -/
def State.ownedSections (s : State) : List Section :=
  [⟨0x10, s.nss.flatMap nsBytes⟩, ⟨0x11, s.calib.sets.flatMap setBytes⟩,
   ⟨0x12, leBytes 4 (markWord s.marks 0) ++ leBytes 4 (markWord s.marks 1)⟩,
   ⟨0x13, leBytes 8 s.seqEnd⟩, ⟨0x14, s.calib.bases.flatMap baseBytes⟩]

end Sys2Proof.Machine
end

