-- ==== Sys2Proof/Machine/Flash.lean ====
section
/-! DEFINITION. The SPI flash as the module uses it (R477–R480, R488): boot records, the choice of copy, and the programming of the
target copy. -/

namespace Sys2Proof.Machine

def srcNv : BitVec 16 := srcBlock 4

def State.modNv (s : State) (f : Nv → Nv) : State := { s with nv := f s.nv }

/-! ### Boot records (R480) -/

/-- The records after the last success record, oldest first. -/
def sinceSuccess : List BootRec → List BootRec
  | [] => []
  | r :: l =>
    if l.any (fun x => x.kind == 2) then sinceSuccess l
    else if r.kind = 2 then l else r :: l

/-- The consecutive failed starts: start records after the last success record. -/
def State.failedStarts (s : State) : Nat := ((sinceSuccess s.nv.boot).filter (fun r => r.kind == 1)).length

/-- GLOBAL.START.fail_count, once the boot records have been read (Table 20-5, step 3). -/
def State.failCount (s : State) : Nat := if s.mgmt.startStep < 3 then 0 else min 3 s.failedStarts

/-- How the latest start after the last success failed: reason and copy; one with no outcome failed with reason 0x08. -/
def lastFailure : List BootRec → Option (Nat × Nat)
  | [] => none
  | r :: l =>
    match lastFailure l with
    | some x => some x
    | none =>
      if r.kind = 1 then
        (match l with
         | y :: _ => if y.kind = 3 then some (y.reason, y.copy) else some (8, 0xFF)
         | [] => some (8, 0xFF))
      else none

/-- The number of a copy in a boot record. -/
def copyCode : Option (Fin 2) → Nat
  | some c => c.val
  | none => 0xFF

/-- A record is appended; when its half of 2,048 is full, the other half takes the records since the last success. -/
def State.bootAppend (s : State) (kind reason : Nat) : State :=
  s.modNv (fun n =>
    let r : BootRec := ⟨kind, reason, copyCode n.fwCopy, n.gen % 2 ^ 32, n.starts % 2 ^ 32⟩
    { n with boot := (if 2048 ≤ n.boot.length then sinceSuccess n.boot else n.boot) ++ [r] })

/-! ### The choice of copy (R477) -/

def State.image (s : State) (c : Fin 2) : Option Image := parseImage s.nv.copies[c.val]

def otherCopy (c : Fin 2) : Fin 2 := if c = 0 then 1 else 0

/-- The copy that a failure with reason 0x02 or 0x06 excludes, where the other is valid (Table 20-4, last row). -/
def State.fallback (s : State) : Option (Fin 2) :=
  match lastFailure (sinceSuccess s.nv.boot) with
  | some (reason, copy) =>
    if reason = 2 ∨ reason = 6 then
      (if copy = 0 then (if (s.image 1).isSome then some 1 else none)
       else if copy = 1 then (if (s.image 0).isSome then some 0 else none)
       else none)
    else none
  | none => none

/-- Table 20-4: the copy in force, if any, and whether the copies conflict; none where neither is valid and one is not blank. -/
def State.chooseCopy (s : State) : Option (Option (Fin 2) × Bool) :=
  match s.fallback with
  | some c => some (some c, false)
  | none =>
    match s.image 0, s.image 1 with
    | some a, some b =>
      if b.gen < a.gen then some (some 0, false)
      else if a.gen < b.gen then some (some 1, false)
      else if a.crc = b.crc then some (some 0, false)
      else if a.time < b.time then some (some 1, true)
      else some (some 0, true)
    | some _, none => some (some 0, false)
    | none, some _ => some (some 1, false)
    | none, none => if copyBlank s.nv.copies[0] && copyBlank s.nv.copies[1] then some (none, false) else none

/-- A chosen copy comes into force, with its generation; a conflict is flagged and logged. -/
def State.takeCopy (s : State) (c : Option (Fin 2)) (conflict : Bool) : State :=
  let gen := match c with
    | some c => ((s.image c).map (·.gen)).getD 0
    | none => 0
  let s1 := s.modNv (fun n => { n with inForce := c, fwCopy := c, img := c.bind s.image, gen := gen, absent := c.isNone, hostCopy := none })
  if conflict then (s1.flag .nvimage NVIMAGE.image_conflict).logVec srcNv .imageConflict [gen] 6 else s1

/-- A section of the image that the present start read. -/
def State.imageSection (s : State) (type : Nat) : Option (List Byte) := s.nv.img.bind (fun i => i.find type)

/-- The version of an image's firmware: that of its header; an image with no FIRMWARE section, and no image, run the factory firmware
(DESIGN CHOICE, log entry 51). -/
def versionOf (i : Option Image) : BitVec 32 :=
  match i with
  | some i => if (i.find 1).isSome then BitVec.ofNat 32 i.version else Config.otpFirmwareVersion
  | none => Config.otpFirmwareVersion

/-! ### Programming (R478, R479) -/

/-- The target of a program by host software: the copy not in force; with none in force, copy A (DESIGN CHOICE, log entry 51). -/
def State.hostTarget (s : State) : Fin 2 :=
  match s.nv.inForce with
  | some c => otherCopy c
  | none => 0

/-- The host source (R478). -/
def State.hostSource (s : State) : Option (Fin 2) :=
  match s.nv.hostCopy with
  | some c => some c
  | none => s.nv.fwCopy

/-- The module-owned sections as they stand; before step 7 of a start has loaded them, those of the copy in force. -/
def State.owned (s : State) : List Section :=
  if s.regs.loaded then s.ownedSections
  else match s.nv.inForce with
    | some c => ((s.image c).map (fun i => i.sections.filter (fun x => !hostOwned x))).getD []
    | none => []

/-- A program begins: the target's header sector is erased, and the new content is generation in force plus 1 (R478). -/
def State.beginProgram (s : State) (target : Fin 2) (host : List Section) (version : Nat) (byHost : Bool) : State :=
  let l := host ++ s.owned
  let bytes := imageBytes target.val ((s.nv.gen + 1) % 2 ^ 64) version s.now.toNat l
  s.modNv (fun n => { n with
    copies := n.copies.set target.val (eraseHeader n.copies[target.val])
    programming := some (target, bytes, byHost)
    dueOwned := false })

/-- A module-initiated generation may begin: its content has changed, no image is being written, and 10 min have passed (R478, R496). -/
def State.mayWriteOwned (s : State) : Bool :=
  let due : Bool := match s.nv.lastOwned with
    | some t => decide (t + 600000000000 ≤ s.time.localNs)
    | none => true
  s.nv.dueOwned && due && s.nv.hold.isNone && s.nv.programming.isNone && !s.power.powerFail

/-- The host-owned sections and the firmware version that a module-initiated generation carries from its host source. -/
def State.carried (s : State) : List Section × Nat :=
  match s.hostSource with
  | some c =>
    match s.image c with
    | some i => (i.sections.filter hostOwned, i.version)
    | none => ([], Config.otpFirmwareVersion.toNat)
  | none => ([], Config.otpFirmwareVersion.toNat)

/-- The target of a module-initiated generation: the copy other than the host source, else the one not in force (R478). -/
def State.ownedTarget (s : State) : Fin 2 :=
  match s.hostSource with
  | some c => otherCopy c
  | none => s.hostTarget

end Sys2Proof.Machine
end

