-- ==== Sys2Proof/Machine/Edt.lean ====
section
/-! DEFINITION. The Ebbeon descriptor table (R310–R314): its bytes, and its writing. -/

namespace Sys2Proof.Machine

/-- A record: type, length, and value, padded to a multiple of 4 B (R312). -/
def edtRecord (type : Nat) (l : List Byte) : List Byte :=
  leBytes 2 type ++ leBytes 2 l.length ++ l ++ List.replicate (4 * ceilDiv l.length 4 - l.length) 0

/-- The serial number: of the IDENTITY section that the start read, else the factory's. -/
def State.serial (s : State) : List Byte :=
  match s.imageSection 2 with
  | some l => (l.drop 4).take 16 ++ List.replicate (16 - ((l.drop 4).take 16).length) 0
  | none => (List.range 16).map Config.otpSerial

def State.edtIdentity (s : State) : List Byte :=
  [2, 0] ++ leBytes 2 (s.fld .chain CHAIN.module_id) ++ leBytes 4 s.mgmt.fw.toNat ++ leBytes 4 s.nv.gen ++ s.serial

def edtGeometry : List Byte := [8, 2, 4, 12, 32, 0x24] ++ leBytes 2 4096 ++ leBytes 4 65536 ++ [64, 0, 0, 0]

def edtQueues (minimal : Bool) : List Byte :=
  leBytes 4 262144 ++ leBytes 4 262144 ++ leBytes 4 65536 ++ [64, 32] ++ leBytes 2 (if minimal then 1 else 2049) ++ leBytes 2 2048
    ++ leBytes 2 16 ++ leBytes 4 65536

/-- An entry of BARS: kind, index, log2 of size, content, and the offsets of NUDGE, MSI-X table and PBA. -/
def edtBar (kind index size content nudge table pba : Nat) : List Byte :=
  leBytes 1 kind ++ leBytes 1 index ++ leBytes 1 size ++ leBytes 1 content ++ leBytes 4 nudge ++ leBytes 4 table ++ leBytes 4 pba

/-- The five entries (Table 12-3). -/
def edtBars : List Byte :=
  edtBar 0 0 26 1 0xFFFFFFFF 0xFFFFFFFF 0xFFFFFFFF ++ edtBar 0 2 14 2 0 0xFFFFFFFF 0xFFFFFFFF
    ++ edtBar 0 4 16 12 0xFFFFFFFF 0 0x8000 ++ edtBar 0 6 20 16 0xFFFFFFFF 0xFFFFFFFF 0xFFFFFFFF
    ++ edtBar 1 0 14 14 0 0x2000 0x3000

/-- Consecutive failed starts, 0–3 (Table 12-5). -/
def State.edtMode (s : State) : List Byte :=
  leBytes 1 (b2n s.minimal) ++ leBytes 1 s.failCount ++ leBytes 2 s.mgmt.reason ++ leBytes 4 0

/-- The eight records (Table 12-5). -/
def State.edtRecords (s : State) : List Byte :=
  edtRecord 1 s.edtIdentity ++ edtRecord 2 edtGeometry ++ edtRecord 3 (edtQueues s.minimal) ++ edtRecord 4 edtBars
    ++ edtRecord 5 (leBytes 8 (if s.minimal then 0 else 0x7F)) ++ edtRecord 6 (leBytes 8 (s.chanBytes .a) ++ leBytes 8 (s.chanBytes .b))
    ++ edtRecord 7 s.edtMode ++ edtRecord 0xFFFF []

/-- The header (Table 12-4): the generation holds the start number and the writes since that start. -/
def State.edtHeader (s : State) (total : Nat) : List Byte :=
  [0x45, 0x42, 0x44, 0x54, 1, 0] ++ leBytes 2 32 ++ leBytes 4 total ++ leBytes 2 8 ++ leBytes 2 (b2n s.minimal)
    ++ leBytes 4 (s.nv.starts % 65536 * 65536 + s.host.edtWrites % 65536) ++ leBytes 8 s.now.toNat ++ leBytes 4 0

/-- The EDT is written (R314). -/
def State.writeEdt (s : State) : State :=
  let s1 := { s with host := { s.host with edtWrites := s.host.edtWrites + 1 } }
  let r := s1.edtRecords
  let body := s1.edtHeader (36 + r.length) ++ r
  { s1 with host := { s1.host with edt := body ++ leBytes 4 (crc32 body).toNat } }

end Sys2Proof.Machine
end

