-- ==== Sys2Proof/Machine/Firmware.lean ====
section
/-! DEFINITION. Live firmware activation (R484, Table 20-7). -/

namespace Sys2Proof.Machine

/-- The source copy that byte 36 names, none where it is not valid; of two valid copies of one generation, copy A. -/
def State.activationCopy (s : State) (source : Nat) : Option (Fin 2) :=
  let a := s.image 0
  let b := s.image 1
  match source with
  | 0 => (match a, b with
    | some x, some y => some (if x.gen < y.gen then 1 else 0)
    | some _, none => some 0
    | none, some _ => some 1
    | none, none => none)
  | 1 => if a.isSome then some 0 else none
  | 2 => if b.isSome then some 1 else none
  | _ => none

/-- The activation that an FW_ACTIVATE asks for, none where it fails with 0x00/0x02. -/
def State.activation (s : State) (c : Cmd) : Option FwAct :=
  let want := specLe c.e 40 4
  match s.activationCopy (specByte c.e 36 % 4) with
  | none => none
  | some x =>
    let v := versionOf (s.image x)
    if (want ≠ 0 ∧ want ≠ v.toNat) ∨ s.mgmt.act.isSome = true ∨ s.mgmt.newAct = true then none else some ⟨c.id, x, v⟩

/-- FW_ACTIVATE (R484): PD19 is switched on first when it is off. -/
def execFwActivate (cmd : BitVec 64) (s : State) : Host.Outcome State Fault Refusal :=
  match s.adminCmd? cmd 0x88 with
  | none => .next s
  | some c =>
    match s.activation c with
    | none => .next (s.finish c.id (stat 0 2) 0 0xFFFFFFFF false)
    | some a =>
      let s1 := if s.pdOn 19 then s else State.railOn { s with power := { s.power with on := s.power.on ||| 0x80000 } } 19
      .next { s1 with mgmt := { s1.mgmt with act := some a } }

/-- FW_CORE_B_READY (R484): steps 2–6 of Table 20-7, or the old firmware stays. -/
def execFwCoreBReady (selfCheckOk : Bool) (s : State) : Host.Outcome State Fault Refusal :=
  match s.mgmt.act with
  | none => .next s
  | some a =>
    let s1 := { s with mgmt := { s.mgmt with act := none } }
    if selfCheckOk then
      let s2 := { s1 with
        mgmt := { s1.mgmt with fw := a.version, oldFw := s.mgmt.fw, oldCopy := s.nv.fwCopy, coreB := true, newAct := true }
        nv := { s1.nv with fwCopy := some a.copy } }
      let s3 := (s2.writeEdt).logEv (srcBlock 3) .fwActivate [a.version.toNat]
      .next (s3.finish a.cmd 0 a.version.toNat 0xFFFFFFFF false)
    else .next ((s1.logEv (srcBlock 3) .fwFailed [a.version.toNat]).finish a.cmd (stat 0 4) s.mgmt.fw.toNat 0xFFFFFFFF false)

/-- FW_WATCHDOG_EXPIRY (R484): before step 7, core A takes management back on the old firmware through steps 3–6; the revert is logged and fires
PF vector 0. -/
def execFwWatchdogExpiry (s : State) : Host.Outcome State Fault Refusal :=
  if s.mgmt.newAct then
    let s1 := { s with
      mgmt := { s.mgmt with fw := s.mgmt.oldFw, coreB := false, newAct := false }
      nv := { s.nv with fwCopy := s.mgmt.oldCopy } }
    .next ((s1.writeEdt).logVec (srcBlock 3) .fwFailed [s.mgmt.fw.toNat] 7)
  else .next s

/-- FW_CORE_A_STANDBY (R484): step 7; the activation is complete. -/
def execFwCoreAStandby (s : State) : Host.Outcome State Fault Refusal :=
  .next { s with mgmt := { s.mgmt with newAct := false } }

end Sys2Proof.Machine
end

