-- ==== Sys2Proof/Machine/Paths.lean ====
section
/-! DEFINITION. The management paths (R485–R487): the mailbox and the sideband, their requests and their responses. -/

namespace Sys2Proof.Machine

def State.path (s : State) : MgmtPath → PathSt
  | .mailbox => s.mgmt.mbox
  | .sideband => s.mgmt.smb

def State.modPath (s : State) (p : MgmtPath) (f : PathSt → PathSt) : State :=
  match p with
  | .mailbox => { s with mgmt := { s.mgmt with mbox := f s.mgmt.mbox } }
  | .sideband => { s with mgmt := { s.mgmt with smb := f s.mgmt.smb } }

/-- A management message: the 16-byte header and what follows it (R487). -/
def message (op tag status : Nat) (data : List Byte) : List Byte :=
  leBytes 2 op ++ leBytes 2 tag ++ leBytes 4 data.length ++ leBytes 2 status ++ List.replicate 6 0 ++ data

/-- The mailbox is done (R485): EVENTS bit 0 in either case, PF vector 0 where mbox_irq and VEC0_MASK bit 0 are both 1. -/
def State.mboxDone (s : State) : State :=
  let s1 := { s with log := { s.log with events := s.log.events ||| 1 } }
  if s.fld .mgmt MGMT.mbox_irq = 1 ∧ bitOf (s.fld .mgmt MGMT.vec0) 0 = true then s1.fireVector 0 0 else s1

/-- The operation code of the request that runs. -/
def PathSt.op (x : PathSt) : Nat := ofLe (x.running.take 2)

/-- The arguments of the request that runs, none where the buffer does not hold them all. -/
def PathSt.args (x : PathSt) : Option (List Byte) :=
  let n := ofLe ((x.running.drop 4).take 4)
  if x.running.length < 16 + n then none else some ((x.running.drop 16).take n)

/-- The response to the request that runs is written, and the path is done (R485, R486). -/
def State.reply (s : State) (p : MgmtPath) (status : Nat) (data : List Byte) : State :=
  let x := s.path p
  let m := message x.op (ofLe ((x.running.drop 2).take 2)) status data
  let s1 := s.modPath p (fun y => { y with busy := false, done := true, response := m, given := 0 })
  match p with
  | .mailbox => s1.mboxDone
  | .sideband => s1

/-- A request starts: one with no operation of Table 20-8 is answered at once with status 1, one without a whole header with status 2. -/
def State.startRequest (s : State) (p : MgmtPath) : State :=
  let fill (x : PathSt) : List Byte := if p = .mailbox then x.request ++ List.replicate (4096 - x.request.length) 0 else x.request
  let s1 := s.modPath p (fun x => { x with busy := true, running := fill x })
  let x := s1.path p
  if x.running.length < 16 then s1.reply p 2 []
  else if x.op = 0 ∨ 7 < x.op then s1.reply p 1 []
  else s1

/-- MBOX.go (R485): ignored while busy, with mbox_overrun set. -/
def State.mboxGo (s : State) : State :=
  if s.mgmt.mbox.busy then s.modPath .mailbox (fun x => { x with overrun := true })
  else s.startRequest .mailbox

/-- The request buffer with a word of it written. -/
def putWord (l : List Byte) (off v : Nat) : List Byte :=
  let l' := l ++ List.replicate (4096 - l.length) 0
  l'.take off ++ leBytes 4 v ++ l'.drop (off + 4)

/-- An operation of Table 20-8 runs on a path whose request names it, with its arguments; arguments that are not all there are answered with
status 2. -/
def State.runOp (s : State) (p : MgmtPath) (op : Nat) (f : List Byte → State) : State :=
  let x := s.path p
  if x.busy ∧ x.op = op then
    match x.args with
    | some l => f l
    | none => s.reply p 2 []
  else s

end Sys2Proof.Machine
end

