-- ==== Sys2Proof/Machine/Management.lean ====
section
/-! DEFINITION. The management paths' commands and operations but for RESTART (R485–R488, Table 20-8), the programming of the NV image
(R478, R479, R496) and the metering snapshot (R491). -/

namespace Sys2Proof.Machine

/-! ### The mailbox and the sideband (R485, R486) -/

/-- MAILBOX_GO (R485). -/
def execMailboxGo (s : State) : Host.Outcome State Fault Refusal :=
  if !s.answers .mgmt then .next (s.absent .mgmt MGMT.go.off) else
  .next s.mboxGo

/-- SMB_BLOCK_WRITE (R486): bytes join the request under construction, of at most 4 KiB; a bad PEC is not acknowledged, and discards it. -/
def execSmbBlockWrite (bytes : List Byte) (pecOk : Bool) (s : State) : Host.Outcome State Fault Refusal :=
  if pecOk then
    .next (s.modPath .sideband (fun x => { x with request := (x.request ++ bytes.take 255).take 4096, pec := false }))
  else .next (s.modPath .sideband (fun x => { x with request := [], pec := true }))

/-- SMB_START (R486): the request starts; while one runs, the start is ignored and overrun set. -/
def execSmbStart (s : State) : Host.Outcome State Fault Refusal :=
  if s.mgmt.smb.busy then .next (s.modPath .sideband (fun x => { x with overrun := true }))
  else
    .next ((s.modPath .sideband (fun x => { x with done := false, response := [], given := 0 })).startRequest .sideband
      |>.modPath .sideband (fun x => { x with request := [] }))

/-- SMB_STATUS_READ (R486): busy, done, PEC error and overrun, which the read clears. -/
def execSmbStatusRead (s : State) : Host.Outcome State Fault Refusal :=
  let x := s.mgmt.smb
  let v := b2n x.busy + 2 * b2n x.done + 4 * b2n x.pec + 8 * b2n x.overrun
  .next ((s.modPath .sideband (fun y => { y with overrun := false })).emit (.response .sideband [BitVec.ofNat 8 v]))

/-- SMB_BLOCK_READ (R486): the next 255 B of the response. -/
def execSmbBlockRead (s : State) : Host.Outcome State Fault Refusal :=
  let x := s.mgmt.smb
  let l := (x.response.drop x.given).take 255
  .next ((s.modPath .sideband (fun y => { y with given := y.given + l.length })).emit (.response .sideband l))

/-! ### LOG_READ, METER_READ, SENSOR_READ and EVENTS (Table 20-8) -/

/-- An entry of the event log (R492). -/
def LogEntry.bytes (e : LogEntry) : List Byte :=
  let code := e.source.toNat / 4096 * 256 + (Config.eventNumber e.event.ctorIdx).toNat
  let data := (Config.eventData e.event.ctorIdx e.data).take 18
  leBytes 8 e.time.toNat ++ leBytes 2 e.source.toNat ++ leBytes 2 code ++ [Config.eventSeverity e.event.ctorIdx] ++ [e.flags]
    ++ data ++ List.replicate (18 - data.length) 0

/-- The entries held from a number on, oldest first (R496). -/
def State.logFrom (s : State) (first count : Nat) : List LogEntry :=
  (s.log.entries.reverse.filter (fun e => decide (first ≤ e.seq))).take count

/-- LOG_READ: the numbers of the oldest and the newest entry held, and the entries; with none held the two numbers are free values. -/
def execLogRead (p : MgmtPath) (s : State) : Host.Outcome State Fault Refusal :=
  .next (s.runOp p 1 (fun l =>
    if l.length < 6 ∨ 126 < byteField l 4 2 then s.reply p 2 []
    else
      match s.log.entries.getLast?, s.log.entries.head? with
      | some o, some n =>
        s.reply p 0 (leBytes 4 o.seq ++ leBytes 4 n.seq ++ (s.logFrom (byteField l 0 4) (byteField l 4 2)).flatMap LogEntry.bytes)
      | _, _ =>
        let a := s.draw
        let b := a.2.draw
        b.2.reply p 0 (leBytes 4 a.1 ++ leBytes 4 b.1)))

/-- METER_READ: the counter blocks of a run of functions, each at one instant (R490); not available in minimal mode. -/
def execMeterRead (p : MgmtPath) (s : State) : Host.Outcome State Fault Refusal :=
  .next (s.runOp p 2 (fun l =>
    let first := byteField l 0 2
    let count := byteField l 2 2
    if s.minimal then s.reply p 4 []
    else if l.length < 4 ∨ 100 < count ∨ 2049 < first + count then s.reply p 2 []
    else
      let fs := (List.range count).map (first + ·)
      let s1 := s.accrueMounted
      (fs.foldl State.meterTaken s1).reply p 0 (fs.flatMap s1.meterBlock)))

/-- The data of SENSOR_READ (DESIGN CHOICE, log entry 52: the spec gives no widths): VIN (2), P_in (4), the hottest die sensor (2) and the 16 head
temperatures (2 each). -/
def State.sensorData (s : State) : List Byte :=
  leBytes 2 s.power.vin ++ leBytes 4 s.power.pIn ++ leBytes 2 (unsigned 16 s.power.dieTemp)
    ++ s.heads.toList.flatMap (fun h => leBytes 2 (unsigned 16 h.temp))

/-- SENSOR_READ: not available in minimal mode. -/
def execSensorRead (p : MgmtPath) (s : State) : Host.Outcome State Fault Refusal :=
  .next (s.runOp p 3 (fun _ => if s.minimal then s.reply p 4 [] else s.reply p 0 s.sensorData))

/-- EVENTS: MGMT.EVENTS before the clear. -/
def execEvents (p : MgmtPath) (s : State) : Host.Outcome State Fault Refusal :=
  .next (s.runOp p 7 (fun l =>
    if l.length < 4 then s.reply p 2 []
    else
      let e := s.log.events
      let s1 := { s with log := { s.log with events := e &&& ~~~(BitVec.ofNat 13 (byteField l 0 4)) } }
      s1.reply p 0 (leBytes 4 e.toNat)))

/-! ### The NV image (R478, R479, R487, R488) -/

/-- NV_READ: bytes of a copy. -/
def execNvRead (p : MgmtPath) (s : State) : Host.Outcome State Fault Refusal :=
  .next (s.runOp p 5 (fun l =>
    let copy := byteField l 0 1
    let off := byteField l 1 4
    let len := byteField l 5 2
    if l.length < 7 ∨ 1 < copy ∨ 4032 < len ∨ 0x800000 < off + len then s.reply p 2 []
    else if s.nv.noFlash then s.reply p 5 []
    else s.reply p 0 (flashRead (if copy = 0 then s.nv.copies[0] else s.nv.copies[1]) off len)))

/-- The last piece of an image by host software (R478): the program completes with the module-owned sections that stand; an image that is not
valid leaves the target invalid (DESIGN CHOICE, log entry 51). -/
def State.endImage (s : State) (p : MgmtPath) : State :=
  let s1 := s.modNv (fun n => { n with hold := none, pieces := [] })
  match parseImage s.nv.pieces with
  | none => s1.reply p 2 []
  | some i => (s1.beginProgram s.hostTarget (i.sections.filter hostOwned) i.version true).reply p 0 []

/-- A piece is placed at its offset; the first erases the target's header. -/
def State.placePiece (s : State) (p : MgmtPath) (off : Nat) (first : Bool) (data : List Byte) : State :=
  s.modNv (fun n => { n with
    hold := some p
    holdAt := s.time.localNs
    pieces := flashPut (if first then [] else n.pieces) off data
    copies := if first then n.copies.set s.hostTarget.val (eraseHeader n.copies[s.hostTarget.val]) else n.copies })

/-- The status that an NV_WRITE piece is refused with, 0 where it is taken. -/
def State.pieceStatus (s : State) (p : MgmtPath) (l : List Byte) : Nat :=
  let off := byteField l 0 4
  let first := bitOf (byteField l 4 4) 0
  if l.length < 8 ∨ 4032 < l.length - 8 ∨ 0x800000 < off + (l.length - 8) ∨ (first = true ∧ off ≠ 0) then 2
  else if s.nv.hold.isSome ∧ s.nv.hold ≠ some p then 3
  else if s.nv.noFlash ∨ s.power.powerFail = true ∨ s.nv.programming.isSome = true then 5
  else if first = false ∧ s.nv.hold = none then 2
  else 0

/-- A piece of an image. -/
def State.nvPiece (s : State) (p : MgmtPath) (l : List Byte) : State :=
  let flags := byteField l 4 4
  match s.pieceStatus p l with
  | 0 =>
    let s1 := s.placePiece p (byteField l 0 4) (bitOf flags 0) (l.drop 8)
    if bitOf flags 1 then s1.endImage p else s1.reply p 0 []
  | st => s.reply p st []

/-- NV_WRITE (R488): a first piece takes the image for its path, at offset 0; each piece is placed at its offset. In POWER_FAIL no flash command
is issued (R479). -/
def execNvWrite (p : MgmtPath) (s : State) : Host.Outcome State Fault Refusal := .next (s.runOp p 4 (s.nvPiece p))

/-- NV_WRITE_HOLD_TIMEOUT (R488): 10 s have passed without a piece; the target stays invalid. -/
def execNvWriteHoldTimeout (s : State) : Host.Outcome State Fault Refusal :=
  if s.nv.hold.isSome ∧ s.nv.holdAt + 10000000000 ≤ s.time.localNs then .next (s.modNv (fun n => { n with hold := none, pieces := [] }))
  else .next s

/-- MODULE_IMAGE_WRITE (R478, R496): a new generation for changed module-owned content begins. -/
def execModuleImageWrite (s : State) : Host.Outcome State Fault Refusal :=
  if s.mayWriteOwned then
    let c := s.carried
    .next ((s.beginProgram s.ownedTarget c.1 c.2 false).modNv (fun n => { n with lastOwned := some s.time.localNs }))
  else .next s

/-- NV_PROGRAM_DONE (R478, R479): every sector was read back and compared. The header is written last, and the copy comes into force for
module-owned content; one that was not verified, or that POWER_FAIL cut short, stays invalid. -/
def execNvProgramDone (verified : Bool) (s : State) : Host.Outcome State Fault Refusal :=
  match s.nv.programming with
  | none => .next s
  | some (target, bytes, host) =>
    let s1 := s.modNv (fun n => { n with programming := none })
    if verified && !s.power.powerFail then
      let s2 := s1.modNv (fun n => { n with
        copies := n.copies.set target.val bytes
        inForce := some target
        gen := (n.gen + 1) % 2 ^ 64
        hostCopy := if host then some target else n.hostCopy })
      .next (s2.logEv srcNv .nvWrite [target.val])
    else .next ((s1.modNv (fun n => { n with dueOwned := n.dueOwned || !host })).logEv srcNv .imageFault [target.val])

/-- METER_SNAPSHOT (R491): every counter, with the next sequence number and the time; none is taken while no flash command may be issued
(R479). -/
def execMeterSnapshot (s : State) : Host.Outcome State Fault Refusal :=
  if s.power.powerFail || s.nv.noFlash then .next s
  else
    let s1 := s.accrueMounted
    let seq := match s1.meter.snap with
      | some x => x.1 + 1
      | none => 0
    .next { s1 with meter := { s1.meter with snap := some (seq, s1.now, s1.meter.counters) } }

end Sys2Proof.Machine
end

