-- ==== Sys2Proof/Machine/Power.lean ====
section
/-! DEFINITION. The commands of the POWER and TIMEBASE blocks but for the warm start (R444–R452, R458, R506, R511): domain writes and
switches, the governor's inputs, power failure and the loss of the reference. -/

namespace Sys2Proof.Machine

/-! ### 64-bit writes (R506) -/

def ifaceIx : Iface → Fin 3
  | .pcie => 0
  | .coreA => 1
  | .coreB => 2

/-- The source of an interface's accesses: the PF, or the MGMT block for a management core. -/
def ifaceSrc : Iface → BitVec 16
  | .pcie => srcFunc 0
  | _ => srcBlock 3

/-- The error response of an interface (R308, R495). -/
def State.writeError (s : State) (i : Iface) (kind a : Nat) : State :=
  let s1 := s.violation (ifaceSrc i) kind a
  if i = .pcie then s1.emit (.aer 0 false (BitVec.ofNat 64 a)) else s1

/-- A low-word write fills the latch of its interface. -/
def State.latchLow (s : State) (i : Iface) (addr : Nat) (v : BitVec 32) : State :=
  { s with regs := { s.regs with writeLatch := vmod s.regs.writeLatch (ifaceIx i) (fun t => Tab.put t addr v.toNat) } }

/-- A high-word write takes the latched low word, or the register's present one. -/
def State.takeLow (s : State) (i : Iface) (addr present : Nat) : Nat × State :=
  (Tab.get present (s.regs.writeLatch[(ifaceIx i).val]) addr,
    { s with regs := { s.regs with writeLatch := vmod s.regs.writeLatch (ifaceIx i) (fun t => Tab.erase t addr) } })

/-! ### DOMAIN (R445, R446) -/

/-- A codeword waits for its frames, its decode or its step. -/
def Codeword.waits (c : Codeword) : Bool :=
  match c.phase with
  | .converged | .failed => false
  | _ => true

/-- The clear of a domain's bit is refused (R446). -/
def State.clearRefused (s : State) (d : Nat) : Bool :=
  match d with
  | 13 => (s.dramCh .b).st != .active
  | 14 => (s.dramCh .a).st != .active
  | 15 => s.bays.any (fun x => x.requests.any MailReq.isRead) || s.codewords.any Codeword.waits
  | 16 => !s.cipher.queue.isEmpty || s.cipher.cores.any (fun c => c.job.isSome)
  | 18 => s.funcs.any (fun p => p.2.st != .detached)
  | 19 => s.mgmt.coreB
  | _ => false

/-- The set of a domain's bit is refused: the ledger plus the allowance would exceed the cap (R446). -/
def State.setRefused (s : State) (d : Nat) : Bool := decide (s.cap < s.ledger + s.fld .power (POWER.allow_mw d))

def State.setOn (s : State) (d : Nat) (v : Bool) : State :=
  { s with power := { s.power with on := BitVec.ofNat 20 (setBit s.power.on.toNat d v) } }

/-- A bit of DOMAIN.on is written. A set of a bit whose rail is still going down ramps it up anew; in POWER_FAIL the bit is recorded
alone (R460). -/
def State.domainBit (s : State) (d : Nat) (v : Bool) : State :=
  if v = bitOf s.power.on.toNat d then s
  else if v then
    if !bitOf s.power.state.toNat d && s.setRefused d then s.flag .power POWER.domain_refused
    else if bitOf s.power.state.toNat d && !s.power.powerFail then
      State.setOn { s with power := { s.power with state := BitVec.ofNat 20 (setBit s.power.state.toNat d false) } } d true
    else s.setOn d true
  else if s.clearRefused d then s.flag .power POWER.domain_refused
  else
    let s1 := s.setOn d false
    if s.power.powerFail || !bitOf s.power.state.toNat d then s1.scanGrants else s1.domainOff d

/-- DOMAIN_WRITE (R446, R506, R512): the low word fills the latch; the high word writes the 20 bits, each refused on its own. -/
def execDomainWrite (i : Iface) (high : Bool) (value : BitVec 32) (s : State) : Host.Outcome State Fault Refusal :=
  let a := Blk.base .power
  if !s.answers .power then .next (s.writeError i 7 (if high then a + 4 else a))
  else if !high then .next (s.latchLow i a value)
  else
    let t := s.takeLow i a s.power.on.toNat
    .next ((List.range 20).foldl (fun u d => u.domainBit d (bitOf t.1 d)) t.2)

/-- DOMAIN_SWITCH_DONE (R445, Table 18-4): step 3 of a switch-on, or step 6 of a switch-off; none ends in POWER_FAIL. -/
def execDomainSwitchDone (d : Fin 20) (s : State) : Host.Outcome State Fault Refusal :=
  let on := bitOf s.power.on.toNat d.val
  let up := bitOf s.power.state.toNat d.val
  if on = up ∨ s.power.powerFail = true then .next s
  else if on then .next (s.railOn d.val)
  else .next (s.railOff d.val)

/-! ### The governor's inputs (R447, R449–R451) -/

/-- CAP_WRITE (R447). -/
def execCapWrite (v : BitVec 17) (s : State) : Host.Outcome State Fault Refusal :=
  if !s.answers .power then .next (s.absent .power POWER.cap_mw.off) else
  .next (s.setFld .power POWER.cap_mw v.toNat).scanGrants

/-- GOVERNOR_SCAN (R449). -/
def execGovernorScan (s : State) : Host.Outcome State Fault Refusal := .next s.scanGrants

/-- POWER_MEASURE (R450): over_cap is set by a mean above the cap, and cleared once the mean has stayed below 0.98 of it for 100 ms. -/
def execPowerMeasure (mw : BitVec 17) (below98For100ms : Bool) (s : State) : Host.Outcome State Fault Refusal :=
  let s1 := { s with power := { s.power with pIn := mw.toNat } }
  if s.cap < mw.toNat then
    if s.power.overCap then .next s1
    else .next (State.logVec { s1 with power := { s1.power with overCap := true } } (srcBlock 1) .overCap [mw.toNat] 10)
  else if s.power.overCap && below98For100ms then
    .next (State.scanGrants { s1 with power := { s1.power with overCap := false } })
  else .next s1

/-- THERMAL_WARN (R451): at 100 °C. -/
def execThermalWarn (temp : BitVec 16) (s : State) : Host.Outcome State Fault Refusal :=
  let s1 := { s with power := { s.power with dieTemp := temp.toInt } }
  if s.power.thermalWarn = true ∨ temp.toInt < 1600 then .next s1
  else .next (State.logVec { s1 with power := { s1.power with thermalWarn := true } } (srcBlock 1) .thermalWarn [temp.toNat] 11)

/-- THERMAL_WARN_CLEAR (R451): every sensor is below 95 °C. -/
def execThermalWarnClear (s : State) : Host.Outcome State Fault Refusal :=
  if s.power.thermalWarn then .next (State.scanGrants { s with power := { s.power with thermalWarn := false } }) else .next s

/-! ### Power failure (R452, Table 18-6) -/

/-- An axis whose bridge turns off. -/
def State.axisBridgeOff (s : State) (a : AxisId) : State :=
  match (s.axis a).st with
  | .off | .fault => s
  | _ => s.modAxis a (fun y => y.drop .disabled)

/-- A drive whose bridge turns off: its disc coasts, and it is to start again unless it was stopping. -/
def State.driveBridgeOff (s : State) (b : BayId) : State :=
  let x := s.spindle b
  if x.st = .off ∨ x.st = .idle ∨ x.st = .fault then s
  else if x.st = .stop ∧ x.stopFault = true then s.spindleFault b x.faultCause
  else (s.modSpindle b (fun y => { y.bridgeOff .idle with wantStart := y.wantStart || y.st != .stop })).spindleStopped b

/-- A head's seek is dropped, and the bridges of its sled and SA axes turn off. -/
def State.headBridgesOff (s : State) (g : HeadId) : State :=
  ((s.modTrk g (fun k => { k with seek := none })).axisBridgeOff (.sled g)).axisBridgeOff (.sa g)

/-- Step 3 of Table 18-6 at a bay: the drive's bridge off, so that the disc coasts, and its sled and SA bridges off. -/
def State.bayBridgesOff (s : State) (b : BayId) : State := (s.driveBridgeOff b).eachHead b State.headBridgesOff

/-- Step 3 of Table 18-6: the grant queue and every grant are gone, the bays' bridges are off, and the transport axes stand at hold
current. -/
def State.bridgesOff (s : State) : State :=
  let s1 := (List.finRange 8).foldl State.bayBridgesOff { s with power := { s.power with queue := [], held := [] } }
  { s1 with trans := s1.trans.map (fun (t : Transport) =>
      match t.ax.st with
      | .off | .disabled | .fault => t
      | _ => { t with ax := { t.ax.rest with cur := .hold, home := none } }) }

/-- POWER_FAIL is entered (Table 18-6). -/
def State.powerFailure (s : State) : State :=
  if s.power.powerFail then s
  else
    let s1 := State.bridgesOff { s with power := { s.power with powerFail := true } }
    let s2 := { s1 with power := { s1.power with queue := [], held := [] } }
    (s2.flag .power POWER.power_fail_seen).logVec (srcBlock 1) .powerFail [] 12

/-- PWR_GOOD_DEASSERT (R452). -/
def execPwrGoodDeassert (s : State) : Host.Outcome State Fault Refusal := .next s.powerFailure

/-- VIN_UNDERVOLT (R452): VIN, in 10 mV, has stayed below 8.5 V. -/
def execVinUndervolt (vin : BitVec 16) (s : State) : Host.Outcome State Fault Refusal :=
  let s1 := { s with power := { s.power with vin := vin.toNat } }
  if vin.toNat < 850 then .next s1.powerFailure else .next s1

/-- Drives that were to run ask for their grants (R452). -/
def State.restartDrives (s : State) : State :=
  (List.finRange 8).foldl (fun (t : State) b =>
    if (t.spindle b).wantStart ∧ (t.spindle b).st = .idle then t.requestGrant .spin b.val else t) s

/-- POWER_FAIL_END (R452, R460): domain bits that were recorded switch, the drives restart, and the governor resumes. -/
def execPowerFailEnd (s : State) : Host.Outcome State Fault Refusal :=
  if !s.power.powerFail then .next s
  else
    let s1 := State.logEv { s with power := { s.power with powerFail := false } } (srcBlock 1) .powerFailEnd []
    let s2 := (List.range 20).foldl (fun (t : State) d =>
      if bitOf t.power.state.toNat d && !bitOf t.power.on.toNat d then t.domainOff d else t) s1
    .next (s2.restartDrives).scanGrants

/-! ### The reference and the offset (R458, R511) -/

/-- A channel in self-refresh: what it holds stays, but a copy that was out of service trains to be resilvered (R483, Table 15-2). -/
def DramCh.selfRefresh (x : DramCh) : DramCh :=
  match x.st with
  | .active | .switching | .training | .off => { x with st := .off, attempts := 0 }
  | _ => { x with st := .off, attempts := 0, rejoin := true, fresh := [] }

/-- REFERENCE_LOST (R458): steps 2 and 3 of Table 18-6, both DRAM channels in self-refresh, both chain ports in DOWN. -/
def execReferenceLost (s : State) : Host.Outcome State Fault Refusal :=
  if s.time.refLost then .next s
  else
    let s1 := State.bridgesOff { s with time := { s.time with refLost := true } }
    let s2 := State.chainHold { s1 with drams := s1.drams.map DramCh.selfRefresh }
    .next ((s2.flag .timebase TIMEBASE.ref_lost_seen).logVec (srcBlock 2) .refLost [] 5)

/-- TIMEBASE_OFFSET_WRITE (R506, R511): the high word steps the published timebase, which is logged with its size. -/
def execTimebaseOffsetWrite (i : Iface) (high : Bool) (value : BitVec 32) (s : State) : Host.Outcome State Fault Refusal :=
  let a := Blk.base .timebase + 0x10
  if !high then .next (s.latchLow i a value)
  else
    let t := s.takeLow i a (s.time.offset.toNat % 2 ^ 32)
    let new : BitVec 64 := value ++ BitVec.ofNat 32 t.1
    let step := (new - s.time.offset).toInt
    let s1 := { t.2 with time := { t.2.time with offset := new } }
    .next ((s1.flag .timebase TIMEBASE.stepped).logEv (srcBlock 2) .offsetStep [step.natAbs, b2n (decide (step < 0))])

end Sys2Proof.Machine
end

