-- ==== Sys2Proof/Machine/Flags.lean ====
section
/-! DEFINITION. What each status field of the register map shows of the machine's state (the RO and W1C fields whose home is not the
register itself), and what a read of a field returns (Table 00-3, R8, R309, R502). -/

namespace Sys2Proof.Machine

/-- The code of a value: its place in the list that its register table gives. -/
def codeIn {α : Type} [BEq α] (l : List α) (x : α) : Nat := l.findIdx (· == x)

def EngState.code : EngState → Nat := codeIn [.off, .idle, .run, .hold, .override, .spare, .retired]
def FocState.code : FocState → Nat := codeIn [.off, .sweep, .capture, .identify, .locked, .jump, .recapture, .failed]
def TrkState.code : TrkState → Nat := codeIn [.off, .hold, .acquire, .confirm, .follow, .jump, .seek, .failed]
def TableState.code : TableState → Nat := codeIn [.none, .active, .learning, .blending]
def SpState.code : SpState → Nat := codeIn [.off, .idle, .sense, .brake, .align, .ramp, .run, .coast, .resync, .stop, .fault]
def AxState.code : AxState → Nat := codeIn [.off, .disabled, .hold, .moving, .homing, .fault]
def BeamState.code : BeamState → Nat := codeIn [.idle, .acquire, .track, .coast, .resync]
def SessState.code : SessState → Nat := codeIn [.read, .slowing, .writing, .resuming]
def DecState.code : DecState → Nat := codeIn [.active, .spare, .retired, .failed]
def MountState.code : MountState → Nat := codeIn [.none, .mounting, .mounted, .readOnly]
def FState.code : FState → Nat := codeIn [.detached, .attaching, .attached, .detaching]
def DramState.code : DramState → Nat := codeIn [.off, .training, .active, .switching, .frozen, .diagnose, .resilver, .failed]
def CipherState.code : CipherState → Nat := codeIn [.off, .keygen, .ready, .alarm]
def CoreState.code : CoreState → Nat := codeIn [.active, .testing, .fenced]
def PortState.code : PortState → Nat := codeIn [.down, .train, .up, .failed]
def LaneState.code : LaneState → Nat := codeIn [.down, .train, .up, .failed]

/-- The values of a list as fields of w bits each, the first lowest. -/
def packBits (w : Nat) : List Nat → Nat
  | [] => 0
  | x :: r => x % 2 ^ w + 2 ^ w * packBits w r

/-- The bits of a list, the first lowest. -/
def packFlags (l : List Bool) : Nat := packBits 1 (l.map b2n)

/-! ### The control plane -/

/-- The state of a head's slot engine (Table 04-2). -/
def State.slotState' (s : State) (g : HeadId) : EngState :=
  let h := s.heads[g.val]
  if h.slotOff then .off
  else if (List.finRange 16).any (fun x => (s.heads[x.val]).retired.any (fun r => r.phys == h.slot)) then .retired
  else match ((List.finRange 16).flatMap (fun x => (s.heads[x.val]).loops.toList)).find? (fun l => l.runner == h.slot) with
    | some l => l.st
    | none => .spare

def State.engHomes (s : State) (g : HeadId) (e : EngId) : List (Field × Nat) :=
  if h : e.val < 6 then
    let l : Fin 6 := ⟨e.val, h⟩
    let x := s.heads[g.val].loops[e.val]
    [(ENG.state g.val e.val, x.st.code), (ENG.phys_engine g.val e.val, x.runner), (ENG.on_spare, b2n x.onSpare),
     (ENG.commit_pending, b2n (s.pendingSet (tagEng g e.val))), (ENG.factory_set, b2n (s.factorySet g l)),
     (ENG.out, x.out.toNat), (ENG.in_val, x.inp.toNat)]
  else [(ENG.state g.val e.val, (s.slotState' g).code), (ENG.phys_engine g.val e.val, s.heads[g.val].slot)]

def State.focHomes (s : State) (g : HeadId) : List (Field × Nat) :=
  let f := s.heads[g.val].foc
  [(FOC.state, f.st.code), (FOC.side_layer, (f.sl.map BitVec.toNat).getD 0x1F), (FOC.fail_cause, f.failCause.toNat),
   (FOC.loss_count, min 255 f.lossCount), (FOC.sum_ref, f.sumRef.toNat), (FOC.last_step, f.lastStep), (FOC.last_acq, f.lastAcq)]

def State.trkHomes (s : State) (g : HeadId) : List (Field × Nat) :=
  let h := s.heads[g.val]
  let t := h.trk
  [(TRK.state, t.st.code), (TRK.track, t.track.toNat), (TRK.fail_cause, t.failCause.toNat),
   (TRK.table_state, packBits 2 (h.runout.toList.map (fun r => r.table.code))),
   (TRK.fetch_pending, b2n (h.runout.toList.any (fun r => r.fetching))),
   (TRK.last_seek, t.lastSeek), (TRK.last_jump, t.lastJump)]
   ++ (List.finRange 4).map (fun k => (TRK.beam_off k.val, unsigned 8 t.beamOff[k.val]))

def State.spindleHomes (s : State) (b : BayId) : List (Field × Nat) :=
  let x := s.spindle b
  [(SPINDLE.state, x.st.code), (SPINDLE.at_speed, b2n x.atSpeed), (SPINDLE.fw_active, b2n x.fwActive),
   (SPINDLE.speed_limited, b2n x.limited), (SPINDLE.grant_wait, b2n x.grantWait), (SPINDLE.regen_active, b2n x.regen),
   (SPINDLE.fault_cause, x.faultCause.toNat), (SPINDLE.loss_count, min 255 x.lossCount), (SPINDLE.speed, unsigned 17 x.speed),
   (SPINDLE.iq, unsigned 16 x.iq), (SPINDLE.id, unsigned 16 x.id), (SPINDLE.mod_depth, x.mod), (SPINDLE.vin, x.vin),
   (SPINDLE.p_in, unsigned 16 x.pIn), (SPINDLE.last_start, x.lastStart), (SPINDLE.last_coast, x.lastCoast)]

def axisHomes (x : Axis) : List (Field × Nat) :=
  [(AXIS.state, x.st.code), (AXIS.STATUS_mode, x.mode), (AXIS.homed, b2n x.homed), (AXIS.fault_cause, x.faultCause.toNat),
   (AXIS.segment, x.seg), (AXIS.pos, unsigned 32 x.pos), (AXIS.vel, unsigned 32 x.vel)]

/-- The PRICK table reads back the pricking in force (R217). -/
def prickHomes (x : Axis) : List (Field × Nat) :=
  if x.st = .moving ∧ x.mode = 1 then
    (SLSA.pcount, x.prick.length) :: (x.prick.mapIdx (fun i p =>
      [(SLSA.prick_duration i, p.dur), (SLSA.prick_position i, unsigned 32 p.pos), (SLSA.prick_velocity i, unsigned 32 p.vel)])).flatten
  else []

def State.taxisHomes (s : State) (n : Fin 4) : List (Field × Nat) :=
  let t := s.trans[n.val]
  axisHomes t.ax ++
    [(TAXIS.armed, b2n t.armed), (TAXIS.ratio_p, unsigned 16 t.p), (TAXIS.ratio_q, t.q), (TAXIS.steps, t.stepCount.toNat)]

/-- A sled or SA axis of the bay in FAULT, or unhomed after domain loss (Table 21-3). -/
def State.axisFaulty (s : State) (b : BayId) : Bool :=
  (bayHeads b).any (fun g => [s.sleds[g.val], s.sas[g.val]].any (fun x => x.st == .fault || (x.lostHome && !x.homed)))

/-- The bits [5:1] of SEQ.STATUS, as causes (R500). -/
def State.seqCauses (s : State) (b : BayId) : List Bool :=
  let x := s.bays[b.val]
  [s.bareGroup b, x.unusable, s.t2Inside b, x.spindle.st == .fault, s.axisFaulty b]

def State.seqHomes (s : State) (b : BayId) : List (Field × Nat) :=
  let x := s.bays[b.val]
  let l := s.seqCauses b
  [(SEQ.available, b2n (!l.any id && s.pdOn b.val && s.pdOn (motorPd b))),
   (SEQ.bare_group, b2n (l.getD 0 false)), (SEQ.disc_unusable, b2n (l.getD 1 false)), (SEQ.interlock, b2n (l.getD 2 false)),
   (SEQ.spindle_fault, b2n (l.getD 3 false)), (SEQ.axis_fault, b2n (l.getD 4 false)), (SEQ.margin, b2n (decide (0 < x.speedStep))),
   (SEQ.mailbox, x.requests.length)]

/-! ### The data plane -/

def State.linkHomes (s : State) (g : HeadId) : List (Field × Nat) :=
  [(LINK.lane_state, packBits 2 (s.heads[g.val].lanes.toList.map (fun l => l.st.code)))]

def State.chanHomes (s : State) (g : HeadId) : List (Field × Nat) :=
  [(CHAN.beam_state, packBits 3 (s.beams[g.val].toList.map (fun x => x.st.code))), (CHAN.bare_set, b2n (!s.committedOnce (tagChan g)))]

def State.beamHomes (s : State) (g : HeadId) (k : BeamId) : List (Field × Nat) :=
  let x := s.beams[g.val][k.val]
  [(BEAM.state, x.st.code), (BEAM.pending, b2n x.pend.isSome), (BEAM.infer_run, x.inferRun), (BEAM.header_slip, min 255 x.slips),
   (BEAM.gain, x.vals.gain), (BEAM.pga, x.vals.pga), (BEAM.offset, unsigned 16 x.vals.offset), (BEAM.asym, unsigned 16 x.vals.asym),
   (BEAM.freq, unsigned 24 x.freq)]
   ++ (List.finRange 29).map (fun i => (BEAM.tap i.val, unsigned 16 x.vals.taps[i.val]))

def State.wrHomes (s : State) (g : HeadId) : List (Field × Nat) :=
  let used (outer : Bool) : Nat := ((s.heads[g.val].foc.sl).map (fun sl => s.opcUsed g sl outer)).getD 0
  [(WR.session, (s.bays[(bayOf g).val].sess).code), (WR.write_service, b2n (s.writeService g)),
   (WR.inner_used, used false), (WR.outer_used, used true)]

def State.vchanHomes (s : State) (g : HeadId) : List (Field × Nat) :=
  [(VCHAN.active, if (s.wrs[g.val]).stream then 0xF else 0), (VCHAN.bare_set, b2n (!s.committedOnce (tagVchan g)))]

def State.decodeHomes (s : State) : List (Field × Nat) :=
  let d := s.decoders.toList
  [(DECODE.active, packFlags (d.map (fun x => x.st == .active))), (DECODE.spares, (d.filter (fun x => x.st == .spare)).length),
   (DECODE.bare_set, b2n (!s.committedOnce 0x0800)), (DECODE.q_depth, min 0xFFF (s.readyQueue).length)]
   ++ (List.finRange 20).flatMap (fun i =>
        let x := s.decoders[i.val]
        [(DECODE.dec_state i.val, x.st.code), (DECODE.dec_codewords i.val, x.count)])
   ++ (List.finRange 8).flatMap (fun b =>
        let m := s.mounts[b.val]
        [(DECODE.mstate b.val, m.st.code), (DECODE.ro_cause b.val, m.roCause), (DECODE.rolled_forward b.val, b2n m.rolled),
         (DECODE.mount_generation b.val, m.generation), (DECODE.mount_covered b.val, m.covered)])

def State.queueHomes (s : State) : List (Field × Nat) :=
  [(QUEUE.active_lines, (s.lines.filter (fun l => !l.parked)).length), (QUEUE.used, s.overlapUsed)]

def State.funcHomes (s : State) (f : FuncId) : List (Field × Nat) :=
  [(FUNC.state, (s.func f).st.code), (FUNC.outstanding, s.outstanding f)]

/-- Commands that wait on a pool or a quota. -/
def State.heldCmds (s : State) : Nat :=
  (s.cmds.filter (fun c => c.onQuota || s.poolWaits.any (fun w => w.cmd == c.id))).length

def State.poolHomes (s : State) (p : Fin 16) : List (Field × Nat) :=
  [(POOL.free, s.poolFree p), (POOL.waiting, (s.poolWaits.filter (fun w => w.pool == p)).length)]

def State.quotaHomes (s : State) (r : ReqId) : List (Field × Nat) :=
  let q := s.quota r.val
  [(QUOTA.held, q.held), (QUOTA.peak, q.peak),
   (QUOTA.waits, min 0xFFFF (s.cmds.filter (fun c => c.onQuota && c.f.val == r.val)).length)]

def State.cacheHomes (s : State) : List (Field × Nat) :=
  let c := s.cache
  [(CCACHE.op_state, match c.op with
      | none => 0
      | some (.preload _ _ _ _) => 1
      | some .cleanAll => 3
      | some _ => 2),
   (CCACHE.dirty, b2n (c.lines.any (fun p => p.2.dirty))), (CCACHE.draining, c.draining / 256), (CCACHE.lock_mask, c.locked),
   (CCACHE.power_state, c.powered)]

def State.dramHomes (s : State) (c : DramChan) : List (Field × Nat) :=
  let x := s.dramCh c
  [(DRAMC.state, x.st.code), (DRAMC.active_set, x.set), (DRAMC.mismatch, b2n x.mismatch), (DRAMC.raa_imt, x.imt), (DRAMC.raa_mmt, x.mmt)]

def State.memprotHomes (s : State) : List (Field × Nat) :=
  [0, 1].flatMap (fun c => (List.range 4).flatMap (fun i =>
    let b := markWord s.marks c / 256 ^ i % 256
    [(MEMPROT.mark_device c i, b % 16), (MEMPROT.mark_valid c i, b / 128)]))

def State.ceHomes (s : State) (i : Fin 32) : List (Field × Nat) :=
  match s.ceTable[i.val]? with
  | none => []
  | some e =>
    [(CE.addr, e.addr % 2 ^ 32), (CE.addr_hi, e.addr / 2 ^ 32), (CE.kind, b2n e.sram), (CE.valid, 1), (CE.source, e.source.toNat),
     (CE.devices, e.devices), (CE.bytes, e.bytes), (CE.count, min 0xFFFF e.count), (CE.time_lo, e.time.toNat % 2 ^ 32),
     (CE.time_hi, e.time.toNat / 2 ^ 32)]

def State.cipherHomes (s : State) : List (Field × Nat) :=
  let c := s.cipher
  [(CIPHER.state, c.st.code), (CIPHER.cause, c.cause.toNat), (CIPHER.active, c.active.toNat), (CIPHER.epoch, c.epoch),
   (CIPHER.loaded, (s.slots.filter (fun p => s.slotState p.1 == 1)).length), (CIPHER.cached, c.cache.length),
   (CIPHER.depth, min 4096 c.queue.length)]
   ++ (List.finRange 8).flatMap (fun i =>
        [(CIPHER.core_state i.val, (c.cores[i.val]).st.code), (CIPHER.core_units i.val, (c.cores[i.val]).units)])

/-- The module IDs that the route tables of both ports hold. -/
def State.members (s : State) : Nat :=
  (((s.port 0).seen.map (·.1)) ++ ((s.port 1).seen.map (·.1))).eraseDups.length

def State.chainHomes (s : State) : List (Field × Nat) :=
  let c := s.chain
  [(CHAIN.topology, s.topology), (CHAIN.dup_id, b2n c.dupId), (CHAIN.commit_pending, b2n (s.pendingSet 0x0900)),
   (CHAIN.time_locked, b2n (decide (8 ≤ c.locked))), (CHAIN.dup_master, b2n s.dupMaster), (CHAIN.epoch, c.epoch),
   (CHAIN.hops_to_master, s.hopsToMaster), (CHAIN.members, s.members), (CHAIN.offset, unsigned 32 c.offset),
   (CHAIN.cu_state, (s.port 0).st.code), (CHAIN.cd_state, (s.port 1).st.code), (CHAIN.cu_lanes, (s.port 0).lanes),
   (CHAIN.cd_lanes, (s.port 1).lanes)]

/-! ### The management plane -/

def State.powerHomes (s : State) : List (Field × Nat) :=
  let p := s.power
  let held (c : GrantClass) : Nat := (p.held.filter (fun x => x.cls == c)).length
  [(POWER.domain_on, p.on.toNat), (POWER.domain_state, p.state.toNat), (POWER.over_cap, b2n p.overCap),
   (POWER.thermal_warn, b2n p.thermalWarn), (POWER.power_fail, b2n p.powerFail), (POWER.committed_mw, s.ledger),
   (POWER.p_in_mw, p.pIn), (POWER.spin_held, held .spin), (POWER.seek_held, held .seek), (POWER.write_held, held .write),
   (POWER.queued, p.queue.length), (POWER.vin, p.vin), (POWER.die_temp, unsigned 16 p.dieTemp)]

def State.timebaseHomes (s : State) : List (Field × Nat) :=
  let t := s.time
  [(TIMEBASE.now_lo, s.now.toNat % 2 ^ 32), (TIMEBASE.now_hi, s.now.toNat / 2 ^ 32), (TIMEBASE.local_lo, t.localNs % 2 ^ 32),
   (TIMEBASE.local_hi, t.localNs / 2 ^ 32), (TIMEBASE.offset_lo, t.offset.toNat % 2 ^ 32), (TIMEBASE.offset_hi, t.offset.toNat / 2 ^ 32),
   (TIMEBASE.ref_lost, b2n t.refLost), (TIMEBASE.refsel, b2n t.refsel), (TIMEBASE.slew, unsigned 16 t.slew)]

def State.calibHomes (s : State) : List (Field × Nat) :=
  [(CALIB.vcore_steps, s.calib.vcore), (CALIB.stored, s.discStore.length)]
   ++ (List.finRange 8).flatMap (fun b =>
        [(CALIB.bay_step b.val, s.bays[b.val].speedStep), (CALIB.bay_rpm b.val, s.readRpm b)])
   ++ (List.finRange 16).flatMap (fun g =>
        [(CALIB.head_temp g.val, unsigned 16 (s.heads[g.val]).temp), (CALIB.head_sensor_fault g.val, b2n (s.heads[g.val]).sensorFault)])

def State.mgmtHomes (s : State) : List (Field × Nat) :=
  let m := s.mgmt.mbox
  let l := s.log
  [(MGMT.busy, b2n m.busy), (MGMT.done, b2n m.done), (MGMT.mbox_overrun, b2n m.overrun), (MGMT.events, l.events.toNat),
   (MGMT.viol_addr, l.violAddr.toNat), (MGMT.viol_source, l.violSource.toNat), (MGMT.viol_kind, l.violKind),
   (MGMT.viol_count, l.violCount.toNat)]

def State.nvHomes (s : State) : List (Field × Nat) :=
  let n := s.nv
  [(NVIMAGE.in_force, match n.inForce with
      | some c => c.val
      | none => 3),
   (NVIMAGE.image_absent, b2n n.absent), (NVIMAGE.programming, b2n (n.programming.isSome || n.hold.isSome)),
   (NVIMAGE.fail_count, s.failCount), (NVIMAGE.gen_lo, n.gen % 2 ^ 32), (NVIMAGE.gen_hi, n.gen / 2 ^ 32)]

def State.globalHomes (s : State) : List (Field × Nat) :=
  [(GLOBAL.mode, if s.minimal then 2 else if s.mgmt.started then 1 else 0), (GLOBAL.start_done, b2n s.mgmt.started),
   (GLOBAL.fail_count, s.failCount), (GLOBAL.reason, s.mgmt.reason), (GLOBAL.pending, b2n (!s.regs.waiting.isEmpty)),
   (GLOBAL.version, s.mgmt.fw.toNat), (GLOBAL.blocks, s.readyBlocks), (GLOBAL.bays, s.readyBays)]

/-! ### A field as it reads -/

/-- The status fields of a block that show state held elsewhere. -/
def State.homes (s : State) : Blk → List (Field × Nat)
  | .global => s.globalHomes
  | .power => s.powerHomes
  | .timebase => s.timebaseHomes
  | .mgmt => s.mgmtHomes
  | .nvimage => s.nvHomes
  | .queue => s.queueHomes
  | .bufpool => [(BUFPOOL.held_cmds, s.heldCmds)]
  | .ccache => s.cacheHomes
  | .dramc c => s.dramHomes c
  | .memprot => s.memprotHomes
  | .cipher => s.cipherHomes
  | .chain => s.chainHomes
  | .decode => s.decodeHomes
  | .calib => s.calibHomes
  | .spindle b => s.spindleHomes b
  | .seq b => s.seqHomes b
  | .foc g => s.focHomes g
  | .trk g => s.trkHomes g
  | .wr g => s.wrHomes g
  | .eng g e => s.engHomes g e
  | .sled g => axisHomes s.sleds[g.val] ++ prickHomes s.sleds[g.val]
  | .sa g => axisHomes s.sas[g.val] ++ prickHomes s.sas[g.val]
  | .chan g => s.chanHomes g
  | .beam g k => s.beamHomes g k
  | .vchan g => s.vchanHomes g
  | .link g => s.linkHomes g
  | .taxis n => s.taxisHomes n
  | .enc i => [(ENC.count, s.encs[i.val].count.toNat), (ENC.illegal, s.encs[i.val].errors)]
  | .func f => s.funcHomes f
  | .pool p => s.poolHomes p
  | .quota r => s.quotaHomes r
  | .ce i => s.ceHomes i
  | _ => []

/-- What a read of a field returns (Table 00-3): WO reads 0, a status field what it shows, an RW-S field its shadow (R8), which in ENG[6],
where it is RO, keeps its reset value (R502). -/
def State.readField (s : State) (b : Blk) (f : Field) : Nat :=
  match (s.homes b).find? (fun p => p.1 == f) with
  | some p => p.2 % 2 ^ f.width
  | none =>
    match f.cls with
    | .wo => 0
    | .ro | .w1c | .w1s => s.sta b f
    | _ => s.fld b f

end Sys2Proof.Machine
end

