-- ==== Sys2Proof/Machine/Operands.lean ====
section
/-! DEFINITION. The operands of register accesses: which block and fields an offset of PF BAR0 names (R498, R499, Tables 21-1 and 21-2), the
word that a read returns, and the 64-bit registers (R506, R507). -/

namespace Sys2Proof.Machine

/-- The instance of an indexed group of n blocks of a stride, from an offset into the group. -/
def instAt (n stride off : Nat) : Option (Fin n) :=
  if h : off / stride < n then some ⟨off / stride, h⟩ else none

/-- The sub-block of a head, by its offset from HEAD[h] (Table 21-2). -/
def headBlk (g : HeadId) (o : Nat) : Option Blk :=
  if o < 0x1C00 then (instAt 7 0x400 o).map (Blk.eng g)
  else if o < 0x3000 then none
  else if o < 0x5000 then some (.sled g)
  else if o < 0x8000 then some (.sa g)
  else if o < 0x8400 then some (.chan g)
  else if o < 0x8C00 then (instAt 4 0x200 (o - 0x8400)).map (Blk.beam g)
  else if o < 0xA000 then none
  else if o < 0xC000 then some (.vchan g)
  else some (.link g)

/-- The sub-block of a bay, by its offset from BAY[b] (Table 21-2). -/
def bayBlk (b : BayId) (o : Nat) : Option Blk :=
  if o < 0x8000 then some (.spindle b)
  else if o < 0x8400 then some (.seq b)
  else if o < 0x8600 then (instAt 2 0x100 (o - 0x8400)).map (fun h => Blk.foc (headOf b h))
  else if o < 0x8800 then (instAt 2 0x100 (o - 0x8600)).map (fun h => Blk.trk (headOf b h))
  else if o < 0x8A00 then (instAt 2 0x100 (o - 0x8800)).map (fun h => Blk.wr (headOf b h))
  else if o < 0x40000 then none
  else if o < 0x80000 then headBlk (headOf b 0) (o - 0x40000)
  else if o < 0xC0000 then headBlk (headOf b 1) (o - 0x80000)
  else none

/-- An indexed group within a block, or the block itself. -/
def within' (o first stride n : Nat) (group : Fin n → Blk) (other : Blk) : Option Blk :=
  if first ≤ o ∧ o < first + stride * n then (instAt n stride (o - first)).map group else some other

/-- The block whose registers an offset of PF BAR0 falls among (Table 21-1). -/
def blkAt (a : Nat) : Option Blk :=
  if a < 0x10000 then some .global
  else if a < 0x20000 then some .power
  else if a < 0x30000 then some .timebase
  else if a < 0x40000 then some .mgmt
  else if a < 0x50000 then some .nvimage
  else if a < 0x100000 then none
  else if a < 0x180000 then within' (a - 0x100000) 0x1000 0x10 2049 Blk.func .queue
  else if a < 0x1C0000 then
    (if a - 0x180000 < 0x1000 then within' (a - 0x180000) 0x100 0x20 16 Blk.pool .bufpool
     else within' (a - 0x180000) 0x1000 0x10 2052 Blk.quota .bufpool)
  else if a < 0x200000 then within' (a - 0x1C0000) 0x20 0x10 3 Blk.region .ccache
  else if a < 0x240000 then within' (a - 0x200000) 0x40 0x20 2 (Blk.tset .a) (.dramc .a)
  else if a < 0x280000 then within' (a - 0x240000) 0x40 0x20 2 (Blk.tset .b) (.dramc .b)
  else if a < 0x300000 then
    (if a - 0x280000 < 0x100 then within' (a - 0x280000) 0x40 0x10 8 Blk.mirror .memprot
     else within' (a - 0x280000) 0x100 0x20 32 Blk.ce .memprot)
  else if a < 0x380000 then some .cipher
  else if a < 0x400000 then
    (if a - 0x380000 < 0x900 then within' (a - 0x380000) 0x100 0x20 64 Blk.win .chain
     else within' (a - 0x380000) 0x900 0x10 64 Blk.cmirror .chain)
  else if a < 0x800000 then some .decode
  else if a < 0x1000000 then
    (match instAt 8 0x100000 (a - 0x800000) with
     | some b => bayBlk b ((a - 0x800000) % 0x100000)
     | none => none)
  else if a < 0x1100000 then
    (let o := a - 0x1000000
     if o < 0x800 then (instAt 4 0x200 o).map Blk.taxis
     else if 0x1000 ≤ o ∧ o < 0x1040 then (instAt 2 0x20 (o - 0x1000)).map Blk.enc
     else if 0x1100 ≤ o ∧ o < 0x1140 then (instAt 8 8 (o - 0x1100)).map Blk.zone
     else none)
  else if a < 0x1200000 then some .calib
  else if a < 0x1300000 then some .selftest
  else none

/-- The index of the block of Table 21-1 whose span holds an offset; 17 for a bay, none outside every span. -/
def spanAt (a : Nat) : Option Nat :=
  if a < 0x50000 then some (a / 0x10000)
  else if a < 0x100000 then none
  else if a < 0x180000 then some 5
  else if a < 0x1C0000 then some 6
  else if a < 0x200000 then some 7
  else if a < 0x240000 then some 8
  else if a < 0x280000 then some 9
  else if a < 0x300000 then some 10
  else if a < 0x380000 then some 11
  else if a < 0x400000 then some 12
  else if a < 0x800000 then some 13
  else if a < 0x1000000 then some 17
  else if a < 0x1300000 then some (14 + (a - 0x1000000) / 0x100000)
  else none

/-- What holds an offset answers (R309, R508); outside every span a read returns 0 all the same. -/
def State.spanAnswers (s : State) (a : Nat) : Bool :=
  match spanAt a with
  | some 17 => s.readyBays != 0
  | some i => bitOf s.readyBlocks i
  | none => true

/-- The fields of the word at an offset. -/
def wordFields (a : Nat) : List (Blk × Field) :=
  match blkAt a with
  | some b => (b.fields.filter (fun f => b.base + f.off == a)).map (fun f => (b, f))
  | none => []

/-- A byte of the mailbox buffers (R485): the request at MGMT 0x1000, the response at 0x2000. -/
def State.mboxWord (s : State) (a : Nat) : Option Nat :=
  if 0x31000 ≤ a ∧ a < 0x32000 then some (ofLe ((s.mgmt.mbox.request.drop (a - 0x31000)).take 4))
  else if 0x32000 ≤ a ∧ a < 0x33000 then some (ofLe ((s.mgmt.mbox.response.drop (a - 0x32000)).take 4))
  else none

/-- The present value of the word at an offset, without a latch; an offset that nothing implements, or a block that does not answer,
reads 0 (R309, R498). -/
def State.readWord (s : State) (a : Nat) : Nat :=
  if !s.spanAnswers a then 0
  else match s.mboxWord a with
    | some v => v
    | none => ((wordFields a).map (fun p => s.readField p.1 p.2 * 2 ^ p.2.lo)).sum

/-- The low words of the 64-bit registers (R506): DOMAIN, NOW, LOCAL, OFFSET and GEN. -/
def wideLow (a : Nat) : Bool := [0x10000, 0x20000, 0x20008, 0x20010, 0x40008].contains a

/-- A read of a word by an interface (R507): the low word of a 64-bit register latches its high word, which the next read of the high word
returns. -/
def State.readBy (s : State) (i : Fin 3) (a : Nat) : Nat × State :=
  if wideLow a then
    (s.readWord a, { s with regs := { s.regs with readLatch := vmod s.regs.readLatch i (fun t => Tab.put t (a + 4) (s.readWord (a + 4))) } })
  else
    match Tab.get? s.regs.readLatch[i.val] a with
    | some v => (v, { s with regs := { s.regs with readLatch := vmod s.regs.readLatch i (fun t => Tab.erase t a) } })
    | none => (s.readWord a, s)

end Sys2Proof.Machine
end

