-- ==== Sys2Proof/Machine/RegWrite.lean ====
section
/-! DEFINITION. Register writes (R7, R308, R498, R501–R508): what each access class does with the bits written, the fields whose write is a
command of its own, and the group commits of GLOBAL.COMMIT. -/

namespace Sys2Proof.Machine

/-- The state after a command that always answers a next one. -/
def State.run (s : State) (f : State → Host.Outcome State Fault Refusal) : State :=
  match f s with
  | .next t => t
  | .fault _ => s
  | .refused _ => s

/-! ### Commits (R503–R505) -/

/-- The check of a group on its shadow set (R503). -/
def State.groupOk (s : State) (tag : Nat) : Bool :=
  match groupBlks tag with
  | .eng g e :: _ => s.engCheck (.eng g e)
  | .chan g :: _ => s.chanOk g
  | .vchan g :: _ => s.fld (.vchan g) VCHAN.verify_thr != 0
  | .decode :: _ => s.decodeOk
  | .chain :: _ => s.chainOk
  | _ => true

/-- A group is committed, with state_action 0 (R105, R505). -/
def State.commitTag (s : State) (tag : Nat) : State :=
  match groupBlks tag with
  | .eng g e :: _ => s.run (execEngCommit g e 0)
  | .foc g :: _ => s.run (execFocCommit g)
  | .trk g :: _ => s.run (execTrkCommit g)
  | .spindle b :: _ => s.run (execSpindleCommit b)
  | .sled g :: _ => s.run (execAxisCommit (.sled g))
  | .sa g :: _ => s.run (execAxisCommit (.sa g))
  | .taxis n :: _ => s.run (execAxisCommit (.transport n))
  | .chan g :: _ => s.commitChan g
  | .wr g :: _ => s.commitWr g
  | .vchan g :: _ => s.commitVchan g
  | .decode :: _ => s.commitDecode
  | .chain :: _ => s.commitChain
  | _ => s

/-- Every tag of Table 21-4, rising. -/
def allTags : List Nat :=
  (List.range 112).filterMap (fun i => if i % 7 = 6 then none else some (0x0100 + i))
    ++ (List.range 16).map (0x0200 + ·) ++ (List.range 16).map (0x0300 + ·) ++ (List.range 8).map (0x0400 + ·)
    ++ (List.range 16).map (0x0500 + ·) ++ (List.range 16).map (0x0520 + ·) ++ (List.range 4).map (0x0540 + ·)
    ++ (List.range 16).map (0x0600 + ·) ++ (List.range 16).map (0x0700 + ·) ++ (List.range 16).map (0x0720 + ·) ++ [0x0800, 0x0900]

/-- One group of a GLOBAL.COMMIT: rejected where its check fails, else awaited until it has adopted (Table 21-5). -/
def State.globalGroup (s : State) (tag : Nat) : State :=
  if s.groupOk tag then
    let s1 := s.commitTag tag
    if s1.pendingSet tag then { s1 with regs := { s1.regs with waiting := s1.regs.waiting ++ [tag] } } else s1
  else (s.commitTag tag).flag .global GLOBAL.rejected

/-- The groups whose tags lie from first to last; a last below first acts as first (R505). -/
def commitRange (first last : Nat) : List Nat :=
  let hi := if last < first then first else last
  allTags.filter (fun t => decide (first ≤ t) && decide (t ≤ hi))

/-- GLOBAL.COMMIT (R505). -/
def State.globalCommit (s : State) (first last : Nat) : State :=
  let l := commitRange first last
  let s1 := State.setSta { s with regs := { s.regs with waiting := [] } } .global GLOBAL.last_first first
  if l.isEmpty then s1.flag .global GLOBAL.no_group else l.foldl State.globalGroup s1

/-! ### RW-I (R7, R501) -/

/-- The states of an axis in which its RW-I fields are writable (Table 08-6). -/
def Axis.idle (x : Axis) : Bool :=
  match x.st with
  | .off | .disabled | .hold | .fault => true
  | _ => false

/-- A block is idle in the sense of RW-I: as its chapter says, or while its domain is off (R501). -/
def State.blkIdle (s : State) : Blk → Bool
  | .spindle b => [SpState.off, .idle, .fault].contains (s.spindle b).st
  | .sled g => (s.sleds[g.val]).idle
  | .sa g => (s.sas[g.val]).idle
  | .taxis n => (s.trans[n.val]).ax.idle
  | .zone _ => (s.trans[2]).ax.idle
  | .enc _ => !s.pdOn 12
  | .func f => (s.func f).st == .detached || !s.pdOn 18
  | .pool p => (s.fld (.pool p) POOL.enable == 0 && (s.poolUsed p).isEmpty) || !s.pdOn 18
  | .region _ => (s.fld .ccache CCACHE.enable == 0 && !s.cache.lines.any (fun p => p.2.dirty)) || !s.pdOn 18
  | .dramc c => [DramState.off, .failed].contains (s.dramCh c).st
  | .tset c n => (s.dramCh c).set != n.val || !s.pdOn (chanPd c)
  | .mirror _ => [DramState.off, .training].contains (s.dramCh .a).st && [DramState.off, .training].contains (s.dramCh .b).st
  | .chain =>
    (s.fld .chain CHAIN.enable == 0 && (s.port 0).st == .down && (s.port 1).st == .down) || !s.pdOn 17
  | .foc g | .trk g | .link g => !s.pdOn (bayOf g).val
  | _ => false

/-- The queue range of a function. -/
def State.funcRange (s : State) (f : FuncId) : Nat × Nat :=
  let b := s.fld (.func f) FUNC.base
  (b, b + s.fld (.func f) (FUNC.count f.val))

/-- A function's range as a write would leave it lies within 262,144 and meets no other function's (R354). -/
def State.funcFits (s : State) (f : FuncId) : Bool :=
  let r := s.funcRange f
  decide (r.2 ≤ 262144) && !(List.finRange 2049).any (fun g =>
    let q := s.funcRange g
    g != f && decide (r.1 < q.2) && decide (q.1 < r.2) && decide (q.1 < q.2) && decide (r.1 < r.2))

/-- A write that changes an RW-I field is taken. -/
def State.idleTakes (s : State) (b : Blk) (f : Field) (v : Nat) : Bool :=
  s.blkIdle b && (match b with
    | .func g => (s.setFld b f v).funcFits g
    | _ => true)

/-! ### The fields of a word -/

/-- Bits of a W1C field are cleared where they are written 1 (Table 00-3). -/
def State.clearW1c (s : State) (b : Blk) (f : Field) (v : Nat) : State :=
  match b with
  | .cipher => s.modCipher (fun c => { c with cause := c.cause &&& ~~~(BitVec.ofNat 4 v) })
  | .mgmt =>
    if f = MGMT.events then { s with log := { s.log with events := s.log.events &&& ~~~(BitVec.ofNat 13 v) } }
    else if f = MGMT.done then s.modPath .mailbox (fun x => { x with done := x.done && v == 0 })
    else s.modPath .mailbox (fun x => { x with overrun := x.overrun && v == 0 })
  | .memprot =>
    if v = 0 then s
    else
      let i := f.lo / 8
      s.run (execMarkClear (if f.off = 0x20 then .a else .b) ⟨i / 2 % 2, by omega⟩ ⟨i % 2, by omega⟩)
  | _ => s.setSta b f (clearBits (s.sta b f) v)

/-- A field of a spindle drive takes a value. -/
def State.putSpindle (s : State) (n : BayId) (f : Field) (v : Nat) : State :=
  if f = SPINDLE.reverse then s.run (execSpindleReverseWrite n (v == 1))
  else if f = SPINDLE.rpm then s.run (execTargetRpmWrite n (BitVec.ofNat 13 v))
  else s.setFld (.spindle n) f v

/-- A field of a sled or SA axis takes a value; CTRL.mode is a transport axis's alone. -/
def State.putAxis (s : State) (a : AxisId) (f : Field) (v : Nat) : State :=
  if f = AXIS.enable then s.run (execAxisEnableWrite a (v == 1)) else if f = AXIS.CTRL_mode then s else s.setFld (axisBlk a) f v

/-- A field of a transport axis takes a value. -/
def State.putTransport (s : State) (n : Fin 4) (f : Field) (v : Nat) : State :=
  if f = AXIS.enable then s.run (execAxisEnableWrite (.transport n) (v == 1))
  else if f = AXIS.CTRL_mode then s.run (execAxisModeWrite n (BitVec.ofNat 2 v))
  else if f = AXIS.target then s.run (execAxisTargetWrite n (BitVec.ofNat 32 v))
  else s.setFld (.taxis n) f v

/-- BUFPOOL.CTRL takes a value: once enabled, every pool's wait list is retried. -/
def State.putBufpool (s : State) (f : Field) (v : Nat) : State :=
  let s1 := s.setFld .bufpool f v
  if v = 1 then (List.finRange 16).foldl (fun (u : State) p => u.retryAll p u.poolWaits.length) s1 else s1

/-- A field of the context cache takes a value. -/
def State.putCcache (s : State) (f : Field) (v : Nat) : State :=
  if f = CCACHE.enable then s.run (execCacheEnableWrite (v == 1))
  else if f = CCACHE.way_on then s.run (execWayPowerWrite (BitVec.ofNat 8 v))
  else s.setFld .ccache f v

/-- A field of the chain port takes a value; a new ID ends the condition of a duplicate (R429). -/
def State.putChain (s : State) (f : Field) (v : Nat) : State :=
  if f = CHAIN.enable then s.run (execChainEnableWrite (v == 1))
  else if f = CHAIN.module_id then ((s.setFld .chain f v).modChain (fun c => { c with dupId := false })).chainRelease
  else s.setFld .chain f v

/-- An RW-L or RW-I field takes a value: where the field has a command of its own, by that command. -/
def State.putField (s : State) (b : Blk) (f : Field) (v : Nat) : State :=
  match b with
  | .spindle n => s.putSpindle n f v
  | .sled g => s.putAxis (.sled g) f v
  | .sa g => s.putAxis (.sa g) f v
  | .taxis n => s.putTransport n f v
  | .pool p => if f = POOL.enable then s.run (execPoolEnableWrite p (v == 1)) else s.setFld b f v
  | .quota r => if f = QUOTA.limit r.val then s.run (execQuotaLimitWrite r (BitVec.ofNat 24 v)) else s.setFld b f v
  | .bufpool => s.putBufpool f v
  | .ccache => s.putCcache f v
  | .chain => s.putChain f v
  | .power => if f = POWER.cap_mw then s.run (execCapWrite (BitVec.ofNat 17 v)) else (s.setFld b f v).scanGrants
  | .link g => if f = LINK.lane_enable then (s.setFld b f v).laneCheck g else s.setFld b f v
  | _ => s.setFld b f v

/-- The WO fields that every axis has. -/
def State.axisCommand (s : State) (a : AxisId) (f : Field) : State :=
  if f = AXIS.home then s.run (execAxisHome a) else if f = AXIS.clear_fault then s.run (execAxisClearFault a)
  else if f = AXIS.run_prick then s.run (execRunPrick a) else if f = AXIS.go then s.run (execAxisCommit a) else s

/-- A WO field is written with a value other than 0; w is the whole word. -/
def State.command (s : State) (b : Blk) (f : Field) (w : Nat) : State :=
  match b with
  | .link g => if f = LINK.retrain then s.run (execLinkRetrain g) else s.run (execLinkClearCounts g)
  | .eng g e =>
    if f = ENG.clear_stats then s.run (execEngClearStats g e)
    else if f = ENG.go then s.run (execEngCommit g e (BitVec.ofNat 2 (w / 2)))
    else s
  | .foc g => if f = FOC.acq_start then s.run (execFocAcqStart g) else s.run (execFocCommit g)
  | .trk g =>
    if f = TRK.acq_start then s.run (execTrkAcqStart g) else if f = TRK.rebuild then s.run (execTrkRebuild g) else s.run (execTrkCommit g)
  | .spindle n =>
    if f = SPINDLE.start then s.run (execSpindleStart n) else if f = SPINDLE.stop then s.run (execSpindleStop n)
    else if f = SPINDLE.clear_fault then s.run (execSpindleClearFault n) else s.run (execSpindleCommit n)
  | .sled g => s.axisCommand (.sled g) f
  | .sa g => s.axisCommand (.sa g) f
  | .taxis n =>
    if f = TAXIS.arm then s.run (execGearArm n) else if f = TAXIS.arm_now then s.run (execGearArmNow n)
    else if f = AXIS.stop then s.run (execAxisStop n) else s.axisCommand (.transport n) f
  | .chan g => if f = CHAN.clear_stats then s.run (execChanClearStats g) else s.commitChan g
  | .wr g => if f = WR.opc_now then s.run (execOpcNow g) else s.commitWr g
  | .vchan g => if f = VCHAN.clear_stats then s.run (execVchanClearStats g) else s.commitVchan g
  | .decode => if f = DECODE.clear_stats then s.run execDecodeClearStats else s.commitDecode
  | .bufpool => s.run execBufpoolClearStats
  | .ccache =>
    let ways := BitVec.ofNat 16 (w / 4)
    if f = CCACHE.clean_all then s.run execCacheCleanAll
    else if f = CCACHE.clear_stats then s.run execCcacheClearStats
    else if f = CCACHE.ways then s.run (execCacheUnlock (BitVec.ofNat 16 w))
    else if f = CCACHE.kind then
      (match w % 4 with
       | 1 => s.run (execCacheOpPreload ways (bitOf w 18))
       | 2 => s.run execCacheOpClean
       | 3 => s.run execCacheOpInvalidate
       | _ => s)
    else s
  | .dramc c =>
    if f = DRAMC.train then s.run (execDramTrain c) else if f = DRAMC.switch then s.run (execDramSwitch c) else s.run (execDramcClearStats c)
  | .memprot => if f = MEMPROT.clear_stats then s.run execMemprotClearStats else s.run execCeClearTable
  | .cipher => if f = CIPHER.clear_stats then s.run execCipherClearStats else s.run execCipherRearm
  | .chain =>
    if f = CHAIN.retrain then s.run execChainRetrain else if f = CHAIN.clear_stats then s.run execChainClearStats else s.commitChain
  | .calib => s.run execCalibClearStats
  | .mgmt => s.mboxGo
  | _ => s

/-- One field of a written word: the bits of m are written with those of v. Whether the field rejects the write (R501), and the state. -/
def State.writeField (b : Blk) (m v : Nat) (r : Bool × State) (f : Field) : Bool × State :=
  let fm := m / 2 ^ f.lo % 2 ^ f.width
  let fv := v / 2 ^ f.lo % 2 ^ f.width
  let s := r.2
  if fm = 0 then r
  else
    let old := s.readField b f
    let new := clearBits old fm ||| (fv &&& fm)
    match f.cls with
    | .ro | .wo => r
    | .w1c => (r.1, s.clearW1c b f (fv &&& fm))
    | .w1s => (r.1, s.orSta b f (fv &&& fm))
    | .rws => (match b with
        | .eng _ e => if e.val = 6 then r else (r.1, s.setFld b f new)
        | _ => (r.1, s.setFld b f new))
    | .rwl => (r.1, s.putField b f new)
    | .rwi =>
      if new = old then r
      else if s.idleTakes b f new then (r.1, s.putField b f new)
      else (true, s)

/-- The commands of a written word. -/
def State.writeCommand (b : Blk) (w : Nat) (s : State) (f : Field) : State :=
  if f.cls = .wo ∧ w / 2 ^ f.lo % 2 ^ f.width ≠ 0 then s.command b f w else s

/-- The fields of a word of a block are written, and its commands act: whether a field rejects the write (R501), and the state. -/
def State.writeFields (s : State) (b : Blk) (a m v : Nat) : Bool × State :=
  let l := b.fields.filter (fun f => b.base + f.off == a)
  let r := l.foldl (State.writeField b m v) (false, s)
  (r.1, l.foldl (State.writeCommand b (v &&& m)) r.2)

/-- A word of the mailbox's request buffer is written (R485). -/
def State.writeRequest (s : State) (off v : Nat) : State := s.modPath .mailbox (fun x => { x with request := putWord x.request off v })

/-- A word whose block answers is written under a mask; `merged` is what the word would then hold. -/
def State.writeMerged (s : State) (i : Iface) (a m v merged : Nat) : Bool × State :=
  if a = 0x10000 ∨ a = 0x10004 then (false, s.run (execDomainWrite i (a == 0x10004) (BitVec.ofNat 32 merged)))
  else if a = 0x20010 ∨ a = 0x20014 then (false, s.run (execTimebaseOffsetWrite i (a == 0x20014) (BitVec.ofNat 32 merged)))
  else if a = 8 then (false, s.globalCommit (v % 65536) (v / 65536 % 65536))
  else if 0x31000 ≤ a ∧ a < 0x32000 then (false, s.writeRequest (a - 0x31000) merged)
  else match blkAt a with
    | none => (false, s)
    | some b => s.writeFields b a m v

/-- A word is written under a mask: whether the write draws an error response, and the state. A write to a block that does not answer is
discarded and recorded (R309); one to an offset that nothing implements is discarded (R498); a rejected RW-I field draws one response, and the
word's other fields are written (R501). -/
def State.writeWord (s : State) (i : Iface) (a m v : Nat) : Bool × State :=
  if !s.spanAnswers a then (true, s.writeError i 7 a)
  else
    let r := s.writeMerged i a m v (clearBits (s.readWord a) m ||| (v &&& m))
    if r.1 then (true, r.2.writeError i 1 a) else r

/-! ### The commands -/

/-- GLOBAL_COMMIT (R505). -/
def execGlobalCommit (first last : BitVec 16) (s : State) : Host.Outcome State Fault Refusal :=
  .next (s.globalCommit first.toNat last.toNat)

/-- REGISTER_WRITE (R501): a 4 B write of PF BAR0; the address is that of its word (R307). -/
def execRegisterWrite (i : Iface) (addr : BitVec 26) (value : BitVec 32) (s : State) : Host.Outcome State Fault Refusal :=
  .next (s.writeWord i (addr.toNat / 4 * 4) 0xFFFFFFFF value.toNat).2

/-- COMPLETER_ABORT_READ (R307, R495): Completer Abort, and a violation of kind 3. -/
def execCompleterAbortRead (addr : BitVec 64) (len : BitVec 16) (s : State) : Host.Outcome State Fault Refusal :=
  if (len = 4 ∨ len = 8) ∧ addr.toNat % len.toNat = 0 then .next s
  else .next ((s.violation (srcFunc 0) 3 (addr.toNat % 2 ^ 32)).emit (.errorCompletion addr))

/-- LOW_WORD_READ (R507): a read of a word by an interface, with its latch of the high word. -/
def execLowWordRead (i : Iface) (addr : BitVec 26) (s : State) : Host.Outcome State Fault Refusal :=
  let a := addr.toNat / 4 * 4
  let r := s.readBy (ifaceIx i) a
  .next (r.2.emit (.regRead i a r.1))

end Sys2Proof.Machine
end

