-- ==== Sys2Proof/Machine/Start.lean ====
section
/-! DEFINITION. Starts (R477–R483, R525–R527): the cold start, its failures, minimal mode, the warm start, the RESTART operation and the cold
reset. A start's steps that no command divides take place together (DESIGN CHOICE, log entry 60). -/

namespace Sys2Proof.Machine

def State.modMgmt (s : State) (f : Mgmt → Mgmt) : State := { s with mgmt := f s.mgmt }

/-! ### Switching every domain -/

/-- The order of step 6 (Table 20-5). -/
def startOrder : List Nat := [13, 14, 18, 15, 16, 17, 19, 12, 8, 9, 10, 11, 0, 1, 2, 3, 4, 5, 6, 7]

/-- Every attached function is detached as with a grace of 0 (R483). -/
def State.detachAll (s : State) : State := s.liveFns.foldl (fun (t : State) f => t.resetQueues f false) s

/-- Every domain but the DRAM channels' turns off, in the reverse order of their switch-on. -/
def State.domainsDown (s : State) : State := (startOrder.drop 2).reverse.foldl State.domainOff s

/-- DRAM goes to self-refresh and keeps its contents (R483). -/
def State.sleepDrams (s : State) : State := { s with drams := s.drams.map DramCh.selfRefresh }

/-- No rail is up, and no grant is held or asked for. -/
def State.railsDown (s : State) : State := { s with power := { s.power with on := 0, state := 0, queue := [], held := [] } }

/-- Every switched domain turns off (R483). -/
def State.allOff (s : State) : State := ((s.domainsDown.sleepDrams.clearStatus 14).clearStatus 13).railsDown

/-- Every domain comes on, in order (step 6). -/
def State.allOn (s : State) : State := startOrder.foldl (fun (t : State) d => (t.setOn d true).railOn d) s

/-! ### Failures and minimal mode (R480–R482) -/

/-- Minimal mode is entered (R309, R314, R482): the core A code of the one-time-programmable memory runs alone. -/
def State.enterMinimal (s : State) (reason : Nat) : State :=
  let s1 := (s.detachAll).allOff
  let s2 := if s1.host.vfEnable then s1.dropVfs else s1
  let s3 := State.modMgmt { s2 with minimal := true } (fun m => { m with
    started := false, reason := reason, fw := Config.otpFirmwareVersion, act := none, newAct := false, startStep := 3 })
  (s3.writeEdt).logVec (srcBlock 0) .startFailed [reason] 9

/-- A start fails (R481): the failure record, the log, and minimal mode at the third in a row or where `direct` says so (R383, R386); else a warm
start is to follow. -/
def State.failStart (s : State) (reason : Nat) (direct : Bool) : State :=
  let s1 := (s.bootAppend 3 reason).logEv (srcBlock 0) .startFailed [reason]
  if direct || decide (3 ≤ s1.failedStarts) then s1.enterMinimal reason
  else s1.modMgmt (fun m => { m with started := false, startStep := 3 })

/-! ### REG_DEFAULTS (R476, R481) -/

/-- An entry is applied by core A: one whose write draws an error response is skipped and logged. -/
def State.applyDefault (s : State) (d : RegDefault) : State :=
  let r := s.writeWord .coreA d.off d.mask d.value
  if d.off % 4 ≠ 0 ∨ 0x4000000 ≤ d.off ∨ r.1 = true then s.logEv srcNv .imageFault [d.off] else r.2

/-- The entries for DRAMC A, DRAMC B and MEMPROT (step 6). -/
def RegDefault.early (d : RegDefault) : Bool := decide (0x200000 ≤ d.off) && decide (d.off < 0x300000)

/-- The entries of the image that the start read. -/
def State.defaults (s : State) : List RegDefault :=
  match s.imageSection 3 with
  | some l => regDefaults l
  | none => []

/-! ### Steps 5 to 8 (Table 20-5) -/

/-- A channel's training at a start (R383, R386); the thresholds that the devices report are free values. -/
def State.trainAtStart (s : State) (i : StartIn) (c : DramChan) : State :=
  if (s.dramCh c).st ≠ .training then s
  else if i.dramTrained then
    let a := s.draw
    let b := a.2.draw
    b.2.run (execTrainingDone c true i.dramMatch (BitVec.ofNat 12 a.1) (BitVec.ofNat 12 b.1))
  else (s.modDram c (fun x => { x with mismatch := !i.dramMatch })).chanFailed c .dramTrain

/-- A namespace of the image: its slot is bound (R422). -/
def State.loadNs (s : State) (n : Ns) : State :=
  let r := s.slot n.slot
  State.setSlot { s with nss := s.nss ++ [n] } n.slot { r with owner := n.owner, bound := r.bound + 1 }

/-- The data of a section, none where the image does not hold it. -/
def State.sectionData (s : State) (type : Nat) : List Byte := (s.imageSection type).getD []

/-- The sequence reserve, head sets and baselines of the image. -/
def State.loadStores (s : State) : State :=
  { s with
    seqEnd := ofLe ((s.sectionData 0x13).take 8)
    calib := { s.calib with sets := setsOf (s.sectionData 0x11), bases := basesOf (s.sectionData 0x14) } }

/-- The module-owned content of the image comes into use, at the first step 7 after a cold reset. -/
def State.loadOwned (s : State) : State := ((nsOf (s.sectionData 0x10)).foldl State.loadNs { s with nss := [] }).loadStores

/-- The extent counter resumes at the recorded end (R251). -/
def State.resumeSeq (s : State) : State := { s with seqNext := max s.seqNext s.seqEnd }

/-- The entries that step 6 has not applied. -/
def State.lateDefaults (s : State) : State := (s.defaults.filter (fun d => !d.early)).foldl State.applyDefault s

/-- Every shadow group is committed (R504). -/
def State.commitAll (s : State) : State := allTags.foldl State.commitTag s

/-- Step 7: the remaining entries, every group committed, the module-owned content, the extent counter, and the trims of the loaded sets. -/
def State.step7 (s : State) (first : Bool) : State :=
  let s1 := s.lateDefaults.commitAll
  let s2 := if first then s1.loadOwned else s1
  (List.finRange 16).foldl State.recomputeTrims s2.resumeSeq

/-- Step 8: the EDT, the success record, and the start is complete. -/
def State.step8 (s : State) : State :=
  let s1 := (s.bootAppend 2 0).modMgmt (fun m => { m with started := true, startStep := 8, reason := 0 })
  (s1.writeEdt).logEv (srcBlock 0) .start []

/-- The state in which steps 6 and 7 run: the blocks answer core A, and the fields hold their Factory values (DESIGN CHOICE and DEDUCED, log entries 60 and 61). -/
def State.startRuns (s : State) : State :=
  { (s.modMgmt (fun m => { m with started := true })) with regs := { s.regs with loaded := true } }

/-- Step 6 before the domains: the entries for DRAM, and at the first start the marks. -/
def State.step6a (s : State) (first : Bool) : State :=
  let s1 := (s.defaults.filter RegDefault.early).foldl State.applyDefault s
  if first then { s1 with marks := marksOf (s1.sectionData 0x12) } else s1

/-- Step 6: the domains come on and DRAM trains. -/
def State.step6b (s : State) (i : StartIn) : State := (s.allOn.trainAtStart i .a).trainAtStart i .b

/-- A start that ends in step 6 leaves Factory values loaded only where an earlier one had loaded them. -/
def State.unload' (s : State) (first : Bool) : State := { s with regs := { s.regs with loaded := !first } }

/-- How step 6 fails, with whether straight into minimal mode (Table 20-6, R383, R386). -/
def State.step6Fault (s : State) (i : StartIn) : Option (Nat × Bool) :=
  if !i.domainsOk then some (6, false)
  else if !i.dramMatch then some (4, true)
  else if (s.dramCh .a).st = .failed ∨ (s.dramCh .b).st = .failed then some (5, true)
  else if (s.dramCh .a).st = .off ∨ (s.dramCh .b).st = .off then some (5, false)
  else none

/-- Steps 6 to 8, from every domain off. -/
def State.fromStep6 (s : State) (i : StartIn) : State :=
  let first := !s.regs.loaded
  let s1 := s.startRuns.step6a first
  let s2 := if i.domainsOk then s1.step6b i else s1
  match s2.step6Fault i with
  | some (reason, direct) => (s2.unload' first).failStart reason direct
  | none => (s2.step7 first).step8

/-- Step 5 and on: the firmware of the image that was read runs. -/
def State.fromStep5 (s : State) (i : StartIn) : State :=
  if !i.firmwareOk then s.failStart 2 false
  else State.fromStep6 (s.modMgmt (fun m => { m with fw := versionOf s.nv.img, startStep := 5 })) i

/-- A start begins to count: its number, its record, and no EDT yet (R314, R480). -/
def State.startRecord (s : State) : State :=
  let s1 := s.modNv (fun n => { n with starts := n.starts + 1, fwCopy := none })
  { (s1.bootAppend 1 0) with host := { s1.host with edtWrites := 0, edt := [] } }

/-- Steps 3 and 4 and on (R477, R481). -/
def State.fromStep3 (s : State) (i : StartIn) : State :=
  let s1 := State.startRecord { s with minimal := false }
  let s2 := s1.modNv (fun n => { n with noFlash := !i.flashOk })
  if !i.otpOk then s2.failStart 9 false
  else if !i.flashOk then s2.failStart 3 false
  else match s2.chooseCopy with
    | none => s2.failStart 1 false
    | some (c, conflict) => (s2.takeCopy c conflict).fromStep5 i

/-! ### The commands -/

/-- The metering counters resume from the latest snapshot (R491). -/
def Meter.resumed (m : Meter) : Meter :=
  match m.snap with
  | some (n, t, l) => { Meter.reset with counters := l, restored := List.range 2049, snap := some (n, t, l) }
  | none => Meter.reset

/-- A cold reset (R526): everything restarts but what the flash holds. The queue, the count of free values and the outbox are the model's
own. -/
def State.coldReset (s : State) : State :=
  { State.reset with
    pending := s.pending
    free := s.free
    out := s.out
    nv := { Nv.reset with copies := s.nv.copies, boot := s.nv.boot, starts := s.nv.starts }
    meter := s.meter.resumed }

/-- RST_N_ASSERT (R526). -/
def execRstNAssert (s : State) : Host.Outcome State Fault Refusal := .next s.coldReset

/-- The REFSEL strap is latched when RST_N goes high (R454, R525); its value is a free value. -/
def State.latchStrap (s : State) : State :=
  let r := s.draw
  { r.2 with time := { r.2.time with refsel := r.1 % 2 == 1 } }

/-- The cold start from step 1 (R481, R525, Table 22-10): the strap is latched, and TAMPER_N still low raises the cipher alarm. -/
def State.coldStart (s : State) (i : StartIn) : State :=
  let s1 := s.latchStrap
  let s2 := if i.tamperLow then s1.run (execCipherAlarm .tamper) else s1
  s2.fromStep3 i

/-- COLD_START (R481, R525): from reset alone, once PWR_GOOD is asserted and VIN is at 8.8 V or above. -/
def execColdStart (i : StartIn) (s : State) : Host.Outcome State Fault Refusal :=
  if s.mgmt.startStep ≠ 0 ∨ s.mgmt.started = true ∨ i.vinOk = false ∨ i.pwrGood = false then .next s
  else .next (s.coldStart i)

/-- START_TIMEOUT (R481): a start that is under way has not reached step 8 within 2 s. -/
def execStartTimeout (s : State) : Host.Outcome State Fault Refusal :=
  if s.mgmt.started = true ∨ s.minimal = true then .next s
  else .next ((s.startRecord).failStart 7 false)

/-- A warm start's first part (R483): functions are detached and every domain goes off. -/
def State.warmDown (s : State) : State := ((s.detachAll).allOff).setSta .global GLOBAL.warm 1

/-- What a warm start forgets: the EDT, an activation under way, and a host image being written. -/
def State.warmForget (s : State) : State :=
  { s with
    host := { s.host with edt := [] }
    mgmt := { s.mgmt with started := false, act := none, newAct := false }
    nv := { s.nv with hostCopy := none } }

/-- The warm start (R483): functions are detached and every domain restarts. It runs from step 5 with the image already read, or from step 3 where
the last start failed or in minimal mode. -/
def State.warmStart (s : State) (i : StartIn) : State :=
  let whole := !s.mgmt.started || s.minimal
  let s1 := s.warmDown.warmForget
  if whole then s1.fromStep3 i else s1.fromStep5 i

/-- WARM_START (R483): no domain switches in POWER_FAIL (R460), so it waits. -/
def execWarmStart (i : StartIn) (s : State) : Host.Outcome State Fault Refusal :=
  if s.mgmt.startStep = 0 ∨ s.power.powerFail = true then .next s else .next (s.warmStart i)

/-- REFERENCE_RESTORED (R458): the reference has been present for 10 ms; the switched domains restart as a warm start. -/
def execReferenceRestored (i : StartIn) (s : State) : Host.Outcome State Fault Refusal :=
  if !s.time.refLost || s.power.powerFail then .next s
  else
    let s1 := State.logEv { s with time := { s.time with refLost := false } } (srcBlock 2) .refRestored []
    if s1.mgmt.started && !s1.minimal then .next (s1.warmStart i) else .next s1

/-- RESTART (R482, R487, R496): answered before the restart; it waits while an activation runs. The response leaves the module at once, since a
cold restart clears the buffers. -/
def State.restartOp (s : State) (p : MgmtPath) (i : StartIn) (flags : Nat) : State :=
  let s1 := s.reply p 0 []
  let s2 := s1.emit (.response p (s1.path p).response)
  let s3 := if bitOf flags 0 then s2.bootAppend 2 0 else s2
  if bitOf flags 2 then State.failStart (s3.startRecord) 0x0A true
  else if bitOf flags 1 then s3.warmStart i
  else s3.coldReset.run (execColdStart i)

/-- RESTART (R487). -/
def execRestart (p : MgmtPath) (i : StartIn) (s : State) : Host.Outcome State Fault Refusal :=
  .next (s.runOp p 6 (fun l =>
    if l.isEmpty then s.reply p 2 []
    else if s.mgmt.act.isSome then s
    else s.restartOp p i (byteField l 0 1)))

end Sys2Proof.Machine
end

