-- ==== Sys2Proof/Machine/TargetedTests.lean ====
section
/-! DEFINITION. The targeted self-test of a resource that erred (R493, R494): what its outcome does to the resource. -/

namespace Sys2Proof.Machine

/-- A retired engine's test ends (R101, R112): a pass makes it a spare of its own head, in the slot where the slot engine is
no free spare; a failure keeps it retired until reset. -/
def State.engineTest (s : State) (g : HeadId) (e : EngId) (pass : Bool) : State :=
  let phys := 7 * g.val + e.val
  match (s.heads[g.val].retired).find? (fun r => r.phys == phys) with
  | none => s
  | some r =>
    if r.failed then s
    else
      let s1 := s.testOutcome (srcHead g e.val) pass
      if pass then
        let free := s.slotFree g
        s1.modHead g (fun h => { h with
          retired := h.retired.filter (fun x => x.phys != phys)
          slot := if free then h.slot else phys
          reserve := if free then h.reserve ++ [phys] else h.reserve })
      else s1.modHead g (fun h => { h with
        retired := h.retired.map (fun x => if x.phys = phys then { x with failed := true } else x) })

/-- A retired decoder's test ends (R281): a spare, which takes the place of one that is missing, or out of service until reset. -/
def State.decoderTest (s : State) (i : Fin 20) (pass : Bool) : State :=
  if (s.decoders[i.val]).st = .retired then
    let s1 := (s.modDecoder i (fun d => { d with st := if pass then .spare else .failed })).testOutcome (srcDecoder i.val) pass
    if pass ∧ s1.activeDecoders < 18 then s1.decoderSpare else s1
  else s

/-- A fenced core's test ends (R418): back in service, where it takes the next unit, or fenced until reset. -/
def State.cipherTest (s : State) (i : Fin 8) (pass : Bool) : State :=
  if (s.cipher.cores[i.val]).st = .testing then
    ((s.modCore i (fun x => { x with st := if pass then .active else .fenced })).testOutcome (srcCipher i.val) pass).pump
  else s

/-- The test of a drive in FAULT ends (R189): a pass lets CTRL.clear_fault act. -/
def State.spindleTest (s : State) (b : BayId) (pass : Bool) : State :=
  if (s.spindle b).st = .fault ∧ (s.spindle b).testPass = none then
    (s.modSpindle b (fun x => { x with testPass := some pass })).testOutcome (srcSpindle b) pass
  else s

/-- The test of an axis in FAULT ends (R214): a pass lets CTRL.clear_fault act. -/
def State.axisTest (s : State) (a : AxisId) (pass : Bool) : State :=
  if (s.axis a).st = .fault ∧ (s.axis a).testPass = none then
    (s.modAxis a (fun x => { x with testPass := some pass })).testOutcome (srcAxis a) pass
  else s

/-- The march test of an SRAM bank ends (Table 20-12): back in use, its contents lost, or retired until reset. -/
def State.sramTest (s : State) (src : BitVec 16) (pass : Bool) : State :=
  if Tab.get 0 s.srams src.toNat = 1 then
    State.testOutcome { s with srams := if pass then Tab.erase s.srams src.toNat else Tab.put s.srams src.toNat 2 } src pass
  else s

/-- TARGETED_TEST_DONE (R493): the test of a resource that is under test ends. -/
def execTargetedTestDone (r : Resource) (pass : Bool) (s : State) : Host.Outcome State Fault Refusal :=
  .next (match r with
    | .engine g e => s.engineTest g e pass
    | .decoder i => s.decoderTest i pass
    | .cipherCore i => s.cipherTest i pass
    | .spindle b => s.spindleTest b pass
    | .axis a => s.axisTest a pass
    | .sram src => s.sramTest src pass)

end Sys2Proof.Machine
end

