-- ==== Sys2Proof/Machine/Dispatch.lean ====
section
/-! DEFINITION. The dispatch: one arm per command, each a direct call of its meaning. -/

namespace Sys2Proof.Machine

def exec (i : Instr) (s : State) : Host.Outcome State Fault Refusal :=
  match i with
  | .position b tag h sl track k => Sys2Proof.Machine.execPosition b tag h sl track k s
  | .readWindow b tag h track frame count => Sys2Proof.Machine.execReadWindow b tag h track frame count s
  | .writeWindow b tag h track frame count => Sys2Proof.Machine.execWriteWindow b tag h track frame count s
  | .cancel b tag => Sys2Proof.Machine.execCancel b tag s
  | .statusFrame g lane w => Sys2Proof.Machine.execStatusFrame g lane w s
  | .laneTrainTimeout g lane => Sys2Proof.Machine.execLaneTrainTimeout g lane s
  | .laneFrameTimeout g lane => Sys2Proof.Machine.execLaneFrameTimeout g lane s
  | .linkRetrain g => Sys2Proof.Machine.execLinkRetrain g s
  | .linkClearCounts g => Sys2Proof.Machine.execLinkClearCounts g s
  | .coilFault g c shorted => Sys2Proof.Machine.execCoilFault g c shorted s
  | .headStrobe g x => Sys2Proof.Machine.execHeadStrobe g x s
  | .sampleMiss g e => Sys2Proof.Machine.execSampleMiss g e s
  | .targetedTestDone r pass => Sys2Proof.Machine.execTargetedTestDone r pass s
  | .engCommit g e action => Sys2Proof.Machine.execEngCommit g e action s
  | .engClearStats g e => Sys2Proof.Machine.execEngClearStats g e s
  | .focAcqStart g => Sys2Proof.Machine.execFocAcqStart g s
  | .captureTimeout g => Sys2Proof.Machine.execCaptureTimeout g s
  | .identifyTimeout g => Sys2Proof.Machine.execIdentifyTimeout g s
  | .jumpKickEnd g => Sys2Proof.Machine.execJumpKickEnd g s
  | .jumpCoastTimeout g => Sys2Proof.Machine.execJumpCoastTimeout g s
  | .jumpBrakeEnd g => Sys2Proof.Machine.execJumpBrakeEnd g s
  | .jumpLockTimeout g => Sys2Proof.Machine.execJumpLockTimeout g s
  | .jumpSettleEnd g => Sys2Proof.Machine.execJumpSettleEnd g s
  | .defectHoldTimeout g => Sys2Proof.Machine.execDefectHoldTimeout g s
  | .recaptureTimeout g => Sys2Proof.Machine.execRecaptureTimeout g s
  | .focCommit g => Sys2Proof.Machine.execFocCommit g s
  | .trkAcqStart g => Sys2Proof.Machine.execTrkAcqStart g s
  | .trkRebuild g => Sys2Proof.Machine.execTrkRebuild g s
  | .trackPullinTimeout g => Sys2Proof.Machine.execTrackPullinTimeout g s
  | .acqTimeout g => Sys2Proof.Machine.execAcqTimeout g s
  | .confirmTimeout g => Sys2Proof.Machine.execConfirmTimeout g s
  | .lensKickTimeout g => Sys2Proof.Machine.execLensKickTimeout g s
  | .lensBrakeTimeout g => Sys2Proof.Machine.execLensBrakeTimeout g s
  | .lensLockTimeout g => Sys2Proof.Machine.execLensLockTimeout g s
  | .seekStart g => Sys2Proof.Machine.execSeekStart g s
  | .sledSettleEnd g => Sys2Proof.Machine.execSledSettleEnd g s
  | .wedgeTick b w revNs => Sys2Proof.Machine.execWedgeTick b w revNs s
  | .blendEnd g l => Sys2Proof.Machine.execBlendEnd g l s
  | .runoutFetchDone g l ok => Sys2Proof.Machine.execRunoutFetchDone g l ok s
  | .trkCommit g => Sys2Proof.Machine.execTrkCommit g s
  | .pwmPeriod b x => Sys2Proof.Machine.execPwmPeriod b x s
  | .speedLoopPeriod b x => Sys2Proof.Machine.execSpeedLoopPeriod b x s
  | .spindleStart b => Sys2Proof.Machine.execSpindleStart b s
  | .driveStart b => Sys2Proof.Machine.execDriveStart b s
  | .spindleStop b => Sys2Proof.Machine.execSpindleStop b s
  | .spindleClearFault b => Sys2Proof.Machine.execSpindleClearFault b s
  | .spindleReverseWrite b v => Sys2Proof.Machine.execSpindleReverseWrite b v s
  | .targetRpmWrite b rpm => Sys2Proof.Machine.execTargetRpmWrite b rpm s
  | .senseEnd b x => Sys2Proof.Machine.execSenseEnd b x s
  | .brakeTimeout b => Sys2Proof.Machine.execBrakeTimeout b s
  | .alignEnd b => Sys2Proof.Machine.execAlignEnd b s
  | .spindleCoastTimeout b => Sys2Proof.Machine.execSpindleCoastTimeout b s
  | .torqueRestored b => Sys2Proof.Machine.execTorqueRestored b s
  | .stopBrakeEnd b => Sys2Proof.Machine.execStopBrakeEnd b s
  | .fieldWeakenLimit b => Sys2Proof.Machine.execFieldWeakenLimit b s
  | .spindleOvercurrent b => Sys2Proof.Machine.execSpindleOvercurrent b s
  | .bridgeOvertemp die => Sys2Proof.Machine.execBridgeOvertemp die s
  | .spindlePhaseOpen b => Sys2Proof.Machine.execSpindlePhaseOpen b s
  | .spindleCommit b => Sys2Proof.Machine.execSpindleCommit b s
  | .axisTick a => Sys2Proof.Machine.execAxisTick a s
  | .chopperCycle a phase reachedNs => Sys2Proof.Machine.execChopperCycle a phase reachedNs s
  | .stepperPhaseOpen a phase => Sys2Proof.Machine.execStepperPhaseOpen a phase s
  | .axisOvercurrent a => Sys2Proof.Machine.execAxisOvercurrent a s
  | .holdDelayEnd a => Sys2Proof.Machine.execHoldDelayEnd a s
  | .axisEnableWrite a v => Sys2Proof.Machine.execAxisEnableWrite a v s
  | .axisHome a => Sys2Proof.Machine.execAxisHome a s
  | .homeStopHoldEnd a => Sys2Proof.Machine.execHomeStopHoldEnd a s
  | .axisClearFault a => Sys2Proof.Machine.execAxisClearFault a s
  | .axisStop n => Sys2Proof.Machine.execAxisStop n s
  | .runPrick a => Sys2Proof.Machine.execRunPrick a s
  | .axisTargetWrite n target => Sys2Proof.Machine.execAxisTargetWrite n target s
  | .axisModeWrite n mode => Sys2Proof.Machine.execAxisModeWrite n mode s
  | .gearArm n => Sys2Proof.Machine.execGearArm n s
  | .gearArmNow n => Sys2Proof.Machine.execGearArmNow n s
  | .encoderEdge x a b sinceNs => Sys2Proof.Machine.execEncoderEdge x a b sinceNs s
  | .stepEdge n level dir sinceUs => Sys2Proof.Machine.execStepEdge n level dir sinceUs s
  | .axisCommit a => Sys2Proof.Machine.execAxisCommit a s
  | .beamWindowStart g k => Sys2Proof.Machine.execBeamWindowStart g k s
  | .beamWindowEnd g k => Sys2Proof.Machine.execBeamWindowEnd g k s
  | .wedgeHeader g k h => Sys2Proof.Machine.execWedgeHeader g k h s
  | .syncSearch g k x => Sys2Proof.Machine.execSyncSearch g k x s
  | .defectStart g k at_ => Sys2Proof.Machine.execDefectStart g k at_ s
  | .defectEnd g k at_ coastBits => Sys2Proof.Machine.execDefectEnd g k at_ coastBits s
  | .coastLimit g k => Sys2Proof.Machine.execCoastLimit g k s
  | .resliceRequest g k frame offset => Sys2Proof.Machine.execResliceRequest g k frame offset s
  | .chanCommit g => Sys2Proof.Machine.execChanCommit g s
  | .chanClearStats g => Sys2Proof.Machine.execChanClearStats g s
  | .writingEntry b => Sys2Proof.Machine.execWritingEntry b s
  | .sessionIdleExpiry g => Sys2Proof.Machine.execSessionIdleExpiry g s
  | .writeWindowOpen g runs => Sys2Proof.Machine.execWriteWindowOpen g runs s
  | .opcNow g => Sys2Proof.Machine.execOpcNow g s
  | .opcRunStart g outer turn => Sys2Proof.Machine.execOpcRunStart g outer turn s
  | .opcRunDone g k steps => Sys2Proof.Machine.execOpcRunDone g k steps s
  | .codewordVerdict seq cluster cw w frameFailed headers => Sys2Proof.Machine.execCodewordVerdict seq cluster cw w frameFailed headers s
  | .recordVerdict seq copies => Sys2Proof.Machine.execRecordVerdict seq copies s
  | .anchorAppend b copies rewrites => Sys2Proof.Machine.execAnchorAppend b copies rewrites s
  | .mapCheckpoint b sl frame => Sys2Proof.Machine.execMapCheckpoint b sl frame s
  | .wrCommit g => Sys2Proof.Machine.execWrCommit g s
  | .vchanCommit g => Sys2Proof.Machine.execVchanCommit g s
  | .vchanClearStats g => Sys2Proof.Machine.execVchanClearStats g s
  | .decodeStart x => Sys2Proof.Machine.execDecodeStart x s
  | .decodeDone x decoderOk checkerOk iters unsat info => Sys2Proof.Machine.execDecodeDone x decoderOk checkerOk iters unsat info s
  | .ladderAgeExpiry cw => Sys2Proof.Machine.execLadderAgeExpiry cw s
  | .ladderStepDone cw converged info => Sys2Proof.Machine.execLadderStepDone cw converged info s
  | .sweepSettleEnd g => Sys2Proof.Machine.execSweepSettleEnd g s
  | .mountStart b disc => Sys2Proof.Machine.execMountStart b disc s
  | .mountStageDone b r => Sys2Proof.Machine.execMountStageDone b r s
  | .decodeCommit => Sys2Proof.Machine.execDecodeCommit s
  | .decodeClearStats => Sys2Proof.Machine.execDecodeClearStats s
  | .flr f => Sys2Proof.Machine.execFlr f s
  | .conventionalReset => Sys2Proof.Machine.execConventionalReset s
  | .vfEnableWrite v => Sys2Proof.Machine.execVfEnableWrite v s
  | .dlActiveLost => Sys2Proof.Machine.execDlActiveLost s
  | .linkReattach => Sys2Proof.Machine.execLinkReattach s
  | .msixEntryWrite f entry word value => Sys2Proof.Machine.execMsixEntryWrite f entry word value s
  | .sqNudge f q => Sys2Proof.Machine.execSqNudge f q s
  | .cqNudge f q => Sys2Proof.Machine.execCqNudge f q s
  | .attachLo f arg => Sys2Proof.Machine.execAttachLo f arg s
  | .attachHi f arg blk => Sys2Proof.Machine.execAttachHi f arg blk s
  | .detach f => Sys2Proof.Machine.execDetach f s
  | .nudgeReservedOp f op => Sys2Proof.Machine.execNudgeReservedOp f op s
  | .detachGraceExpiry f => Sys2Proof.Machine.execDetachGraceExpiry f s
  | .doorbellPoll f sq line slots => Sys2Proof.Machine.execDoorbellPoll f sq line slots s
  | .commandFetch e => Sys2Proof.Machine.execCommandFetch e s
  | .read cmd => Sys2Proof.Machine.execRead cmd s
  | .write cmd dataOk => Sys2Proof.Machine.execWrite cmd dataOk s
  | .flush cmd => Sys2Proof.Machine.execFlush cmd s
  | .fence cmd => Sys2Proof.Machine.execFence cmd s
  | .createCq cmd => Sys2Proof.Machine.execCreateCq cmd s
  | .createSq cmd => Sys2Proof.Machine.execCreateSq cmd s
  | .deleteSq cmd => Sys2Proof.Machine.execDeleteSq cmd s
  | .deleteCq cmd => Sys2Proof.Machine.execDeleteCq cmd s
  | .selfTestShort cmd => Sys2Proof.Machine.execSelfTestShort cmd s
  | .selfTestExtended cmd => Sys2Proof.Machine.execSelfTestExtended cmd s
  | .selfTestAbort cmd => Sys2Proof.Machine.execSelfTestAbort cmd s
  | .selfTestResume => Sys2Proof.Machine.execSelfTestResume s
  | .selfTestMaxSusp => Sys2Proof.Machine.execSelfTestMaxSusp s
  | .selfTestDone fail => Sys2Proof.Machine.execSelfTestDone fail s
  | .getMetering cmd => Sys2Proof.Machine.execGetMetering cmd s
  | .namespaceCreate cmd => Sys2Proof.Machine.execNamespaceCreate cmd s
  | .namespaceDelete cmd => Sys2Proof.Machine.execNamespaceDelete cmd s
  | .namespaceQuery cmd => Sys2Proof.Machine.execNamespaceQuery cmd s
  | .keyLoad cmd => Sys2Proof.Machine.execKeyLoad cmd s
  | .keyErase cmd => Sys2Proof.Machine.execKeyErase cmd s
  | .keyQuery cmd => Sys2Proof.Machine.execKeyQuery cmd s
  | .fwActivate cmd => Sys2Proof.Machine.execFwActivate cmd s
  | .fwCoreBReady selfCheckOk => Sys2Proof.Machine.execFwCoreBReady selfCheckOk s
  | .fwWatchdogExpiry => Sys2Proof.Machine.execFwWatchdogExpiry s
  | .cqCompletion cmd => Sys2Proof.Machine.execCqCompletion cmd s
  | .cqAggTimer f q => Sys2Proof.Machine.execCqAggTimer f q s
  | .bufferRelease p buf o => Sys2Proof.Machine.execBufferRelease p buf o s
  | .bufferShare p buf o => Sys2Proof.Machine.execBufferShare p buf o s
  | .quotaLimitWrite r limit => Sys2Proof.Machine.execQuotaLimitWrite r limit s
  | .poolEnableWrite p v => Sys2Proof.Machine.execPoolEnableWrite p v s
  | .bufpoolClearStats => Sys2Proof.Machine.execBufpoolClearStats s
  | .cacheAccess c store addr data => Sys2Proof.Machine.execCacheAccess c store addr data s
  | .victimWritebackDone addr => Sys2Proof.Machine.execVictimWritebackDone addr s
  | .streamGapTimeout c region => Sys2Proof.Machine.execStreamGapTimeout c region s
  | .cacheOpPreload ways lock => Sys2Proof.Machine.execCacheOpPreload ways lock s
  | .cacheOpClean => Sys2Proof.Machine.execCacheOpClean s
  | .cacheOpInvalidate => Sys2Proof.Machine.execCacheOpInvalidate s
  | .cacheOpDone => Sys2Proof.Machine.execCacheOpDone s
  | .cacheUnlock ways => Sys2Proof.Machine.execCacheUnlock ways s
  | .wayPowerWrite on => Sys2Proof.Machine.execWayPowerWrite on s
  | .wayDrainDone way => Sys2Proof.Machine.execWayDrainDone way s
  | .cacheCleanAll => Sys2Proof.Machine.execCacheCleanAll s
  | .cacheEnableWrite v => Sys2Proof.Machine.execCacheEnableWrite v s
  | .ccacheClearStats => Sys2Proof.Machine.execCcacheClearStats s
  | .dramTrain c => Sys2Proof.Machine.execDramTrain c s
  | .trainingDone c pass matchesConfig imt mmt => Sys2Proof.Machine.execTrainingDone c pass matchesConfig imt mmt s
  | .dramSwitch c => Sys2Proof.Machine.execDramSwitch c s
  | .switchDone c trainOk => Sys2Proof.Machine.execSwitchDone c trainOk s
  | .dramBurstRead addr errs => Sys2Proof.Machine.execDramBurstRead addr errs s
  | .deviceAlert c clearedByRetry => Sys2Proof.Machine.execDeviceAlert c clearedByRetry s
  | .diagnoseDone c r => Sys2Proof.Machine.execDiagnoseDone c r s
  | .resilverDone c => Sys2Proof.Machine.execResilverDone c s
  | .scrubInterval sram errs sramBits source => Sys2Proof.Machine.execScrubInterval sram errs sramBits source s
  | .trefiWindow c bank acts => Sys2Proof.Machine.execTrefiWindow c bank acts s
  | .markClear c sub rank => Sys2Proof.Machine.execMarkClear c sub rank s
  | .ceClearTable => Sys2Proof.Machine.execCeClearTable s
  | .dramcClearStats c => Sys2Proof.Machine.execDramcClearStats c s
  | .memprotClearStats => Sys2Proof.Machine.execMemprotClearStats s
  | .cipherRequest cmd decrypt slot nsid lba buffer data => Sys2Proof.Machine.execCipherRequest cmd decrypt slot nsid lba buffer data s
  | .cipherUnitDone core isMatch => Sys2Proof.Machine.execCipherUnitDone core isMatch s
  | .slotFetchDone slot recordOk => Sys2Proof.Machine.execSlotFetchDone slot recordOk s
  | .cipherAlarm src => Sys2Proof.Machine.execCipherAlarm src s
  | .cipherRearm => Sys2Proof.Machine.execCipherRearm s
  | .keygenDone => Sys2Proof.Machine.execKeygenDone s
  | .cipherClearStats => Sys2Proof.Machine.execCipherClearStats s
  | .chainWrite p => Sys2Proof.Machine.execChainWrite p s
  | .readReq p length => Sys2Proof.Machine.execReadReq p length s
  | .readResp p => Sys2Proof.Machine.execReadResp p s
  | .writeAck p => Sys2Proof.Machine.execWriteAck p s
  | .mirrorWrite p => Sys2Proof.Machine.execMirrorWrite p s
  | .mirrorDone p => Sys2Proof.Machine.execMirrorDone p s
  | .timeSync p t2 => Sys2Proof.Machine.execTimeSync p t2 s
  | .timeReply p t1 t4 => Sys2Proof.Machine.execTimeReply p t1 t4 s
  | .hello p => Sys2Proof.Machine.execHello p s
  | .linkState p => Sys2Proof.Machine.execLinkState p s
  | .linkAck p => Sys2Proof.Machine.execLinkAck p s
  | .keepalive p => Sys2Proof.Machine.execKeepalive p s
  | .errorResp p => Sys2Proof.Machine.execErrorResp p s
  | .chainTrainTimeout p => Sys2Proof.Machine.execChainTrainTimeout p s
  | .keepaliveTimeout p => Sys2Proof.Machine.execKeepaliveTimeout p s
  | .keepaliveTimer p => Sys2Proof.Machine.execKeepaliveTimer p s
  | .helloTimer p => Sys2Proof.Machine.execHelloTimer p s
  | .reqTimeout tag => Sys2Proof.Machine.execReqTimeout tag s
  | .mirrorTimeout msg => Sys2Proof.Machine.execMirrorTimeout msg s
  | .timeSyncTimer => Sys2Proof.Machine.execTimeSyncTimer s
  | .mirrorMessageSend m => Sys2Proof.Machine.execMirrorMessageSend m s
  | .chainRetrain => Sys2Proof.Machine.execChainRetrain s
  | .chainEnableWrite v => Sys2Proof.Machine.execChainEnableWrite v s
  | .chainCommit => Sys2Proof.Machine.execChainCommit s
  | .chainClearStats => Sys2Proof.Machine.execChainClearStats s
  | .domainWrite x high value => Sys2Proof.Machine.execDomainWrite x high value s
  | .domainSwitchDone d => Sys2Proof.Machine.execDomainSwitchDone d s
  | .capWrite v => Sys2Proof.Machine.execCapWrite v s
  | .governorScan => Sys2Proof.Machine.execGovernorScan s
  | .powerMeasure mw below98For100ms => Sys2Proof.Machine.execPowerMeasure mw below98For100ms s
  | .thermalWarn temp => Sys2Proof.Machine.execThermalWarn temp s
  | .pwrGoodDeassert => Sys2Proof.Machine.execPwrGoodDeassert s
  | .vinUndervolt vin => Sys2Proof.Machine.execVinUndervolt vin s
  | .powerFailEnd => Sys2Proof.Machine.execPowerFailEnd s
  | .referenceLost => Sys2Proof.Machine.execReferenceLost s
  | .referenceRestored x => Sys2Proof.Machine.execReferenceRestored x s
  | .timebaseOffsetWrite x high value => Sys2Proof.Machine.execTimebaseOffsetWrite x high value s
  | .lowWordRead x addr => Sys2Proof.Machine.execLowWordRead x addr s
  | .marginEvaluation x => Sys2Proof.Machine.execMarginEvaluation x s
  | .speedStepApply b => Sys2Proof.Machine.execSpeedStepApply b s
  | .trimTempRecompute g adc => Sys2Proof.Machine.execTrimTempRecompute g adc s
  | .trialPhaseEnd g fraction syndrome => Sys2Proof.Machine.execTrialPhaseEnd g fraction syndrome s
  | .headSetNvWrite => Sys2Proof.Machine.execHeadSetNvWrite s
  | .trendEvaluation t value => Sys2Proof.Machine.execTrendEvaluation t value s
  | .calibClearStats => Sys2Proof.Machine.execCalibClearStats s
  | .coldStart x => Sys2Proof.Machine.execColdStart x s
  | .startTimeout => Sys2Proof.Machine.execStartTimeout s
  | .warmStart x => Sys2Proof.Machine.execWarmStart x s
  | .nvProgramDone verified => Sys2Proof.Machine.execNvProgramDone verified s
  | .moduleImageWrite => Sys2Proof.Machine.execModuleImageWrite s
  | .mailboxGo => Sys2Proof.Machine.execMailboxGo s
  | .smbBlockWrite bytes pecOk => Sys2Proof.Machine.execSmbBlockWrite bytes pecOk s
  | .smbStart => Sys2Proof.Machine.execSmbStart s
  | .smbStatusRead => Sys2Proof.Machine.execSmbStatusRead s
  | .smbBlockRead => Sys2Proof.Machine.execSmbBlockRead s
  | .logRead p => Sys2Proof.Machine.execLogRead p s
  | .meterRead p => Sys2Proof.Machine.execMeterRead p s
  | .sensorRead p => Sys2Proof.Machine.execSensorRead p s
  | .nvWrite p => Sys2Proof.Machine.execNvWrite p s
  | .nvWriteHoldTimeout => Sys2Proof.Machine.execNvWriteHoldTimeout s
  | .nvRead p => Sys2Proof.Machine.execNvRead p s
  | .restart p x => Sys2Proof.Machine.execRestart p x s
  | .events p => Sys2Proof.Machine.execEvents p s
  | .meterSnapshot => Sys2Proof.Machine.execMeterSnapshot s
  | .globalCommit first last => Sys2Proof.Machine.execGlobalCommit first last s
  | .registerWrite x addr value => Sys2Proof.Machine.execRegisterWrite x addr value s
  | .rstNAssert => Sys2Proof.Machine.execRstNAssert s
  | .discUnload b => Sys2Proof.Machine.execDiscUnload b s
  | .thermalWarnClear => Sys2Proof.Machine.execThermalWarnClear s
  | .fwCoreAStandby => Sys2Proof.Machine.execFwCoreAStandby s
  | .completerAbortRead addr len => Sys2Proof.Machine.execCompleterAbortRead addr len s

end Sys2Proof.Machine
end

