-- ==== Sys2Proof/Machine/Timing.lean ====
section
/-! DEFINITION. The timebase as time passes (R439, R455): the local count, and the slew of the published offset. -/

namespace Sys2Proof.Machine

/-- n ns pass on the local count; a slew removes its share of the offset, in whole ns (R439, R455). -/
def Timebase.advance (t : Timebase) (n : Nat) : Timebase :=
  let f := t.slewFrac + t.slew * n
  let whole := clampI (f.tdiv 100000000) (min 0 t.slewLeft) (max 0 t.slewLeft)
  let left := t.slewLeft - whole
  { t with
    localNs := t.localNs + n
    offset := t.offset + BitVec.ofInt 64 whole
    slew := if left = 0 then 0 else t.slew
    slewLeft := left
    slewFrac := if left = 0 then 0 else f - whole * 100000000 }

/-- One period of the 25.000 MHz reference passes, 40 ns (R25, R455). -/
def State.idle (s : State) : State := { s with time := s.time.advance 40 }

end Sys2Proof.Machine
end

