-- ==== Sys2Proof/Safety.lean ====
section
/-! DEFINITION. What a run must keep, and the words in which the statements about commands are said. -/

namespace Sys2Proof.Machine

/-! ### What the statements say of one command -/

/-- The command goes on, and P holds of the state that it leaves. -/
def Next (o : Host.Outcome State Fault Refusal) (P : State → Prop) : Prop := ∃ t, o = .next t ∧ P t

/-! ### What every run keeps -/

/-- The event log holds at most 16,384 entries (R23, R492). -/
def logBounded (l : List LogEntry) : Prop := l.length ≤ 16384

/-- The mode is legal: the module does not run in full and in minimal mode at once (GLOBAL.START.mode has one value). -/
def modeLegal (s : State) : Prop := s.minimal = true → s.mgmt.started = false

/-- What every run keeps: a legal mode, the bound of the event log, and the canonical form of the DRAM's contents. -/
def State.Legal (s : State) : Prop := modeLegal s ∧ logBounded s.log.entries ∧ Memory.wf s.dram = true

end Sys2Proof.Machine
end

