-- ==== Sys2Proof/Certificates/Slice0/Obligations.lean ====
section
/-! DEFINITION. The statements for the provers: what the commands of each family do, and what every step keeps. -/

open Sys2Proof Sys2Proof.Machine

/-- R503, stages 1 and 2, and R528: FOC_COMMIT, TRK_COMMIT, SPINDLE_COMMIT, AXIS_COMMIT, WR_COMMIT, ENG_COMMIT, VCHAN_COMMIT and DECODE_COMMIT
copy the shadow set of their group whole, and a set that passes its check becomes the pending set. The group is then committed once, so that it
holds no bare value. The shadow and committed fields, status fields and everything outside the register file stay as they are. -/
def Obligations.ShadowCommitCapturesWholeGroup : Prop :=
  ∀ s : State,
    let captured (tag : Nat) (o : Host.Outcome State Fault Refusal) : Prop := Next o fun t =>
      Tab.get? t.regs.pend tag = some (s.capture tag) ∧ t.committedOnce tag = true ∧
        (∀ other, other ≠ tag → Tab.get? t.regs.pend other = Tab.get? s.regs.pend other ∧ t.committedOnce other = s.committedOnce other) ∧
        t = { s with regs := { s.regs with pend := t.regs.pend, committed := t.regs.committed } }
    (∀ g, s.answers (.foc g) = true → captured (tagFoc g) (exec (.focCommit g) s)) ∧
    (∀ g, s.answers (.trk g) = true → captured (tagTrk g) (exec (.trkCommit g) s)) ∧
    (∀ b, s.answers (.spindle b) = true → captured (tagSpindle b) (exec (.spindleCommit b) s)) ∧
    (∀ a, s.answers (axisBlk a) = true → captured (tagAxis a) (exec (.axisCommit a) s)) ∧
    (∀ g, s.answers (.wr g) = true → captured (tagWr g) (exec (.wrCommit g) s)) ∧
    (∀ g, s.answers (.vchan g) = true → s.fld (.vchan g) VCHAN.verify_thr ≠ 0 → captured (tagVchan g) (exec (.vchanCommit g) s)) ∧
    (s.answers .decode = true → s.decodeOk = true → captured 0x0800 (exec .decodeCommit s))

/-- R103 to R105: with limit_lo ≤ limit_hi, slew above 0 and stage_count at most 8, ENG_COMMIT makes the loop's shadow set pending and keeps its
state_action for the adoption. Any other set is discarded: commit_error is set, the event is logged, and the pending set stays. A commit to the
slot engine, ENG[6], does nothing (R112).
R503: a CHAN or CHAIN set that fails its check is discarded, with commit_error set and the event logged, and no committed or pending set changes
where none waited. A set that passes while the domain is off stays pending (R504), until the domain comes on. -/
def Obligations.EngineChannelAndChainCommits : Prop :=
   (∀ (s : State) (g : HeadId) (l : Fin 6) (action : BitVec 2), s.answers (engBlk g l) = true →
      let b := engBlk g l
      let passes : Prop := s.fldS b ENG.limit_lo ≤ s.fldS b ENG.limit_hi ∧ 0 < s.fldS b ENG.slew ∧ s.fld b ENG.stage_count ≤ 8
      (passes → Next (exec (.engCommit g ⟨l.val, by omega⟩ action) s) fun t =>
        Tab.get? t.regs.pend (tagEng g l.val) = some (s.capture (tagEng g l.val)) ∧
          (t.heads[g.val].loops[l.val]).clearOnAdopt = (action == 1) ∧ t.regs.act = s.regs.act ∧ t.regs.cfg = s.regs.cfg ∧
          t = { s with regs := t.regs, heads := t.heads } ∧ ∀ h : HeadId, h ≠ g → t.heads[h.val] = s.heads[h.val]) ∧
      (¬ passes → Next (exec (.engCommit g ⟨l.val, by omega⟩ action) s) fun t =>
        t.sta b ENG.commit_error = 1 ∧ t.regs.pend = s.regs.pend ∧ t.regs.act = s.regs.act ∧ t.regs.cfg = s.regs.cfg ∧
          t.log.next = s.log.next + 1 ∧ t = { s with regs := t.regs, log := t.log }) ∧
      Next (exec (.engCommit g 6 action) s) (· = s)) ∧
   (∀ s : State,
      (∀ g, s.answers (.chan g) = true → s.chanOk g = true → s.pdOn (bayOf g).val = false →
        Next (exec (.chanCommit g) s) fun t => Tab.get? t.regs.pend (tagChan g) = some (s.capture (tagChan g)) ∧ t.regs.act = s.regs.act ∧
          t = { s with regs := t.regs }) ∧
      (∀ g, s.answers (.chan g) = true → s.chanOk g = true → s.pdOn (bayOf g).val = true →
        Next (exec (.chanCommit g) s) fun t => t.regs.act = actPuts s.regs.act ((groupFields (tagChan g)).zip (s.capture (tagChan g))) ∧
          t.regs.cfg = s.regs.cfg ∧ t = { s with regs := t.regs }) ∧
      (∀ g, s.answers (.chan g) = true → s.chanOk g = false → Tab.get? s.regs.pend (tagChan g) = none →
        Next (exec (.chanCommit g) s) fun t => t.sta (.chan g) CHAN.commit_error = 1 ∧ t.regs.pend = s.regs.pend ∧ t.regs.act = s.regs.act ∧
          t = { s with regs := t.regs, log := t.log }) ∧
      (s.answers .chain = true → s.chainOk = true → s.pdOn 17 = false →
        Next (exec .chainCommit s) fun t => Tab.get? t.regs.pend tagChain = some (s.capture tagChain) ∧ t.regs.act = s.regs.act ∧
          t = { s with regs := t.regs }) ∧
      (s.answers .chain = true → s.chainOk = false →
        Next (exec .chainCommit s) fun t => t.sta .chain CHAIN.commit_error = 1 ∧ t.regs.pend = s.regs.pend ∧ t.regs.act = s.regs.act ∧
          t = { s with regs := t.regs, log := t.log }))

/-- CTRL.clear_stats and CTRL.clear_counts (Tables 03-11, 04-5, 09-7, 10-7, 11-4, 14-5, 15-7, 15-8, 16-5, 17-6 and 19-6): the counters of the block
read 0, slack_min reads its most, 0xFFF, and every other status field and every other part of the module stays as it was. VCHAN_CLEAR_STATS clears
its counters and its histogram, CHAN_CLEAR_STATS those of all four beams.
CHAN_CLEAR_STATS clears the counters and the histogram of each of the head's four beams (R249). DECODE_CLEAR_STATS clears the decoders' counts with
the block's counters. BUFPOOL_CLEAR_STATS clears each pool's empty_events and restarts each quota's PEAK from what is held. CIPHER_CLEAR_STATS clears
the cores' units. CE_CLEAR_TABLE empties the table of corrected errors and touches nothing else. -/
def Obligations.ClearStatsZeroesItsCountersAlone : Prop :=
   (∀ s : State,
      let clears (b : Blk) (l : List (Field × Nat)) (o : Host.Outcome State Fault Refusal) : Prop := Next o fun t =>
        (∀ p ∈ l, t.sta b p.1 = p.2) ∧
          (∀ c f, (∀ p ∈ l, regKey b p.1 ≠ regKey c f) → t.sta c f = s.sta c f) ∧
          t = { s with regs := { s.regs with sts := t.regs.sts } }
      (∀ g, s.answers (.link g) = true →
        clears (.link g) [(LINK.code_errors, 0), (LINK.frame_errors, 0)] (exec (.linkClearCounts g) s)) ∧
      (∀ g e, s.answers (.eng g e) = true →
        clears (.eng g e) [(ENG.miss_count, 0), (ENG.slack_min, 0xFFF)] (exec (.engClearStats g e) s)) ∧
      (∀ g, s.answers (.vchan g) = true →
        clears (.vchan g) ([(VCHAN.verified, 0), (VCHAN.failed, 0), (VCHAN.sync_miss, 0), (VCHAN.header_fail, 0), (VCHAN.record_fail, 0)] ++
          (List.range 16).map (fun i => (VCHAN.sw_hist i, 0))) (exec (.vchanClearStats g) s)) ∧
      (s.answers .ccache = true →
        clears .ccache [(CCACHE.hits, 0), (CCACHE.misses, 0), (CCACHE.writebacks, 0), (CCACHE.victim_hits, 0), (CCACHE.stream_bypass, 0),
          (CCACHE.overflow, 0)] (exec .ccacheClearStats s)) ∧
      (∀ c, s.answers (.dramc c) = true →
        clears (.dramc c) [(DRAMC.freezes, 0), (DRAMC.switches, 0), (DRAMC.rfm_issued, 0), (DRAMC.events, 0)] (exec (.dramcClearStats c) s)) ∧
      (s.answers .memprot = true →
        clears .memprot [(MEMPROT.dram_passes, 0), (MEMPROT.sram_passes, 0), (MEMPROT.CE_DRAM_count, 0), (MEMPROT.CE_SRAM_count, 0),
          (MEMPROT.UE_DRAM_count, 0), (MEMPROT.UE_SRAM_count, 0)] (exec .memprotClearStats s)) ∧
      (s.answers .chain = true → clears .chain [(CHAIN.crc_errors, 0), (CHAIN.replays, 0)] (exec .chainClearStats s)) ∧
      (s.answers .calib = true → clears .calib [(CALIB.trials, 0), (CALIB.rejected, 0)] (exec .calibClearStats s))) ∧
   (∀ s : State,
      (∀ g, s.answers (.chan g) = true → Next (exec (.chanClearStats g) s) fun t =>
        (∀ (k : BeamId), ∀ f ∈ [BEAM.synced, BEAM.inferred, BEAM.lost, BEAM.confirmed, BEAM.rejected, BEAM.defects, BEAM.long_defects,
          BEAM.violations] ++ (List.range 16).map BEAM.hist, t.sta (.beam g k) f = 0) ∧
        (∀ k : BeamId, ((t.beams[g.val])[k.val]).slips = 0) ∧ (∀ h : HeadId, h ≠ g → t.beams[h.val] = s.beams[h.val]) ∧
        t = { s with regs := { s.regs with sts := t.regs.sts }, beams := t.beams }) ∧
      (s.answers .decode = true → Next (exec .decodeClearStats s) fun t =>
        (∀ f ∈ [DECODE.first_pass, DECODE.entered, DECODE.failed, DECODE.mismatches] ++ (List.range 6).map DECODE.step_ok, t.sta .decode f = 0) ∧
        (∀ i : Fin 20, t.decoders[i.val] = { s.decoders[i.val] with count := 0 }) ∧
        t = { s with regs := { s.regs with sts := t.regs.sts }, decoders := t.decoders }) ∧
      (s.answers .bufpool = true → Next (exec .bufpoolClearStats s) fun t =>
        (∀ p, t.sta (.pool p) POOL.empty_events = 0) ∧ (∀ e ∈ t.quotas, e.2.peak = e.2.held) ∧
        t.quotas.map (fun e => (e.1, e.2.held)) = s.quotas.map (fun e => (e.1, e.2.held)) ∧
        t = { s with regs := { s.regs with sts := t.regs.sts }, quotas := t.quotas }) ∧
      (s.answers .cipher = true → Next (exec .cipherClearStats s) fun t =>
        (∀ f ∈ [CIPHER.hits, CIPHER.fetches, CIPHER.retries, CIPHER.fences, CIPHER.requests, CIPHER.blocks], t.sta .cipher f = 0) ∧
        (∀ i : Fin 8, t.cipher.cores[i.val] = { s.cipher.cores[i.val] with units := 0 }) ∧
        t = { s with regs := { s.regs with sts := t.regs.sts }, cipher := { s.cipher with cores := t.cipher.cores } }) ∧
      (s.answers .memprot = true → exec .ceClearTable s = .next { s with ceTable := [] }))

/-- R84 and Table 03-7. A valid frame with no new fault, on a lane that is UP, keeps it UP and records the head's report. A frame with a bad CRC counts
as a frame error, and in TRAIN breaks the run of valid frames; so does a missing frame. In UP, with no stream open, the third bad frame in a row
takes the lane to TRAIN, and an earlier one is counted. A lane in DOWN or FAILED takes no frame. The training timeout counts the attempt, and
at retrain_limit the lane is FAILED. Other lanes, other heads and everything outside the heads and the register file stay as they are.
Table 03-7: with no write stream open, a retrain takes each lane that is UP or FAILED to TRAIN with no attempts counted, and leaves a lane that is
DOWN or in TRAIN as it is. Nothing else changes. A coil fault marks that coil out of use, and the head's LOST report is queued. -/
def Obligations.LaneStatesFollowStatusFrames : Prop :=
   (∀ (s : State) (g : HeadId) (k : BeamId) (w : Vector (BitVec 16) 8),
      let l := s.heads[g.val].lanes[k.val]
      let onlyLane (t : State) : Prop :=
        t = { s with heads := t.heads, regs := t.regs } ∧ (∀ h : HeadId, h ≠ g → t.heads[h.val] = s.heads[h.val]) ∧
          (∀ j : BeamId, j ≠ k → (t.heads[g.val]).lanes[j.val] = s.heads[g.val].lanes[j.val])
      (l.st = .up → frameValid l k w = true → clearBits (faultBits w[1]) (faultBits l.flags) = 0 →
        Next (exec (.statusFrame g k w) s) fun t => onlyLane t ∧ t.heads[g.val].lanes[k.val] =
          { l with
            st := .up, attempts := 0, valid := l.valid + 1, bad := 0, seq := some (w[0].extractLsb' 0 8), flags := w[1], fifo := w[2],
            power := w[3], drive := w[4], threshold := w[5], temp := w[6], emitterOn := w[1].getLsbD 9 }) ∧
      (l.st = .train → crc16 (w.toList.take 7) ≠ w[7] →
        Next (exec (.statusFrame g k w) s) fun t => onlyLane t ∧ t.heads[g.val].lanes[k.val] = { l with valid := 0 } ∧
          t.sta (.link g) LINK.frame_errors = min (s.sta (.link g) LINK.frame_errors + 1) 0xFFFF) ∧
      (l.st = .down ∨ l.st = .failed → exec (.statusFrame g k w) s = .next s) ∧
      (l.st = .train → Next (exec (.laneFrameTimeout g k) s) fun t => onlyLane t ∧ t.heads[g.val].lanes[k.val] = { l with valid := 0 }) ∧
      (l.st = .up → l.stream = false → Next (exec (.laneFrameTimeout g k) s) fun t => onlyLane t ∧ t.regs = s.regs ∧
        t.heads[g.val].lanes[k.val] = if 3 ≤ l.bad + 1 then { l with st := .train, attempts := 0, valid := 0, bad := 0, seq := none }
          else { l with bad := l.bad + 1 }) ∧
      (l.st = .train → Next (exec (.laneTrainTimeout g k) s) fun t => onlyLane t ∧ t.regs = s.regs ∧
        t.heads[g.val].lanes[k.val] = { l with
          st := if s.fld1 (.link g) LINK.retrain_limit ≤ l.attempts + 1 then .failed else .train, attempts := l.attempts + 1, valid := 0 })) ∧
   (∀ (s : State) (g : HeadId),
      (s.answers (.link g) = true → (∀ k : BeamId, (s.heads[g.val].lanes[k.val]).stream = false) →
        Next (exec (.linkRetrain g) s) fun t => t = { s with heads := t.heads } ∧ (∀ h : HeadId, h ≠ g → t.heads[h.val] = s.heads[h.val]) ∧
          ∀ k : BeamId, t.heads[g.val].lanes[k.val] =
            let l := s.heads[g.val].lanes[k.val]
            if l.st = .up ∨ l.st = .failed then { l with st := .train, attempts := 0, valid := 0, bad := 0, seq := none } else l) ∧
      ∀ (c : Coil) (shorted : Bool), s.windowOpen g = false → Tab.get? s.calib.trials g.val = none → Next (exec (.coilFault g c shorted) s) fun t =>
        t.heads[g.val].coilOff = setBit s.heads[g.val].coilOff (coilIx c).val true ∧ t.heads[g.val].lost = true ∧
          Report.lost g (coilIx c) ∈ t.bays[(bayOf g).val].reports ∧ t.log.next = s.log.next + 1 ∧
          t = { s with heads := t.heads, bays := t.bays, beams := t.beams, log := t.log })

/-- R90 and Table 04-2: with the bay's signal domain on, a strobe drives the samples of the previous strobe, adopts pending sets, runs the sequencers and
starts the next samples, in this order; with it off the engines are in OFF and nothing changes.
R108: a miss of a loop whose sample is in progress discards that sample, so that the output driven stays; miss_count rises by 1 and saturates,
slack_last and slack_min read 0, and the third miss within 1,000 samples asks for a spare. Fewer than 50 misses leave the head in use: other loops
and heads and everything but the register file, the heads and the log stay. Without a sample in progress nothing happens (Table 04-4). -/
def Obligations.StrobesAndMissesOfAnEngine : Prop :=
   (∀ (s : State) (g : HeadId) (x : StrobeIn),
      (s.pdOn (bayOf g).val = true → exec (.headStrobe g x) s =
        .next ((State.strobeRun (s.strobeIn g x) g ((s.strobeIn g x).sense g x) x).strobeOut g)) ∧
      (s.pdOn (bayOf g).val = false → exec (.headStrobe g x) s = .next s)) ∧
   (∀ (s : State) (g : HeadId) (l : Fin 6),
      let y := s.heads[g.val].loops[l.val]
      let recent := (y.sampleIx - 1) :: missesIn y.misses (y.sampleIx - 1)
      (y.sample.isSome = true → recent.length < 50 → Next (exec (.sampleMiss g ⟨l.val, by omega⟩) s) fun t =>
        t.heads[g.val].loops[l.val] = { y with sample := none, misses := recent, needSpare := decide (3 ≤ recent.length) } ∧
          t.sta (engBlk g l) ENG.miss_count = min (s.sta (engBlk g l) ENG.miss_count + 1) 0xFFFF ∧
          t.sta (engBlk g l) ENG.slack_last = 0 ∧ t.sta (engBlk g l) ENG.slack_min = 0 ∧
          (∀ j : Fin 6, j ≠ l → (t.heads[g.val]).loops[j.val] = s.heads[g.val].loops[j.val]) ∧
          (∀ h : HeadId, h ≠ g → t.heads[h.val] = s.heads[h.val]) ∧
          t = { s with heads := t.heads, regs := t.regs, log := t.log }) ∧
      (y.sample = none → exec (.sampleMiss g ⟨l.val, by omega⟩) s = .next s))

/-- R97: the program's last operation is the clamp, so that with limit_lo ≤ limit_hi, both Q0.17 values, the output lies between them. The slew limit comes
before it: where the previous output lies within the limits and the slew is not negative, the output differs from it by at most the slew. -/
def Obligations.EngineOutputStaysWithinItsLimits : Prop :=
  ∀ (e : EngSet) (l : LoopSt) (runout : Int), e.lo ≤ e.hi → -131072 ≤ e.lo → e.hi ≤ 131071 →
    let o := (compute e l runout).out.toInt
    e.lo ≤ o ∧ o ≤ e.hi ∧
      (0 ≤ e.slew → e.lo ≤ l.prevOut.toInt → l.prevOut.toInt ≤ e.hi →
        l.prevOut.toInt - e.slew ≤ o ∧ o ≤ l.prevOut.toInt + e.slew)

/-- R493: a test that ends is counted and logged, and SELFTEST.LAST names its source and outcome. A drive or an axis in FAULT keeps the result for its
clear_fault (R189, R214). A retired engine that fails stays retired (R101). A retired decoder becomes a spare or is out of service (R281), and an SRAM bank
returns or is retired. -/
def Obligations.TargetedTestDecidesItsResource : Prop :=
  ∀ (s : State) (pass : Bool),
    let recorded (t : State) (src : BitVec 16) : Prop :=
      t.sta .selftest SELFTEST.source = src.toNat ∧ t.sta .selftest SELFTEST.outcome = (if pass then 1 else 2) ∧ t.log.next = s.log.next + 1
    (∀ b, (s.spindle b).st = .fault → (s.spindle b).testPass = none → Next (exec (.targetedTestDone (.spindle b) pass) s) fun t =>
      recorded t (srcSpindle b) ∧ t.spindle b = { s.spindle b with testPass := some pass } ∧
        t = { s with bays := t.bays, regs := t.regs, log := t.log, resHist := t.resHist }) ∧
    (∀ a, (s.axis a).st = .fault → (s.axis a).testPass = none → Next (exec (.targetedTestDone (.axis a) pass) s) fun t =>
      recorded t (srcAxis a) ∧ t.axis a = { s.axis a with testPass := some pass } ∧
        t = { s with sleds := t.sleds, sas := t.sas, trans := t.trans, regs := t.regs, log := t.log, resHist := t.resHist }) ∧
    (∀ src, Tab.get 0 s.srams src.toNat = 1 → Next (exec (.targetedTestDone (.sram src) pass) s) fun t =>
      recorded t src ∧ (pass = false → Tab.get 0 t.srams src.toNat = 2) ∧
        t = { s with srams := t.srams, regs := t.regs, log := t.log, resHist := t.resHist }) ∧
    (∀ i, (s.decoders[i.val]).st = .retired → pass = false → Next (exec (.targetedTestDone (.decoder i) pass) s) fun t =>
      recorded t (srcDecoder i.val) ∧ (t.decoders[i.val]).st = .failed ∧
        t = { s with decoders := t.decoders, regs := t.regs, log := t.log, resHist := t.resHist }) ∧
    (∀ g (e : EngId) r, s.heads[g.val].retired.find? (fun x => x.phys == 7 * g.val + e.val) = some r → r.failed = false → pass = false →
      Next (exec (.targetedTestDone (.engine g e) pass) s) fun t => recorded t (srcHead g e.val) ∧
        (∀ x ∈ t.heads[g.val].retired, x.phys = 7 * g.val + e.val → x.failed = true) ∧
        t = { s with heads := t.heads, regs := t.regs, log := t.log, resHist := t.resHist }) ∧
    (∀ i, (s.cipher.cores[i.val]).st ≠ .testing → exec (.targetedTestDone (.cipherCore i) pass) s = .next s)

/-- Table 05-1. acq_start takes a head that is in OFF or FAILED, whose groups are committed, whose domain is on and whose axes are homed, to SWEEP at
sweep_start, and in every other state does nothing. A capture timeout goes back to SWEEP from the output reached. An identify timeout, while not paused for the
spindle, and a recapture timeout count an attempt: below acq_retry the head goes to SWEEP; with the last attempt it fails, with cause 1. -/
def Obligations.FocusAcquisitionCountsItsAttempts : Prop :=
  ∀ (s : State) (g : HeadId),
    let f := s.heads[g.val].foc
    let goes (t : State) (st : FocState) (v : Q17) : Prop :=
      t.focState g = st ∧ (t.heads[g.val].loops[0]).cmd = some (.override v)
    let others (t : State) : Prop :=
      t = { s with heads := t.heads } ∧ ∀ h : HeadId, h ≠ g → t.heads[h.val] = s.heads[h.val]
    (s.answers (.foc g) = true → f.st = .off ∨ f.st = .failed → s.headBare g = false → s.pdOn (bayOf g).val = true →
      s.sleds[g.val].homed = true → s.sas[g.val].homed = true →
      Next (exec (.focAcqStart g) s) fun t => goes t .sweep (s.sweepStart g) ∧ (t.heads[g.val].foc).attempts = 0 ∧ others t) ∧
    (s.answers (.foc g) = true → f.st ≠ .off → f.st ≠ .failed → exec (.focAcqStart g) s = .next s) ∧
    (f.st = .capture → Next (exec (.captureTimeout g) s) fun t =>
      goes t .sweep (s.loopOut g 0) ∧ (t.heads[g.val].foc).attempts = f.attempts ∧ others t) ∧
    (f.st = .identify → f.waitSpindle = false → f.attempts + 1 < s.fld1 (.foc g) FOC.acq_retry → Next (exec (.identifyTimeout g) s) fun t =>
      goes t .sweep (s.loopOut g 0) ∧ (t.heads[g.val].foc).attempts = f.attempts + 1 ∧ others t) ∧
    (f.st = .recapture → f.attempts + 1 < s.fld1 (.foc g) FOC.acq_retry → Next (exec (.recaptureTimeout g) s) fun t =>
      goes t .sweep (s.sweepStart g) ∧ (t.heads[g.val].foc).attempts = f.attempts + 1 ∧ others t) ∧
    (f.st = .recapture → s.fld1 (.foc g) FOC.acq_retry ≤ f.attempts + 1 → Next (exec (.recaptureTimeout g) s) fun t =>
      t.focState g = .failed ∧ (t.heads[g.val].foc).failCause = 1) ∧
    (f.st ≠ .capture → exec (.captureTimeout g) s = .next s) ∧ (f.st ≠ .recapture → exec (.recaptureTimeout g) s = .next s)

/-- Table 05-3. At the end of the kick the step coasts at held + d × hold_bias. A coast timeout sets jump_fault and brakes blind at
held + d × (hold_bias − brake_amp). At the end of the brake the engine runs from held + d × hold_bias and the next layer is in focus. A lock
timeout sets jump_fault and enters RECAPTURE around the output held; so does the end of a blind brake, which sets no flag of its own. The last step's settle ends in
IDENTIFY and records its time.
R130: from LOCKED in a defect hold, the timeout drives the output at the last good output less recap_span (R131), enters RECAPTURE, sets STATUS.loss,
counts the loss, saturating at 255, and holds the layer that was in focus. Without a hold, or out of LOCKED, the timer does nothing. -/
def Obligations.LayerStepsAndDefectHoldsAreTimed : Prop :=
   (∀ (s : State) (g : HeadId) (j : Jump),
      let f := s.heads[g.val].foc
      let bias : Int := s.act (.foc g) FOC.hold_bias
      let amp : Int := s.act (.foc g) FOC.brake_amp
      let at_ (v : Int) : Q17 := satQ17 (j.held.toInt + (if j.deeper then v else -v))
      let others (t : State) : Prop :=
        t = { s with heads := t.heads, regs := t.regs } ∧ ∀ h : HeadId, h ≠ g → t.heads[h.val] = s.heads[h.val]
      let cmd (t : State) : Option EngCmd := (t.heads[g.val].loops[0]).cmd
      f.st = .jump → f.jump = some j →
      (j.phase = .kick → Next (exec (.jumpKickEnd g) s) fun t =>
        cmd t = some (.override (at_ bias)) ∧ (t.heads[g.val].foc).jump = some { j with phase := .coast } ∧ others t) ∧
      (j.phase = .coast → Next (exec (.jumpCoastTimeout g) s) fun t =>
        cmd t = some (.override (at_ (bias - amp))) ∧ (t.heads[g.val].foc).jump = some { j with phase := .brakeBlind } ∧
          t.sta (.foc g) FOC.jump_fault = 1 ∧ others t) ∧
      (j.phase = .brake → Next (exec (.jumpBrakeEnd g) s) fun t =>
        cmd t = some (.run false (some (at_ bias))) ∧ (t.heads[g.val].foc).jump = some { j with phase := .lock } ∧
          (t.heads[g.val].foc).sl = some j.next ∧ others t) ∧
      (j.phase = .brakeBlind → Next (exec (.jumpBrakeEnd g) s) fun t =>
        cmd t = some (.override (satQ17 (j.held.toInt - s.act (.foc g) FOC.recap_span))) ∧ t.focState g = .recapture ∧ others t) ∧
      (j.phase = .lock → Next (exec (.jumpLockTimeout g) s) fun t =>
        cmd t = some (.override (satQ17 (j.held.toInt - s.act (.foc g) FOC.recap_span))) ∧ t.focState g = .recapture ∧
          t.sta (.foc g) FOC.jump_fault = 1 ∧ others t) ∧
      (j.phase = .settle → s.sas[g.val].jumpSeg = false → f.target = none ∨ f.target = some j.next → Next (exec (.jumpSettleEnd g) s) fun t =>
        t.focState g = .identify ∧ (t.heads[g.val].foc).lastStep = min 65535 ((s.time.localNs - j.began) / 1000) ∧ others t)) ∧
   (∀ (s : State) (g : HeadId),
      let f := s.heads[g.val].foc
      (f.st = .locked → f.holdOn = true → s.windowOpen g = false → Tab.get? s.calib.trials g.val = none →
        Next (exec (.defectHoldTimeout g) s) fun t =>
          t.focState g = .recapture ∧ (t.heads[g.val].foc).lossSl = f.sl ∧ (t.heads[g.val].foc).holdOn = false ∧
            (t.heads[g.val].foc).lossCount = satInc 8 f.lossCount ∧ t.sta (.foc g) FOC.loss = 1 ∧
            (t.heads[g.val].loops[0]).cmd = some (.override (satQ17 (f.lastGood.toInt - s.act (.foc g) FOC.recap_span))) ∧
            Report.lost g 0 ∈ t.bays[(bayOf g).val].reports ∧ t.log.next = s.log.next + 1 ∧
            t = { s with heads := t.heads, bays := t.bays, beams := t.beams, regs := t.regs, log := t.log }) ∧
      (f.st ≠ .locked ∨ f.holdOn = false → exec (.defectHoldTimeout g) s = .next s))

/-- Table 06-1 and Table 06-2. acq_start from FAILED, a confirmation timeout, and a brake or lock timeout of a lens jump enter ACQUIRE with the tracking
engine in OVERRIDE at 0. A failed pull-in returns the engine to OVERRIDE at 0 and stays in ACQUIRE. acq_timeout fails the head with cause 2. A kick timeout
coasts with the tracking output held. Out of its state each of them does nothing. Nothing changes outside the head, but the log of a failure. -/
def Obligations.TrackingTimersFollowTable06_1 : Prop :=
  ∀ (s : State) (g : HeadId),
    let x := s.heads[g.val].trk
    let others (t : State) : Prop :=
      t = { s with heads := t.heads } ∧ (∀ h : HeadId, h ≠ g → t.heads[h.val] = s.heads[h.val]) ∧
        (∀ l : Fin 6, l ≠ 1 → (t.heads[g.val]).loops[l.val] = s.heads[g.val].loops[l.val]) ∧ (t.heads[g.val]).foc = s.heads[g.val].foc
    let atZero (t : State) : Prop := (t.heads[g.val].loops[1]).cmd = some (.override 0)
    let acquires (o : Host.Outcome State Fault Refusal) : Prop := Next o fun t =>
      t.trkState g = .acquire ∧ atZero t ∧ (t.heads[g.val].trk).running = false ∧ (t.heads[g.val].trk).lens = none ∧ others t
    (s.answers (.trk g) = true → x.st = .failed → acquires (exec (.trkAcqStart g) s)) ∧
    (s.answers (.trk g) = true → x.st ≠ .failed → exec (.trkAcqStart g) s = .next s) ∧
    (x.st = .confirm → acquires (exec (.confirmTimeout g) s)) ∧
    (x.st ≠ .confirm → exec (.confirmTimeout g) s = .next s) ∧
    (∀ j, x.lens = some j → x.st = .jump → j.phase = .brake → acquires (exec (.lensBrakeTimeout g) s)) ∧
    (∀ j, x.lens = some j → x.st = .jump → j.phase = .lock → acquires (exec (.lensLockTimeout g) s)) ∧
    (∀ j, x.lens = some j → x.st = .jump → j.phase = .kick → Next (exec (.lensKickTimeout g) s) fun t =>
      (t.heads[g.val].loops[1]).cmd = some (.override j.held) ∧ (t.heads[g.val].trk).lens = some { j with phase := .coast } ∧ others t) ∧
    (x.st ≠ .jump → exec (.lensKickTimeout g) s = .next s ∧ exec (.lensBrakeTimeout g) s = .next s ∧ exec (.lensLockTimeout g) s = .next s) ∧
    (x.st = .acquire → x.running = true → Next (exec (.trackPullinTimeout g) s) fun t =>
      t.trkState g = .acquire ∧ atZero t ∧ (t.heads[g.val].trk).running = false ∧ others t) ∧
    (x.st = .acquire → Next (exec (.acqTimeout g) s) fun t =>
      t.trkState g = .failed ∧ (t.heads[g.val].trk).failCause = 2 ∧ atZero t ∧ t.log.next = s.log.next + 1 ∧
        t = { s with heads := t.heads, log := t.log }) ∧
    (x.st ≠ .acquire → exec (.acqTimeout g) s = .next s ∧ exec (.trackPullinTimeout g) s = .next s)

/-- R151: SEEK_START, with the seek waiting and its grant held, takes the sled's position, the present track and the lens offset as the seek's origin, and
retargets the sled alone among the axes. Without the grant it does nothing. SLED_SETTLE_END returns the grant, so that the head holds none and waits for none, and
acquires; a cancelled seek is left with no expected track (R152). -/
def Obligations.SeekMovesUnderItsGrant : Prop :=
  ∀ (s : State) (g : HeadId),
    let x := s.heads[g.val].trk
    (x.st = .seek → x.seek = some .waitGrant → s.seekHeld g = true → Next (exec (.seekStart g) s) fun t =>
      (t.heads[g.val].trk).seek = some .moving ∧ (t.heads[g.val].trk).seekFrom = s.sleds[g.val].pos ∧
        (t.heads[g.val].trk).seekTrack = x.track ∧ (t.heads[g.val].trk).seekLens = s.lensOffset g ∧
        (∀ h : HeadId, h ≠ g → t.heads[h.val] = s.heads[h.val] ∧ t.sleds[h.val] = s.sleds[h.val]) ∧
        t.sas = s.sas ∧ t.trans = s.trans ∧ t.power = s.power) ∧
    (s.seekHeld g = false → exec (.seekStart g) s = .next s) ∧
    (x.seek = some .settling → x.st = .seek → Next (exec (.sledSettleEnd g) s) fun t =>
      t.trkState g = .acquire ∧ (t.heads[g.val].trk).seek = none ∧
        (t.heads[g.val].trk).expected = (if x.cancelled then none else x.expected)) ∧
    (x.seek ≠ some .settling → exec (.sledSettleEnd g) s = .next s)

/-- R158: the end of a blend drops RETIRING and begins the next pass with SHADOW as a copy of ACTIVE (R157), unless a pass already runs. R160: a fetch that finds its
table ready while the head is not LOCKED adopts it as ACTIVE at once, and one that finds none leaves every bank empty, in a rebuild pass (R159). A rebuild with no table
marks the next pass of each loop as a rebuild pass. -/
def Obligations.RunoutTablesAreLearntAndFetched : Prop :=
  ∀ (s : State) (g : HeadId) (l : Fin 3),
    let r := s.heads[g.val].runout[l.val]
    let only (t : State) : Prop := t = { s with heads := t.heads } ∧ (∀ h : HeadId, h ≠ g → t.heads[h.val] = s.heads[h.val]) ∧
      ∀ j : Fin 3, j ≠ l → (t.heads[g.val]).runout[j.val] = s.heads[g.val].runout[j.val]
    (r.blend.isSome = true → Next (exec (.blendEnd g l) s) fun t =>
      (t.heads[g.val].runout[l.val]).blend = none ∧ (t.heads[g.val].runout[l.val]).retiring = [] ∧
        (t.heads[g.val].runout[l.val]).active = r.active ∧
        (r.learning = false → (t.heads[g.val].runout[l.val]).shadow = r.active) ∧ only t) ∧
    (r.blend = none → exec (.blendEnd g l) s = .next s) ∧
    (∀ x, r.fetching = true → s.runoutStore.find? (fun y => some y.key == r.key) = some x → s.focState g ≠ .locked →
      Next (exec (.runoutFetchDone g l true) s) fun t =>
        (t.heads[g.val].runout[l.val]).active = x.table ∧ (t.heads[g.val].runout[l.val]).shadow = x.shadow.getD x.table ∧
          (t.heads[g.val].runout[l.val]).fetching = false ∧ only t) ∧
    (∀ ok, r.fetching = true → s.runoutStore.find? (fun y => some y.key == r.key) = none →
      Next (exec (.runoutFetchDone g l ok) s) fun t =>
        (t.heads[g.val].runout[l.val]).active = [] ∧ (t.heads[g.val].runout[l.val]).rebuild = true ∧
          (t.heads[g.val].runout[l.val]).fetching = false ∧ only t) ∧
    (∀ ok, r.fetching = false → exec (.runoutFetchDone g l ok) s = .next s) ∧
    (s.answers (.trk g) = true → (∀ j : Fin 3, (s.heads[g.val].runout[j.val]).table = .none) → Next (exec (.trkRebuild g) s) fun t =>
      (∀ j : Fin 3, t.heads[g.val].runout[j.val] = { s.heads[g.val].runout[j.val] with nextRebuild := true }) ∧
        t = { s with heads := t.heads } ∧ ∀ h : HeadId, h ≠ g → t.heads[h.val] = s.heads[h.val])

/-- At a wedge boundary the bay's wedge number moves on and the windows that begin at it open, then each head ends what is due, closes what has run over,
measures its wedge and is served; at wedge 0 of a disc whose marks are seen, the turn is closed. With the bay's domain off nothing changes. -/
def Obligations.WedgeTickServesEachHead : Prop :=
  ∀ (s : State) (b : BayId) (w : BitVec 10) (revNs : BitVec 32),
    let opened := (s.modBay b (fun x => x.tick w.toNat)).startWindows b w.toNat
    let closed := opened.eachHead b (fun t g => (t.streamWedge g (t.writeDone g) (revNs.toNat / 720)).closeOver g)
    let measured := closed.eachHead b (fun t g => t.headWedge g s.bays[b.val].wedge w.toNat)
    let turned := if w = 0 ∧ measured.bays[b.val].marks = true then measured.wedgeZero b revNs.toNat else measured
    (s.pdOn b.val = true → exec (.wedgeTick b w revNs) s = .next (turned.eachHead b State.serveHead)) ∧
    (s.pdOn b.val = false → exec (.wedgeTick b w revNs) s = .next s)

/-- Table 07-2. DRIVE_START from IDLE or STOP under a spin-up grant enters SENSE. SENSE ends in ALIGN below emf_detect, in RAMP at the speed found below handover_rpm,
and in FAULT with cause 7 where the shunt check fails. ALIGN ends in RAMP from 0, RESYNC in RUN once the torque is restored, and STOP, once braked, in IDLE, or in SENSE
where a start follows. A command or timer that does not belong to the state leaves the module as it was. -/
def Obligations.SpindleStatesFollowTable07_2 : Prop :=
  ∀ (s : State) (b : BayId),
    let x := s.spindle b
    let enters (st : SpState) (o : Host.Outcome State Fault Refusal) : Prop := Next o fun t =>
      (t.spindle b).st = st ∧ (t.spindle b).atSpeed = false ∧ ∀ c : BayId, c ≠ b → t.spindle c = s.spindle c
    (x.st = .idle ∨ x.st = .stop → s.spinHeld b = true → s.spindleBare b = false → s.t2Inside b = false →
      enters .sense (exec (.driveStart b) s)) ∧
    (x.st ≠ .idle → x.st ≠ .stop → exec (.driveStart b) s = .next s) ∧
    (∀ i : SenseIn, x.st = .sense → i.shuntOk = true → i.speed < 10 * s.fld (.spindle b) SPINDLE.emf_detect →
      enters .align (exec (.senseEnd b i) s)) ∧
    (∀ i : SenseIn, x.st = .sense → i.shuntOk = true → 10 * s.fld (.spindle b) SPINDLE.emf_detect ≤ i.speed → i.direction = some (!s.spReverse b) →
      i.speed < 10 * s.fld (.spindle b) SPINDLE.handover_rpm → enters .ramp (exec (.senseEnd b i) s)) ∧
    (x.st = .align → Next (exec (.alignEnd b) s) fun t => t.spindle b = ({ x.go .ramp with
      ramp := 0, rampAgree := 0, idRef := 10 * s.spf b SPINDLE.if_current, iqRef := 0 }) ∧ t = { s with bays := t.bays }) ∧
    (x.st = .resync → enters .run (exec (.torqueRestored b) s)) ∧
    (x.st = .stop → x.stopFault = false → x.stopNext = false → enters .idle (exec (.stopBrakeEnd b) s)) ∧
    (x.st = .stop → x.stopFault = false → x.stopNext = true → enters .sense (exec (.stopBrakeEnd b) s)) ∧
    (x.st ≠ .sense → ∀ i, exec (.senseEnd b i) s = .next s) ∧ (x.st ≠ .align → exec (.alignEnd b) s = .next s) ∧
    (x.st ≠ .resync → exec (.torqueRestored b) s = .next s) ∧ (x.st ≠ .stop → exec (.stopBrakeEnd b) s = .next s)

/-- R189: overcurrent takes any state but OFF and FAULT to FAULT with cause 1; a phase open in ALIGN, RAMP or RUN gives cause 3, the brake timeout cause 5, the coast timeout
cause 6, and over-temperature of a die cause 2 for each of its bays that runs. clear_fault leads from FAULT to IDLE once the targeted test has passed; before that it is
refused, cmd_refused is set, and the drive stays in FAULT. -/
def Obligations.SpindleFaultsStopTheDrive : Prop :=
  ∀ (s : State) (b : BayId),
    let x := s.spindle b
    let faults (cause : BitVec 4) (o : Host.Outcome State Fault Refusal) : Prop := Next o fun t =>
      (t.spindle b).st = .fault ∧ (t.spindle b).faultCause = cause ∧ (t.spindle b).idRef = 0 ∧ (t.spindle b).iqRef = 0
    (x.st ≠ .off → x.st ≠ .fault → faults 1 (exec (.spindleOvercurrent b) s)) ∧
    (x.st = .off ∨ x.st = .fault → exec (.spindleOvercurrent b) s = .next s) ∧
    (x.st = .align ∨ x.st = .ramp ∨ x.st = .run → faults 3 (exec (.spindlePhaseOpen b) s)) ∧
    (x.st = .brake → faults 5 (exec (.brakeTimeout b) s)) ∧ (x.st = .coast → faults 6 (exec (.spindleCoastTimeout b) s)) ∧
    (x.st ≠ .brake → exec (.brakeTimeout b) s = .next s) ∧ (x.st ≠ .coast → exec (.spindleCoastTimeout b) s = .next s) ∧
    (∀ die, b ∈ dieBays die → x.st ≠ .off → x.st ≠ .fault → faults 2 (exec (.bridgeOvertemp die) s)) ∧
    (s.answers (.spindle b) = true → x.st = .fault → x.testPass = some true → Next (exec (.spindleClearFault b) s) fun t =>
      (t.spindle b).st = .idle ∧ (t.spindle b).faultCause = 0) ∧
    (s.answers (.spindle b) = true → x.st = .fault → x.testPass ≠ some true → Next (exec (.spindleClearFault b) s) fun t =>
      t.sta (.spindle b) SPINDLE.cmd_refused = 1 ∧ t.log.next = s.log.next + 1 ∧ t = { s with regs := t.regs, log := t.log })

/-- R172: a start request in IDLE or STOP is kept until its grant, is refused in OFF and FAULT, and has no effect in any other state. A stop enters STOP with the currents at 0. R174: a change of
reverse above reverse_rpm is refused, leaves the field, sets cmd_refused and is logged; one in IDLE writes the field alone. R180: a target above 6,000 is refused. The
field-weakening limit clears at_speed and sets speed_limited (R169). -/
def Obligations.SpindleRequestsAreServedOrRefused : Prop :=
  ∀ (s : State) (b : BayId), s.answers (.spindle b) = true →
    let x := s.spindle b
    let refused (o : Host.Outcome State Fault Refusal) : Prop := Next o fun t =>
      t.sta (.spindle b) SPINDLE.cmd_refused = 1 ∧ t.log.next = s.log.next + 1 ∧ t.regs.cfg = s.regs.cfg ∧ t = { s with regs := t.regs, log := t.log }
    (x.st = .idle ∨ x.st = .stop → Next (exec (.spindleStart b) s) fun t =>
      t.spindle b = { x with wantStart := true } ∧ (∀ c : BayId, c ≠ b → t.spindle c = s.spindle c) ∧ t.regs = s.regs) ∧
    (x.st = .off ∨ x.st = .fault → refused (exec (.spindleStart b) s)) ∧
    (x.st ≠ .idle → x.st ≠ .stop → x.st ≠ .off → x.st ≠ .fault → exec (.spindleStart b) s = .next s) ∧
    (x.st ≠ .off → x.st ≠ .idle → x.st ≠ .fault → Next (exec (.spindleStop b) s) fun t =>
      (t.spindle b).st = .stop ∧ (t.spindle b).idRef = 0 ∧ (t.spindle b).iqRef = 0 ∧ (t.spindle b).stopNext = false) ∧
    (x.st = .off ∨ x.st = .idle ∨ x.st = .fault → exec (.spindleStop b) s = .next s) ∧
    (∀ v, s.spReverse b ≠ v → 10 * s.fld (.spindle b) SPINDLE.reverse_rpm < x.speed.natAbs → refused (exec (.spindleReverseWrite b v) s)) ∧
    (∀ v, s.spReverse b ≠ v → x.speed.natAbs ≤ 10 * s.fld (.spindle b) SPINDLE.reverse_rpm → x.st = .idle →
      exec (.spindleReverseWrite b v) s = .next (s.setFld (.spindle b) SPINDLE.reverse (b2n v))) ∧
    (∀ rpm : BitVec 13, 6000 < rpm.toNat → refused (exec (.targetRpmWrite b rpm) s)) ∧
    (∀ rpm : BitVec 13, rpm.toNat ≤ 6000 → x.st = .idle → s.fld (.spindle b) SPINDLE.rpm = rpm.toNat → Next (exec (.targetRpmWrite b rpm) s) fun t =>
      t.fld (.spindle b) SPINDLE.rpm = rpm.toNat ∧ t.spindle b = x) ∧
    (x.st = .run → x.idRef = -(10 * s.spf b SPINDLE.fw_imax) → s.fwd b x.speed < x.ref / 40 → Next (exec (.fieldWeakenLimit b) s) fun t =>
      t.spindle b = { x with limited := true, atSpeed := false, revGood := 0, ref := 40 * s.fwd b x.speed } ∧ t = { s with bays := t.bays })

/-- A PWM period measures, then regenerates, checks the handover, the brake and the coast estimate and the loss, and turns the angle on. A speed-loop period adopts a pending SPINDLE set, and then runs the
speed loop in RUN, checks for loss in RUN and RESYNC, and ramps in RAMP; in any other state it adopts and no more. -/
def Obligations.DriveLoopsRunTheirPeriods : Prop :=
  ∀ (s : State) (b : BayId),
    (∀ i : PwmIn, (s.spindle b).st = .off → exec (.pwmPeriod b i) s = .next s) ∧
    (∀ i : PwmIn, (s.spindle b).st ≠ .off → exec (.pwmPeriod b i) s =
      .next ((((((((s.measure b i).regenStep b i.vinMv).agreeStep b i).brakeStep b i).coastStep b i).lossStep b i).angleStep b i.speed))) ∧
    (∀ i : SpeedIn, (s.spindle b).st ≠ .run → (s.spindle b).st ≠ .resync → (s.spindle b).st ≠ .ramp →
      exec (.speedLoopPeriod b i) s = .next (s.adopt (tagSpindle b))) ∧
    (∀ i : SpeedIn, (s.spindle b).st = .run → (s.adopt (tagSpindle b)).emfLoss b i = false →
      exec (.speedLoopPeriod b i) s = .next ((s.adopt (tagSpindle b)).runLoop b i)) ∧
    (∀ i : SpeedIn, (s.spindle b).st = .ramp → exec (.speedLoopPeriod b i) s = .next ((s.adopt (tagSpindle b)).rampLoop b))

/-- A 0 written to CTRL.enable drops the axis to DISABLED, unhomed and at rest; a 1 brings a DISABLED axis that may be enabled to HOLD at the hold current. CTRL.home acts in HOLD alone, and with no home
distance the axis has its home position at once; otherwise it runs toward the stop. An overcurrent faults the axis with cause 1, and an open phase with cause 2, unhomed. A clear_fault after a passed test leads to
DISABLED, and one before it is refused.
A tick adopts the pending set; it then enables a DISABLED axis that may be enabled, moves one that homes, holds or moves, and sets the phase currents; OFF and FAULT take no more. The hold delay sets the hold current in
HOLD. The stop-hold end sets the home position of a transport axis. A chopper cycle in OFF, DISABLED or FAULT does nothing; otherwise, where the phase is not open, it records the set-point, and the on and off
times, of its own phase. -/
def Obligations.AxesFollowTheirStatesTimersAndTicks : Prop :=
   (∀ (s : State) (a : AxisId), s.answers (axisBlk a) = true →
      let x := s.axis a
      (x.st ≠ .off → Next (exec (.axisEnableWrite a false) s) fun t => t.axis a = x.drop .disabled ∧ t.fld (axisBlk a) AXIS.enable = 0) ∧
      (x.st = .disabled → (s.setFld (axisBlk a) AXIS.enable 1).axisMayEnable a = true → Next (exec (.axisEnableWrite a true) s) fun t =>
        t.axis a = { x with st := .hold, cur := .hold } ∧ t.fld (axisBlk a) AXIS.enable = 1 ∧
          t = { s with regs := t.regs, sleds := t.sleds, sas := t.sas, trans := t.trans }) ∧
      (x.st = .hold → 0 < 256 * s.act (axisBlk a) (AXIS.home_dist (axisKind a)) → (∀ g, a ≠ .sled g ∧ a ≠ .sa g) →
        Next (exec (.axisHome a) s) fun t => (t.axis a).st = .homing ∧ (t.axis a).homed = false ∧ (t.axis a).home = some .toStop ∧
          t = { s with trans := t.trans }) ∧
      (x.st ≠ .hold → exec (.axisHome a) s = .next s) ∧
      (Next (exec (.axisOvercurrent a) s) fun t => (t.axis a).st = .fault ∧ (t.axis a).faultCause = 1 ∧ (t.axis a).homed = false) ∧
      (∀ ph, x.st = .hold ∨ x.st = .moving ∨ x.st = .homing → openTest s a ph = true → Next (exec (.stepperPhaseOpen a ph) s) fun t =>
        (t.axis a).st = .fault ∧ (t.axis a).faultCause = 2 ∧ (t.axis a).homed = false) ∧
      (∀ ph, x.st = .off ∨ x.st = .disabled ∨ x.st = .fault → exec (.stepperPhaseOpen a ph) s = .next s) ∧
      (x.st = .fault → x.testPass = some true → Next (exec (.axisClearFault a) s) fun t =>
        t.axis a = { x with st := .disabled, faultCause := 0, testPass := none } ∧ t = { s with sleds := t.sleds, sas := t.sas, trans := t.trans }) ∧
      (x.st = .fault → x.testPass ≠ some true → Next (exec (.axisClearFault a) s) fun t =>
        t.sta (axisBlk a) AXIS.cmd_refused = 1 ∧ t.log.next = s.log.next + 1 ∧ t = { s with regs := t.regs, log := t.log })) ∧
   (∀ (s : State) (a : AxisId),
      let u := s.adoptAxis a
      ((u.axis a).st = .off ∨ (u.axis a).st = .fault → exec (.axisTick a) s = .next u) ∧
      ((u.axis a).st = .hold ∨ (u.axis a).st = .moving → exec (.axisTick a) s = .next ((u.moveTick a).setPhases a)) ∧
      ((u.axis a).st = .homing → exec (.axisTick a) s = .next ((u.homeTick a).setPhases a)) ∧
      ((s.axis a).st = .hold → exec (.holdDelayEnd a) s = .next ((s.modAxis a (fun x => { x with cur := .hold })).setPhases a)) ∧
      ((s.axis a).st ≠ .hold → exec (.holdDelayEnd a) s = .next s) ∧
      (∀ n, a = .transport n → (s.axis a).st = .homing → (s.axis a).home = some .hold → exec (.homeStopHoldEnd a) s = .next (s.homeSet a)) ∧
      ((s.axis a).home ≠ some .hold → exec (.homeStopHoldEnd a) s = .next s) ∧
      (∀ ph ns, (s.axis a).st = .off ∨ (s.axis a).st = .disabled ∨ (s.axis a).st = .fault → exec (.chopperCycle a ph ns) s = .next s) ∧
      (∀ (ph : Fin 2) ns, (s.axis a).st = .hold ∨ (s.axis a).st = .moving ∨ (s.axis a).st = .homing → openTest s a ph = false →
        Next (exec (.chopperCycle a ph ns) s) fun t =>
          ((t.axis a).chop[ph.val]).prev = ((s.axis a).chop[ph.val]).setpoint ∧
            ((t.axis a).chop[ph.val]).onTime = max (blankNs s a) ns.toNat ∧
            ((t.axis a).chop[ph.val]).offTime = 500 * s.act (axisBlk a) AXIS.t_off ∧ (t.axis a).pos = (s.axis a).pos ∧
            t = { s with sleds := t.sleds, sas := t.sas, trans := t.trans }))

/-- R206 and R207: in PROFILE mode a target within the limits starts a move of an axis that is homed; one outside them, or on an axis that is not homed or held by another's fault, is refused and a
move in progress goes on unchanged. A stop brakes a move to rest. A change of mode of an axis at rest takes its position as the new anchor, with the reserved mode 3 discarded (R209, Table 08-9). A pricking is run by
a head axis while its head is OFF or FAILED, and is otherwise refused. -/
def Obligations.TransportMovesAndModes : Prop :=
  ∀ (s : State) (n : Fin 4), s.answers (.taxis n) = true →
    let a := AxisId.transport n
    let x := s.trans[n.val].ax
    let par := s.axPar a
    (∀ v : BitVec 32, v.toInt < par.lo ∨ par.hi < v.toInt → Next (exec (.axisTargetWrite n v) s) fun t =>
      t.trans = s.trans ∧ t.sta (.taxis n) AXIS.cmd_refused = 1 ∧ t = { s with regs := t.regs }) ∧
    (∀ v : BitVec 32, x.mode = 0 → x.homed = false → Next (exec (.axisTargetWrite n v) s) fun t =>
      t.trans = s.trans ∧ t.sta (.taxis n) AXIS.cmd_refused = 1 ∧ t = { s with regs := t.regs }) ∧
    (∀ v : BitVec 32, n ≠ 2 → x.mode = 0 → x.st = .hold ∨ x.st = .moving → x.homed = true → s.trans[n.val].faultHold = false →
      par.lo ≤ v.toInt → v.toInt ≤ par.hi → Next (exec (.axisTargetWrite n v) s) fun t =>
        (t.trans[n.val].ax).st = .moving ∧ (t.trans[n.val].ax).pos = x.pos ∧ (t.trans[n.val].ax).vel = x.vel ∧
          t.fld (.taxis n) AXIS.target = v.toNat ∧ (∀ m : Fin 4, m ≠ n → t.trans[m.val] = s.trans[m.val]) ∧
          t = { s with regs := t.regs, trans := t.trans }) ∧
    (x.mode = 0 → x.st = .moving → Next (exec (.axisStop n) s) fun t =>
      t.trans[n.val].ax = { x with profile := some (planBrake (s.axPar a) x.pos x.vel x.acc), stopping := true } ∧ t = { s with trans := t.trans }) ∧
    (x.mode = 0 → x.st ≠ .moving → exec (.axisStop n) s = .next s) ∧
    (∀ m : BitVec 2, m = 0 ∨ m = 2 → m.toNat ≠ x.mode → x.st ≠ .moving → x.st ≠ .homing → x.homed = true → Next (exec (.axisModeWrite n m) s) fun t =>
      t.trans[n.val].ax = { x with mode := m.toNat, profile := none, velTarget := 0 } ∧ (t.trans[n.val]).anchor = x.pos * 4294967296 ∧
        (t.trans[n.val]).remaining = 0 ∧ t.fld (.taxis n) AXIS.CTRL_mode = m.toNat ∧ t = { s with regs := t.regs, trans := t.trans }) ∧
    (x.st ≠ .moving → x.st ≠ .homing → exec (.axisModeWrite n 3) s = .next s) ∧
    (exec (.runPrick a) s = .next s) ∧
    (∀ g, s.answers (.sled g) = true → s.heads[g.val].trk.st = .off ∨ s.heads[g.val].trk.st = .failed →
      (s.axis (.sled g)).st = .hold → prickBad (s.axPar (.sled g)) (s.prickTable (.sled g)) = false → Next (exec (.runPrick (.sled g)) s) fun t =>
        t.sleds[g.val] = { s.sleds[g.val] with next := some (s.prickTable (.sled g)) } ∧ t = { s with sleds := t.sleds }) ∧
    (∀ g, s.answers (.sled g) = true → s.heads[g.val].trk.st = .follow → Next (exec (.runPrick (.sled g)) s) fun t =>
      t.sta (.sled g) AXIS.cmd_refused = 1 ∧ t = { s with regs := t.regs })

/-- R218: a single line's change past the filter moves the count by one step in the quadrature's direction, or the other with invert = 1; both lines changing at once is an error, counted and saturating, and leaves the count. A step edge of the active level
counts ±1 by DIR (R211), and the other edge does nothing. arm and arm_now act on T2 in GEAR alone: arm_now begins the new ratio at once (R210). -/
def Obligations.EncodersAndStepInputsCount : Prop :=
  ∀ (s : State) (i : Fin 2) (a b : Bool) (since : BitVec 32),
    let e := s.encs[i.val]
    let on : Prop := s.fld (.enc i) ENC.enable ≠ 0 ∧ 5 * s.fld (.enc i) ENC.filter ≤ since.toNat
    (on → s.fld (.enc i) ENC.invert = 0 → s.trans[2].ax.mode ≠ 1 → a ≠ e.a → b = e.b → Next (exec (.encoderEdge i a b since) s) fun t =>
      (t.encs[i.val]).count = e.count + (if a = e.b then -1 else 1) ∧ (t.encs[i.val]).a = a ∧ (t.encs[i.val]).errors = e.errors ∧
        t = { s with encs := t.encs }) ∧
    (on → s.fld (.enc i) ENC.invert = 0 → s.trans[2].ax.mode ≠ 1 → a = e.a → b ≠ e.b → Next (exec (.encoderEdge i a b since) s) fun t =>
      (t.encs[i.val]).count = e.count + (if b = e.a then 1 else -1) ∧ (t.encs[i.val]).errors = e.errors ∧ t = { s with encs := t.encs }) ∧
    (on → s.trans[2].ax.mode ≠ 1 → a ≠ e.a → b ≠ e.b → Next (exec (.encoderEdge i a b since) s) fun t =>
      (t.encs[i.val]).count = e.count ∧ (t.encs[i.val]).errors = satInc 16 e.errors ∧ t = { s with encs := t.encs }) ∧
    (s.fld (.enc i) ENC.enable = 0 → exec (.encoderEdge i a b since) s = .next (s.modEnc i (fun e => { e with a := a, b := b }))) ∧
    (∀ (n : Fin 4) (dir : Bool), s.fld (.taxis n) TAXIS.step_edge = 0 → s.fld (.taxis n) TAXIS.dir_invert = 0 → s.trans[n.val].ax.mode ≠ 2 →
      (Next (exec (.stepEdge n true dir since) s) fun t =>
        (t.trans[n.val]).stepCount = s.trans[n.val].stepCount + (if dir then 1 else -1) ∧ (t.trans[n.val]).ax = s.trans[n.val].ax ∧
          t = { s with trans := t.trans }) ∧ exec (.stepEdge n false dir since) s = .next s) ∧
    (s.answers (.taxis 2) = true → s.trans[2].ax.mode = 1 →
      (s.masterCount ≠ s.fldS (.taxis 2) TAXIS.switch_at → exec (.gearArm 2) s = .next (s.modTrans 2 (fun t => { t with armed := true }))) ∧
      Next (exec (.gearArmNow 2) s) fun t => (t.trans[2]).p = s.fldS (.taxis 2) TAXIS.ratio_next_p ∧
        (t.trans[2]).q = max 1 (s.fld (.taxis 2) TAXIS.ratio_next_q) ∧ (t.trans[2]).master = s.masterCount ∧ (t.trans[2]).armed = false ∧
        t = { s with trans := t.trans }) ∧
    (∀ n : Fin 4, s.answers (.taxis n) = true → s.trans[n.val].ax.mode ≠ 1 → exec (.gearArm n) s = .next s ∧ exec (.gearArmNow n) s = .next s)

/-- R18 and R147: with 8 requests in place a further one is not taken. A POSITION whose M0 track is no multiple of 4, or whose track lies in a guard band or no band, is answered with REJECTED and takes no place. On a head whose tracking has failed,
with its domain on, no window open and the focus not locked, it becomes the active request and sets the expected track. On a lost head it is held. A window request waits in its place until it may open. CANCEL withdraws
the request of its tag, one that has not opened, and an unknown tag does nothing. -/
def Obligations.MailboxTakesAtMostEightRequests : Prop :=
  ∀ (s : State) (b : BayId) (tag : BitVec 16) (h : Fin 2) (sl : BitVec 5) (track : BitVec 18) (k : BeamId) (frame count : BitVec 32),
    let g := headOf b h
    let asks : List Instr := [.position b tag h sl track k, .readWindow b tag h track frame count, .writeWindow b tag h track frame count]
    (8 ≤ s.bays[b.val].requests.length → ∀ i ∈ asks, exec i s = .next s) ∧
    (s.bays[b.val].requests.length < 8 → positionMiss track.toNat k = true →
      Next (exec (.position b tag h sl track k) s) fun t => t.bays[b.val] = { s.bays[b.val] with reports := s.bays[b.val].reports ++ [.rejected tag 0] } ∧
        (∀ c : BayId, c ≠ b → t.bays[c.val] = s.bays[c.val]) ∧ t = { s with bays := t.bays }) ∧
    (s.bays[b.val].requests.length < 8 → positionMiss track.toNat k = false → s.pdOn b.val = true → s.trkState g = .failed → s.windowOpen g = false →
      s.focState g ≠ .locked → Next (exec (.position b tag h sl track k) s) fun t =>
        t.bays[b.val].requests = s.bays[b.val].requests ++ [⟨tag, g, .position sl track k, .active⟩] ∧
          (t.heads[g.val].trk).expected = some (track - BitVec.ofNat 18 k.val) ∧ (t.heads[g.val].trk).request = some tag ∧
          (t.heads[g.val].foc).target = some sl ∧ t = { s with bays := t.bays, heads := t.heads, meter := t.meter }) ∧
    (s.bays[b.val].requests.length < 8 → positionMiss track.toNat k = false → s.pdOn b.val = false →
      Next (exec (.position b tag h sl track k) s) fun t =>
        t.bays[b.val].requests = s.bays[b.val].requests ++ [⟨tag, g, .position sl track k, .held⟩] ∧ t = { s with bays := t.bays, meter := t.meter }) ∧
    (s.bays[b.val].requests.length < 8 →
      exec (.readWindow b tag h track frame count) s = .next ((s.addReq b ⟨tag, g, .readWindow track frame count, .held⟩).openRequests g) ∧
      exec (.writeWindow b tag h track frame count) s =
        .next ((((s.addReq b ⟨tag, g, .writeWindow track frame count, .held⟩).modWr g (fun w => { w with idle := false })).sessionAsk b).openRequests g)) ∧
    (∀ r, s.bays[b.val].requests.find? (fun q => q.tag == tag && !q.opened) = some r → r.isPosition = false →
      Next (exec (.cancel b tag) s) fun t => t.bays[b.val] = { s.bays[b.val] with requests := s.bays[b.val].requests.erase r } ∧
        (∀ c : BayId, c ≠ b → t.bays[c.val] = s.bays[c.val]) ∧ t = { s with bays := t.bays }) ∧
    (s.bays[b.val].requests.find? (fun q => q.tag == tag && !q.opened) = none → exec (.cancel b tag) s = .next s)

/-- Table 09-4: a window that begins on a beam that is IDLE, with the channel enabled, takes it to ACQUIRE with the committed CHAN set and the first frame of the window; on another it does nothing. A defect in TRACK enters COAST and counts; its end within
4,096 bits of coasting returns to TRACK, and past it, or at the coast limit, the beam enters RESYNC with long_defect set and counted. The end of a window takes a beam with no challenge open to IDLE and keeps its warm values. -/
def Obligations.BeamsOpenAcquireAndClose : Prop :=
  ∀ (s : State) (g : HeadId) (k : BeamId),
    let b := s.beam g k
    let only (t : State) : Prop := t = { s with beams := t.beams, regs := t.regs } ∧ ∀ (g' : HeadId) (k' : BeamId), g' ≠ g ∨ k' ≠ k → t.beam g' k' = s.beam g' k'
    (∀ tr f n sl disc, s.readWindow? g = some (tr, f, n) → s.heads[g.val].foc.sl = some sl → s.bays[(bayOf g).val].disc = some disc →
      (b.st = .idle → s.fld (.chan g) CHAN.enable = 1 → Next (exec (.beamWindowStart g k) s) fun t =>
        (t.beam g k).st = .acquire ∧ (t.beam g k).next = f ∧ (t.beam g k).last = f + n ∧ (t.beam g k).set = some (s.chanSet g) ∧
          (t.beam g k).pend = none ∧ (t.beam g k).defect = none ∧ only t) ∧
      (b.st ≠ .idle → exec (.beamWindowStart g k) s = .next s)) ∧
    (s.readWindow? g = none → exec (.beamWindowStart g k) s = .next s) ∧
    (b.st ≠ .idle → b.pend = none → Next (exec (.beamWindowEnd g k) s) fun t =>
      (t.beam g k).st = .idle ∧ (t.beam g k).set = none ∧ Tab.get? (t.beam g k).warm b.zone = some b.vals ∧ only t) ∧
    (b.st = .idle → exec (.beamWindowEnd g k) s = .next s) ∧
    (∀ n, b.st = .track → b.defect = none → Next (exec (.defectStart g k n) s) fun t =>
      (t.beam g k).st = .coast ∧ (t.beam g k).defect = some (n.toNat : Int) ∧
        t.sta (.beam g k) BEAM.defects = min (s.sta (.beam g k) BEAM.defects + 1) (2 ^ BEAM.defects.width - 1) ∧ only t) ∧
    (∀ n a (c : BitVec 16), b.st = .coast → b.defect = some n → c.toNat ≤ 4096 → Next (exec (.defectEnd g k a c) s) fun t =>
      (t.beam g k).st = .track ∧ (t.beam g k).defect = none ∧ only t) ∧
    (∀ n a (c : BitVec 16), b.st = .coast → b.defect = some n → 4096 < c.toNat → Next (exec (.defectEnd g k a c) s) fun t =>
      (t.beam g k).st = .resync ∧ t.sta (.beam g k) BEAM.long_defect = 1) ∧
    (∀ a c, b.defect = none → exec (.defectEnd g k a c) s = .next s) ∧
    (b.st = .coast → Next (exec (.coastLimit g k) s) fun t => (t.beam g k).st = .resync ∧ t.sta (.beam g k) BEAM.long_defect = 1 ∧
      t.sta (.beam g k) BEAM.long_defects = min (s.sta (.beam g k) BEAM.long_defects + 1) (2 ^ BEAM.long_defects.width - 1)) ∧
    (b.st ≠ .coast → exec (.coastLimit g k) s = .next s)

/-- R42: a header that fails its biphase, parity, side-layer or wedge check, that lies further than 32 bits from the mark, or that comes with the domain off, changes nothing; a good one is evidence of the wedge it names, for focus and tracking too. R240 to R242: a beam with no
window, or none left to search, takes no sync; otherwise it adapts its loops, then takes up an open challenge or judges the candidate. A re-slice of a frame that the store does not hold, or by more than 24 bits, changes nothing; one that it holds
re-slices that frame and counts its violations. -/
def Obligations.HeadersAndSyncsAreJudged : Prop :=
  ∀ (s : State) (g : HeadId) (k : BeamId),
    (∀ h : HeaderIn, s.pdOn (bayOf g).val = false ∨ 32 < h.markOffset.toInt.natAbs ∨ headerGood h = false → exec (.wedgeHeader g k h) s = .next s) ∧
    (∀ h : HeaderIn, s.pdOn (bayOf g).val = true → h.markOffset.toInt.natAbs ≤ 32 → headerGood h = true → s.heads[g.val].lanes[k.val].stream = false →
      exec (.wedgeHeader g k h) s = .next (((((s.modBay (bayOf g) (fun x => { x with
        wedge := h.wedge.toNat, marks := true, markSeen := true, missed := 0 })).modBeam g k (fun x => x.slip h.markOffset.toInt)).focHeader g
          h.sideLayer).trkHeader g k h (ungray h.gray)))) ∧
    (∀ i : SyncIn, (s.beam g k).st = .idle → exec (.syncSearch g k i) s = .next s) ∧
    (∀ i : SyncIn, (s.beam g k).st ≠ .idle → (s.beam g k).next < (s.beam g k).last → (s.beam g k).pend = none → exec (.syncSearch g k i) s =
      .next ((s.modBeam g k (fun x => s.adaptLoops g k x i.loops)).judge g k i (s.candidate g (s.beam g k) i))) ∧
    (∀ (i : SyncIn) p, (s.beam g k).st ≠ .idle → (s.beam g k).pend = some p → exec (.syncSearch g k i) s =
      .next ((s.modBeam g k (fun x => s.adaptLoops g k x i.loops)).challenge g k i p (s.candidate g (s.beam g k) i))) ∧
    (∀ frame offset, s.replay.find? (fun f => f.head == g && f.beam == k && decide (f.frame = frame.toNat)) = none →
      exec (.resliceRequest g k frame offset) s = .next s) ∧
    (∀ (frame : BitVec 32) (offset : BitVec 6), 24 < offset.toInt.natAbs → exec (.resliceRequest g k frame offset) s = .next s) ∧
    (∀ (frame : BitVec 32) (offset : BitVec 6) f, s.replay.find? (fun f => f.head == g && f.beam == k && decide (f.frame = frame.toNat)) = some f →
      offset.toInt.natAbs ≤ 24 → Next (exec (.resliceRequest g k frame offset) s) fun t =>
        (∀ x ∈ t.replay, Frame.same x f = true → x.status = .resliced ∧ x.offset = offset.toInt) ∧ t.replay.length = s.replay.length ∧
          t = { s with replay := t.replay, regs := t.regs })

/-- Table 10-1: a bay that slows for writing enters WRITING once the spindle is at write speed with the write grant held, and its waiting windows may then open; without either, nothing changes. The session idle
time of a head marks it idle, and does nothing outside WRITING or while the head still has recordings waiting; with the other head idle too, the bay goes back to reading. -/
def Obligations.WriteSessionsStartAndEnd : Prop :=
  ∀ (s : State) (b : BayId) (g : HeadId),
    (s.bays[b.val].sess = .slowing → (s.spindle b).atSpeed = true → s.fld (.spindle b) SPINDLE.rpm = writeRpm → s.writeHeld b = true →
      exec (.writingEntry b) s = .next (((s.modBay b (fun x => { x with sess := .writing })).eachHead b
        (fun t h => t.modWr h (fun w => { w with idle := false }))).eachHead b State.openRequests)) ∧
    (s.bays[b.val].sess ≠ .slowing ∨ (s.spindle b).atSpeed = false ∨ s.writeHeld b = false → exec (.writingEntry b) s = .next s) ∧
    (s.bays[(bayOf g).val].sess ≠ .writing ∨ s.recordingWaits g = true → exec (.sessionIdleExpiry g) s = .next s) ∧
    (s.bays[(bayOf g).val].sess = .writing → s.recordingWaits g = false → (s.wrs[(otherHead g).val]).idle = false →
      Next (exec (.sessionIdleExpiry g) s) fun t => t.wrs[g.val] = { s.wrs[g.val] with idle := true } ∧
        (∀ h : HeadId, h ≠ g → t.wrs[h.val] = s.wrs[h.val]) ∧ t = { s with wrs := t.wrs })

/-- WRITE_WINDOW_OPEN with no window of the head open, no layer in focus, a stream that already runs, the head's enable input high, or a lane that is not UP changes nothing. With a level above the limit of LV3 the stream does not start: lv3_limit is set, the side-layer goes out
of write service, and the request is held. OPC_NOW queues the runs that are due for the layer in focus and asks for a session; a step of the run in another state than WRITING, or for no due run, changes nothing.
R258: with the run due first in its queue, no other run and no window open, a run on a turn not yet used begins with every beam's power from its trims or its second-run power, takes its place from the queue, and marks its turn and those before it used. Out of WRITING, or on a turn
already used, it does not begin. A beam's result is taken once; with no run there is none. -/
def Obligations.WriteWindowsOpenAndOpcRunsEnd : Prop :=
   (∀ (s : State) (g : HeadId) (runs : Vector (List (BitVec 4 × BitVec 4)) 4),
      (s.openWrite? g = none → exec (.writeWindowOpen g runs) s = .next s) ∧
      (s.heads[g.val].foc.sl = none → exec (.writeWindowOpen g runs) s = .next s) ∧
      ((s.wrs[g.val]).stream = true ∨ s.hlenHigh g = true ∨ s.heads[g.val].lanes.any (fun l => l.st != .up) = true → exec (.writeWindowOpen g runs) s = .next s) ∧
      (∀ track frame count sl, s.openWrite? g = some (track, frame, count) → s.heads[g.val].foc.sl = some sl →
        (s.wrs[g.val]).stream = false → s.hlenHigh g = false → s.heads[g.val].lanes.any (fun l => l.st != .up) = false →
        let u := ((s.adopt (tagWr g)).adopt (tagVchan g)).adoptTrims g [4, 5, 6, 7, 8, 11, 12, 13, 14]
        ((List.finRange 4).any (fun k => overLevel (u.pLevel g sl k (radius track))) = true → Next (exec (.writeWindowOpen g runs) s) fun t =>
          t.sta (.wr g) WR.lv3_limit = 1 ∧ (t.wrs[g.val]).lv3.contains sl = true ∧ (t.wrs[g.val]).stream = (u.wrs[g.val]).stream) ∧
        ((List.finRange 4).any (fun k => overLevel (u.pLevel g sl k (radius track))) = false → bandOf track ≠ some .data →
          exec (.writeWindowOpen g runs) s = .next (u.startStreams g sl track frame runs))) ∧
      (∀ sl, s.answers (.wr g) = true → s.heads[g.val].foc.sl = some sl → exec (.opcNow g) s =
        .next ((s.modWr g (fun w => { w with due := s.opcRuns g sl })).sessionAsk (bayOf g))) ∧
      (s.answers (.wr g) = true → s.heads[g.val].foc.sl = none → exec (.opcNow g) s = .next s)) ∧
   (∀ (s : State) (g : HeadId) (outer : Bool) (turn : BitVec 10),
      let w := s.wrs[g.val]
      (∀ sl, s.heads[g.val].foc.sl = some sl → s.bays[(bayOf g).val].sess = .writing → w.run = none → w.due.head? = some outer → s.windowOpen g = false →
        s.opcService g = true → s.opcUsed g sl outer ≤ turn.toNat → turn.toNat < opcTurns outer → Next (exec (.opcRunStart g outer turn) s) fun t =>
          (∃ run, (t.wrs[g.val]).run = some run ∧ run.sl = sl ∧ run.outer = outer ∧ run.turn = turn.toNat) ∧ (t.wrs[g.val]).due = w.due.drop 1 ∧
            Tab.get? (t.wrs[g.val]).used (2 * sl.toNat + b2n outer) = some (turn.toNat + 1) ∧ (t.wrs[g.val]).lastTemp = some s.heads[g.val].temp ∧
            (t.wrs[g.val]).writeNs = 0 ∧ (∀ h : HeadId, h ≠ g → t.wrs[h.val] = s.wrs[h.val] ∧ t.heads[h.val] = s.heads[h.val]) ∧
            t = { s with wrs := t.wrs, heads := t.heads }) ∧
      (s.bays[(bayOf g).val].sess ≠ .writing ∨ w.run.isSome = true ∨ s.windowOpen g = true → exec (.opcRunStart g outer turn) s = .next s) ∧
      (∀ sl, s.heads[g.val].foc.sl = some sl → turn.toNat < s.opcUsed g sl outer → exec (.opcRunStart g outer turn) s = .next s) ∧
      (∀ k steps, w.run = none → exec (.opcRunDone g k steps) s = .next s) ∧
      (∀ (k : BeamId) steps run, w.run = some run → run.done[k.val] = true → exec (.opcRunDone g k steps) s = .next s) ∧
      (∀ (k : BeamId) steps run r, w.run = some run → run.done[k.val] = false → (run.done.set k.val true).all id = false →
        opcResultOf run.base[k.val] (s.act (.wr g) WR.ber_exp) (s.actS (.wr g) WR.beta_target * 256) steps = some r →
        exec (.opcRunDone g k steps) s = .next ((s.putOpc g k run r.toNat).modWr g (fun x => { x with
          run := some { run with done := run.done.set k.val true } }))))

/-- R263: a codeword whose weight is at most verify_thr passes and counts as verified, and one above it counts as failed; both enter the histogram. A passing one with its headers good, while the cluster still lacks others, marks its codeword in the cluster and no more. A verdict for
no extent changes nothing. R265: a record whose four copies all pass is verified, and the extent is looked at again; a record that is verified already takes no further verdict. -/
def Obligations.VerifyVerdictsCountAndDecide : Prop :=
  ∀ (s : State) (seq : BitVec 64) (cluster : Fin 72) (cw : Fin 32) (w : BitVec 12),
    (∀ ff hd, s.extentBySeq seq = none → exec (.codewordVerdict seq cluster cw w ff hd) s = .next s) ∧
    (∀ e c, s.extentBySeq seq = some e → e.clusters[cluster.val]? = some c → s.awaitsVerdict e c = true →
      let v := Blk.vchan e.head
      let c' : Cluster := { c with ok := c.ok ||| BitVec.ofNat 32 (2 ^ cw.val) }
      (w.toNat ≤ s.act v VCHAN.verify_thr → c'.ok ≠ BitVec.allOnes 32 → Next (exec (.codewordVerdict seq cluster cw w false none) s) fun t =>
        t.sta v VCHAN.verified = min (s.sta v VCHAN.verified + 1) (2 ^ VCHAN.verified.width - 1) ∧ t.sta v VCHAN.failed = s.sta v VCHAN.failed ∧
          t.extents = s.extents.map (fun x => if x.key = e.key then { x with clusters := x.clusters.set cluster.val c' } else x) ∧
          t = { s with regs := t.regs, extents := t.extents }) ∧
      (s.act v VCHAN.verify_thr < w.toNat → exec (.codewordVerdict seq cluster cw w false none) s =
        .next (((s.incSat v VCHAN.failed).incSat v (VCHAN.sw_hist (min 15 (w.toNat / 8)))).failCluster e.key cluster.val))) ∧
    (∀ copies, s.extentBySeq seq = none → exec (.recordVerdict seq copies) s = .next s) ∧
    (∀ copies e r, s.extentBySeq seq = some e → e.record = some r → r.verified = true → exec (.recordVerdict seq copies) s = .next s) ∧
    (∀ copies e r, s.extentBySeq seq = some e → e.record = some r → r.verified = false →
      copies.all (fun c => copyOk c (s.act (.vchan e.head) VCHAN.rec_sym_max)) = true → exec (.recordVerdict seq copies) s =
        .next (((s.addSat (.vchan e.head) VCHAN.record_fail ((copies.toList.map (fun c => badFrames c (s.act (.vchan e.head) VCHAN.rec_sym_max))).sum)).modExtent
          e.key (fun x => { x with record := some { r with verified := true }, stood := some { r with verified := true } })).checkExtent e.key))

/-- A map checkpoint that is due on a mounted disc is recorded at its place, covers the highest sequence number, and restarts the count; otherwise it changes nothing. An anchor that is due on a mounted disc is appended; on a disc that is not mounted, or not due and not awaited, it is not. -/
def Obligations.AnchorsAndCheckpointsWhenDue : Prop :=
  ∀ (s : State) (b : BayId),
    (∀ sl frame, s.mounts[b.val].st = .mounted → s.mounts[b.val].ckptDue = true → Next (exec (.mapCheckpoint b sl frame) s) fun t =>
      t.mounts[b.val] = { s.mounts[b.val] with ckpt := some (sl, frame.toNat), covered := s.mounts[b.val].highestSeq, sinceCkpt := 0, ckptDue := false } ∧
        (∀ c : BayId, c ≠ b → t.mounts[c.val] = s.mounts[c.val]) ∧ t = { s with mounts := t.mounts }) ∧
    (∀ sl frame, s.mounts[b.val].st ≠ .mounted ∨ s.mounts[b.val].ckptDue = false → exec (.mapCheckpoint b sl frame) s = .next s) ∧
    (∀ copies rewrites, s.mounts[b.val].st = .mounted → s.mounts[b.val].anchorDue = true → s.mounts[b.val].unloadAsked = false →
      exec (.anchorAppend b copies rewrites) s = .next (s.appendAnchor b copies rewrites)) ∧
    (∀ copies rewrites, s.mounts[b.val].st ≠ .mounted → exec (.anchorAppend b copies rewrites) s = .next s)

/-- R282: DECODE_START on an active decoder with no job, the domain on, adopts the DECODE set, takes the next codeword and holds it until it is done; a decoder that is not active or has a job, or with the domain off, does nothing. R281: where the decoder reports a convergence that the checker refutes, it is
retired with the mismatch counted and logged. R284: a checked codeword has converged with the information bytes given, and a decoder that ends is free again, its count raised. -/
def Obligations.DecodersTakeAndReleaseCodewords : Prop :=
  ∀ (s : State) (i : Fin 20),
    let d := s.decoders[i.val]
    (d.st ≠ .active ∨ d.job.isSome = true ∨ s.pdOn 15 = false → exec (.decodeStart i) s = .next s) ∧
    (∀ c, d.st = .active → d.job = none → s.pdOn 15 = true → (s.adopt 0x0800).nextCodeword = some c → Next (exec (.decodeStart i) s) fun t =>
      t.decoders[i.val] = { d with job := some c.id } ∧ (∀ x ∈ t.codewords, x.id = c.id → x.phase = .decoding i.val ∧ x.aged = false) ∧
        (∀ j : Fin 20, j ≠ i → t.decoders[j.val] = s.decoders[j.val]) ∧ t = { s with regs := t.regs, decoders := t.decoders, codewords := t.codewords }) ∧
    (d.st = .active → d.job = none → s.pdOn 15 = true → (s.adopt 0x0800).nextCodeword = none → exec (.decodeStart i) s = .next (s.adopt 0x0800)) ∧
    (∀ ok ck it un info, d.job = none → exec (.decodeDone i ok ck it un info) s = .next s) ∧
    (∀ it un info id, d.job = some id → (s.resError (srcDecoder i.val)).1 = false → s.fld .decode DECODE.spare_permit = 0 →
      Next (exec (.decodeDone i true false it un info) s) fun t => (t.decoders[i.val]).st = .retired ∧ (t.decoders[i.val]).job = none ∧
        t.sta .decode DECODE.mismatches = min (s.sta .decode DECODE.mismatches + 1) (2 ^ DECODE.mismatches.width - 1) ∧ t.log.next = s.log.next + 2) ∧
    (∀ ok it un info id c, d.job = some id → s.codewords.find? (fun x => x.id == id) = some c → c.stop = false → exec (.decodeDone i ok true it un info) s =
      .next ((s.modDecoder i (fun _ => { d with count := satInc 24 d.count, job := none })).converge c info))

/-- R285: the end of a step with the codeword converged, at steps 1 to 4, ends its climb; one not converged takes the next step. A codeword on its first pass, at the last step, already converged, or unknown takes no end of a step. R282: ladder_age marks a codeword that waits in the ladder, and no other. R288: a sweep point
that has settled is read once. -/
def Obligations.LadderAndSweepFollowTheirCodeword : Prop :=
  ∀ (s : State) (w : BitVec 64) (info : List Byte),
    let found := s.codewords.find? (fun c => c.id == w.toNat)
    (∀ ok, found = none → exec (.ladderStepDone w ok info) s = .next s) ∧
    (∀ ok c, found = some c → c.step = 0 ∨ c.step = 7 ∨ c.phase = .converged → exec (.ladderStepDone w ok info) s = .next s) ∧
    (∀ c, found = some c → 1 ≤ c.step → c.step ≤ 4 → c.phase ≠ .converged → exec (.ladderStepDone w true info) s = .next (s.converge c info) ∧
      exec (.ladderStepDone w false info) s = .next (s.climb c)) ∧
    (Next (exec (.ladderAgeExpiry w) s) fun t =>
      t.codewords = s.codewords.map (fun c => if c.id = w.toNat ∧ c.phase = .ready ∧ c.step ≠ 0 then { c with aged := true } else c) ∧
        t = { s with codewords := t.codewords }) ∧
    (∀ g : HeadId, Tab.get? s.sweeps g.val = none → exec (.sweepSettleEnd g) s = .next s) ∧
    (∀ (g : HeadId) x, Tab.get? s.sweeps g.val = some x → x.settling = true → s.codewords.find? (fun c => c.id == x.cw) = none →
      Next (exec (.sweepSettleEnd g) s) fun t => Tab.get? t.sweeps g.val = some { x with settling := false } ∧ t = { s with sweeps := t.sweeps })

/-- R292: a loaded disc begins stage 1 of a mount, with the disc in the bay; where a mount is under way, or the DECODE group still holds a bare value, nothing begins. A result of another stage than the one under way is not taken. The ID read in stage 1 leads to stage 2, and the anchors read in stage 2 to stage 3, with no valid copy on
a disc that is not blank making it read-only with cause 3. An unload during a mount is kept until it ends; of a mounted disc it first asks for an anchor; of a read-only one it ends the mount and empties the bay. -/
def Obligations.MountsRunTheirStagesInOrder : Prop :=
  ∀ (s : State) (b : BayId),
    let m := s.mounts[b.val]
    (∀ disc, m.st = .none → s.committedOnce 0x0800 = true → Next (exec (.mountStart b disc) s) fun t =>
      (t.mounts[b.val]).st = .mounting ∧ (t.mounts[b.val]).stage = 1 ∧ (∀ c : BayId, c ≠ b → t.mounts[c.val] = s.mounts[c.val])) ∧
    (∀ disc, m.st ≠ .none ∨ s.committedOnce 0x0800 = false → exec (.mountStart b disc) s = .next s) ∧
    (∀ r, m.st ≠ .mounting ∨ m.stage ≠ readStage r → exec (.mountStageDone b r) s = .next s) ∧
    (∀ id, m.st = .mounting → m.stage = 1 → Next (exec (.mountStageDone b (.discId id)) s) fun t =>
      t.mounts[b.val] = { m with stage := 2 } ∧ t.bays[b.val].disc = some id) ∧
    (∀ blank copies, m.st = .mounting → m.stage = 2 → Next (exec (.mountStageDone b (.anchors blank copies)) s) fun t =>
      t.mounts[b.val] = { m with stage := 3, copies := copies, roCause := if !blank && copies.isEmpty then 3 else 0 } ∧ t = { s with mounts := t.mounts }) ∧
    (m.st = .mounting → exec (.discUnload b) s = .next (s.modMount b (fun x => { x with unloadAsked := true }))) ∧
    (m.st = .mounted → exec (.discUnload b) s = .next (s.modMount b (fun x => { x with unloadAsked := true, anchorDue := true }))) ∧
    (m.st = .readOnly → Next (exec (.discUnload b) s) fun t => t.mounts[b.val] = Mount.reset ∧ t.bays[b.val].disc = none ∧ t.extents = s.extents)

/-- R317 and Table 12-6: an FLR of a present function discards its queues and MSI-X state and is logged; of the PF it also removes the VFs. R318: a loss of the data link while it is active discards every function's MSI-X state, clears VF Enable and leaves the link inactive; it is logged. R321: the link's return makes it active again, with no VF. VF Enable
is set by a write in full mode on an active link, and has no effect in minimal mode (R309). A function that is not present, or a link that is down, takes nothing. -/
def Obligations.HostLinkResetsAndPresence : Prop :=
  ∀ (s : State) (f : FuncId),
    (s.host.active = true → s.present f = true → f.val ≠ 0 → exec (.flr f) s = .next ((((s.resetQueues f false).resetMsix f)).logEv (srcFunc f) .flr [])) ∧
    (s.host.active = false ∨ s.present f = false → exec (.flr f) s = .next s) ∧
    (Next (exec .conventionalReset s) fun t => t.msix = [] ∧ t.msixFns = [] ∧ t.host.vfEnable = false) ∧
    (s.host.active = true → Next (exec .dlActiveLost s) fun t => t.msix = [] ∧ t.msixFns = [] ∧ t.host.vfEnable = false ∧ t.host.active = false) ∧
    (s.host.active = false → exec .dlActiveLost s = .next s) ∧
    (s.host.active = false → Next (exec .linkReattach s) fun t => t.host = { s.host with active := true, vfEnable := false } ∧ t.msix = [] ∧ t.msixFns = [] ∧
      t = { s with host := t.host, msix := t.msix, msixFns := t.msixFns }) ∧
    (s.host.active = true → exec .linkReattach s = .next s) ∧
    (s.minimal = false → s.host.active = true → Next (exec (.vfEnableWrite true) s) fun t =>
      t.host = { s.host with vfEnable := true } ∧ t = { s with host := t.host }) ∧
    (s.minimal = false → s.host.active = true → s.host.vfEnable = true → Next (exec (.vfEnableWrite false) s) fun t => t.host.vfEnable = false) ∧
    (∀ v, s.minimal = true ∨ s.host.active = false → exec (.vfEnableWrite v) s = .next s)

/-- R315: words 0 to 3 of an entry are the low and high address, the data and the mask bit; a write changes its word of its entry and no other entry of any function, and one beyond the function's vectors changes nothing. R316: an entry that pends, is left unmasked by the write and whose function's vectors are enabled and unmasked sends its message once and
pends no more. -/
def Obligations.MsixEntriesHoldWhatIsWritten : Prop :=
  ∀ (s : State) (f : FuncId) (v : BitVec 11) (word : BitVec 2) (value : BitVec 32), s.host.active = true → s.present f = true →
    let e := (s.msixEntry f v.toNat).write word.toNat value
    (vectorCount f ≤ v.toNat → exec (.msixEntryWrite f (some v) word value) s = .next s) ∧
    (v.toNat < vectorCount f → e.pend = false → Next (exec (.msixEntryWrite f (some v) word value) s) fun t =>
      t = { s with msix := t.msix } ∧ t.msix = Tab.set MsixEntry.reset s.msix (2048 * f.val + v.toNat) e) ∧
    (v.toNat < vectorCount f → e.pend = true → e.mask = false → (s.msixFn f).fmask = false → (s.msixFn f).enable = true →
      Next (exec (.msixEntryWrite f (some v) word value) s) fun t => t.out = .msix f v.toNat e.addr e.data :: s.out ∧ t = { s with msix := t.msix, out := t.out }) ∧
    (word = 0 → e = { s.msixEntry f v.toNat with addr := ((s.msixEntry f v.toNat).addr.extractLsb' 32 32) ++ value }) ∧
    (word = 2 → e = { s.msixEntry f v.toNat with data := value }) ∧ (word = 3 → e = { s.msixEntry f v.toNat with mask := value.getLsbD 0 }) ∧
    (s.listedVectors f = [] → Next (exec (.msixEntryWrite f none word value) s) fun t =>
      t.msixFns = Tab.set MsixFn.reset s.msixFns f.val ⟨value.getLsbD 15, value.getLsbD 14⟩ ∧ t = { s with msixFns := t.msixFns })

/-- A NUDGE is taken in full mode, on an active link, from a function that is present. ATTACH_LO keeps the address bits. ATTACH_HI reads the block of 40 bytes at the address, attaches a detached function whose block is good, and writes the block's answer: 1 where it is attached, 2 where it is not, in which case no function changes. A DETACH with nothing outstanding
discards the function's queues; the end of its grace resets them. Operations 5 to 7 are recorded as a violation of kind 2. -/
def Obligations.AttachDetachAndNudges : Prop :=
  ∀ (s : State) (f : FuncId),
    (s.nudgeable f = false → ∀ i ∈ ([.sqNudge f 0, .cqNudge f 0, .attachLo f 0, .detach f, .nudgeReservedOp f 5] : List Instr), exec i s = .next s) ∧
    (∀ arg : BitVec 29, s.nudgeable f = true → Next (exec (.attachLo f arg) s) fun t =>
      t.func f = { s.func f with attachLo := arg.toNat * 4096 } ∧ (∀ h : FuncId, h ≠ f → t.func h = s.func h) ∧ t = { s with funcs := t.funcs }) ∧
    (∀ (arg : BitVec 29) blk, s.nudgeable f = true →
      let addr := (s.func f).attachLo + arg.toNat % 2 ^ 23 * 2 ^ 41
      (s.attachOk f blk = false → Next (exec (.attachHi f arg blk) s) fun t => t.funcs = s.funcs ∧ t.sqs = s.sqs ∧ t.cqs = s.cqs ∧ t.lines = s.lines ∧
        t = { s with out := t.out } ∧ t.out.head? = some (.hostWrite f (BitVec.ofNat 64 (addr + 40)) (leBytes 4 2))) ∧
      (s.attachOk f blk = true → Next (exec (.attachHi f arg blk) s) fun t => (t.func f).st = .attached ∧ (t.sq? f 0).isSome = true ∧ (t.cq? f 0).isSome = true ∧
        t.out.head? = some (.hostWrite f (BitVec.ofNat 64 (addr + 40)) (leBytes 4 1)))) ∧
    (s.nudgeable f = true → (s.func f).st = .attached → (∀ c ∈ s.cmds, c.f ≠ f) → Next (exec (.detach f) s) fun t =>
      (t.func f).st ≠ .attached ∧ t.bufs = s.bufs ∧ t.cmds = s.cmds) ∧
    (s.nudgeable f = true → (s.func f).st ≠ .attached → exec (.detach f) s = .next s) ∧
    ((s.func f).st = .detaching → exec (.detachGraceExpiry f) s = .next (s.resetQueues f false)) ∧
    ((s.func f).st ≠ .detaching → exec (.detachGraceExpiry f) s = .next s) ∧
    (∀ op : BitVec 3, s.nudgeable f = true → 5 ≤ op.toNat → Next (exec (.nudgeReservedOp f op) s) fun t =>
      t.log.violKind = 2 ∧ t.log.violSource = srcFunc f ∧ t = { s with log := t.log }) ∧
    (∀ q : BitVec 18, s.nudgeable f = true → (s.sq? f q.toNat).isSome = true → exec (.sqNudge f q) s = .next (s.nudge f true q.toNat)) ∧
    (∀ q : BitVec 18, s.nudgeable f = true → (s.cq? f q.toNat).isSome = true → exec (.cqNudge f q) s = .next (s.nudge f false q.toNat))

/-- R330 and R331: a poll of a line that is watched, on an active link, takes its 64 slots in order and sets the line's next interval; a parked or unknown line, or an inactive link, takes none. R339: COMMAND_FETCH with nothing to pick, fetching paused or the link inactive changes nothing; otherwise the picked queue's command is fetched, but a WRITE that meets the overlap table
full waits in its queue. R335: a command that has ended and may post is posted to its queue; one that has not ended, or that another must precede, is not. R337: the aggregation timer signals a queue with entries not yet signalled. -/
def Obligations.QueuesPollFetchAndPost : Prop :=
  ∀ (s : State) (f : FuncId) (line : BitVec 12) (slots : Vector (BitVec 32) 64) (e : EntryIn) (id : BitVec 64) (q : BitVec 18),
    let pairs := (List.finRange 64).map (fun i => (64 * line.toNat + i.val, slots[i.val]))
    (∀ sq l, s.line? f sq line.toNat = some l → l.parked = false → s.host.active = true → exec (.doorbellPoll f sq line slots) s =
      .next ((pairs.foldl (fun t p => t.takeSlot f sq p.1 p.2) s).repoll l (pairs.any (fun p => s.newWrite f sq p.1 p.2)))) ∧
    (∀ sq, s.line? f sq line.toNat = none ∨ s.host.active = false → exec (.doorbellPoll f sq line slots) s = .next s) ∧
    (s.arb.paused = true ∨ s.host.active = false ∨ s.pick = none → exec (.commandFetch e) s = .next s) ∧
    (∀ p, s.arb.paused = false → s.host.active = true → s.pick = some p → (p.sq.q = 0 ∨ e.opcode ≠ 2 ∨ s.overlapUsed < 65536) →
      exec (.commandFetch e) s = .next (s.fetch p e)) ∧
    (∀ p, s.arb.paused = false → s.host.active = true → s.pick = some p → p.sq.q ≠ 0 → e.opcode = 2 → 65536 ≤ s.overlapUsed →
      Next (exec (.commandFetch e) s) fun t => t.sta .queue QUEUE.overlap_full = 1 ∧ t.cmds = s.cmds ∧ t = { s with sqs := t.sqs, regs := t.regs }) ∧
    (∀ c qu, s.cmd? id.toNat = some c → c.stage = .ended → c.posts = true → s.nextToPost c = true → s.cqs.any (fun x => x.held.any (fun y => y.cmd == some c.id)) = false →
      s.cmdCq c = some qu → exec (.cqCompletion id) s = .next (s.postEntry c.f qu c.entry)) ∧
    (∀ c, s.cmd? id.toNat = some c → c.stage ≠ .ended ∨ c.posts = false ∨ s.nextToPost c = false → exec (.cqCompletion id) s = .next s) ∧
    (∀ x, s.cq? f q.toNat = some x → x.unsig ≠ 0 → x.aggTime ≠ 0 → exec (.cqAggTimer f q) s =
      .next ((s.modCq x.f x.q (fun y => { y with unsig := 0 })).fireVector x.f x.vector)) ∧
    (∀ x, s.cq? f q.toNat = some x → x.unsig = 0 ∨ x.aggTime = 0 → exec (.cqAggTimer f q) s = .next s)

/-- R342: a READ that runs takes each block in turn and is then looked at for its end. R29: a WRITE whose units are untouched fetches its data from the host; one whose data did not come fails with status 0x00/0x03. R345 and R344: a FLUSH and a FENCE with nothing left to wait for end with success, and otherwise wait. A number that names no command changes nothing. -/
def Obligations.IoCommandsResolveTransferAndEnd : Prop :=
  ∀ (s : State) (id : BitVec 64),
    (s.cmd? id.toNat = none → ∀ i ∈ ([.read id, .write id true, .write id false, .flush id, .fence id, .getMetering id, .createCq id, .deleteSq id] : List Instr), exec i s = .next s) ∧
    ∀ c, s.cmd? id.toNat = some c →
      (c.isRead = true → c.stage = .running → exec (.read id) s =
        .next (((c.blocks.mapIdx (fun i x => (i, x))).foldl (fun t p => t.readBlock c p.1 p.2) s).readCheck c.id)) ∧
      (c.isWrite = true → c.stage = .running → c.units.all (fun u => u == .todo) = true → Next (exec (.write id true) s) fun t =>
        t = { s with out := t.out } ∧ t.out = ((segments c.e).map (fun p => Output.hostRead c.f (BitVec.ofNat 64 p.1) p.2)).reverse ++ s.out) ∧
      (c.isWrite = true → c.stage = .running → exec (.write id false) s = .next (s.draw.2.failWrite c.id (stat 0 3) (s.draw.1 % c.count) false)) ∧
      (c.isWrite = true → c.stage = .dataIn → ∀ ok, exec (.write id ok) s = .next s.placeReady) ∧
      (c.admin = false → c.e.opcode = 3 → c.stage = .running → s.onReadOnly c.e.nsid = false → c.waitFor = [] → c.anchors = [] →
        (specByte c.e 36 ≠ 1 ∨ s.discsSinceAnchor = [] → exec (.flush id) s = .next (s.finish c.id 0 0 0xFFFFFFFF false)) ∧
        (specByte c.e 36 = 1 → s.discsSinceAnchor ≠ [] → exec (.flush id) s = .next (s.modCmd c.id (fun x => { x with anchors := s.discsSinceAnchor })))) ∧
      (c.admin = false → c.e.opcode = 3 → c.stage = .running → s.onReadOnly c.e.nsid = false → c.waitFor ≠ [] → exec (.flush id) s = .next s) ∧
      (c.isFence = true → c.stage = .running → c.waitFor = [] → exec (.fence id) s = .next (s.finish c.id 0 0 0xFFFFFFFF false)) ∧
      (c.waitFor ≠ [] → exec (.fence id) s = .next s)

/-- R335: ending a command of a function that posts, that is neither a READ, a WRITE nor a FENCE, and that holds no quota another waits for, records its status, result and first failed block, its time and its place among the ends. A command that has ended already, or that is unknown, is left as it is, so that no second end can change what was recorded. -/
def Obligations.EndingACommandRecordsItsStatus : Prop :=
  ∀ (s : State) (id status result first : Nat) (logged : Bool),
    (s.cmd? id = none → s.finish id status result first logged = s) ∧
    (∀ c, s.cmd? id = some c → c.stage = .ended → s.finish id status result first logged = s) ∧
    (∀ c, s.cmd? id = some c → c.stage ≠ .ended → c.isRead = false → c.isWrite = false → c.isFence = false → c.req ≠ 2049 → c.noPost = false → (∀ x ∈ s.cmds, x.req = c.req → x.onQuota = false) →
      (s.finish id status result first logged).cmd? id = some { c with
        stage := .ended, status := status, result := result, firstFail := first, logged := logged, endTime := s.now, endNo := s.arb.ended })

/-- R350 and Table 13-9: with its checks met, CREATE_CQ and CREATE_SQ add a queue with the number, ring and attributes of the entry, at head and tail 0, and end with success; a failing one ends with the status of its first failing check and adds nothing. DELETE_SQ of queue 0 or of one that does not exist ends with 0x03/0x01; DELETE_CQ likewise, and with 0x03/0x03 while an SQ
uses it; otherwise the CQ is gone. -/
def Obligations.QueuesAreCreatedAndDeleted : Prop :=
  ∀ (s : State) (id : BitVec 64),
    (∀ c, s.adminCmd? id 0x80 = some c → s.createCqStatus c = 0 → exec (.createCq id) s = .next ((State.addLine { s with cqs := s.cqs ++ [{
        f := c.f, q := specLe c.e 36 4, base := c.e.dataAddr.toNat, size := specLe c.e 40 2 + 1, vector := specLe c.e 42 2, aggCount := specByte c.e 44
        aggTime := specByte c.e 45, head := 0, tail := 0, phase := true, seq := 0, error := false, held := [], unsig := 0 }] } c.f false
      (lineOf (specLe c.e 36 4))).finish c.id 0 0 0xFFFFFFFF false)) ∧
    (∀ c, s.adminCmd? id 0x80 = some c → s.createCqStatus c ≠ 0 → exec (.createCq id) s = .next (s.finish c.id (s.createCqStatus c) 0 0xFFFFFFFF false)) ∧
    (∀ c, s.adminCmd? id 0x81 = some c → s.createSqStatus c = 0 → exec (.createSq id) s = .next ((State.addLine { s with sqs := s.sqs ++ [{
        f := c.f, q := specLe c.e 36 4, base := c.e.dataAddr.toNat, size := specLe c.e 40 2 + 1, cq := specLe c.e 44 4, urgent := specByte c.e 48 == 1
        head := 0, tail := 0, seq := 0, error := false, deleting := none, nextWrite := false }] } c.f true
      (lineOf (specLe c.e 36 4))).finish c.id 0 0 0xFFFFFFFF false)) ∧
    (∀ c, s.adminCmd? id 0x81 = some c → s.createSqStatus c ≠ 0 → exec (.createSq id) s = .next (s.finish c.id (s.createSqStatus c) 0 0xFFFFFFFF false)) ∧
    (∀ c, s.adminCmd? id 0x82 = some c → specLe c.e 36 4 = 0 ∨ s.sq? c.f (specLe c.e 36 4) = none →
      exec (.deleteSq id) s = .next (s.finish c.id (stat 3 1) 0 0xFFFFFFFF false)) ∧
    (∀ c, s.adminCmd? id 0x82 = some c → specLe c.e 36 4 ≠ 0 → (s.sq? c.f (specLe c.e 36 4)).isSome = true →
      (∀ x ∈ s.cmds, x.f = c.f → x.sq ≠ specLe c.e 36 4) → (∀ x ∈ s.cqs, x.held = []) → exec (.deleteSq id) s =
        .next (((s.modSq c.f (specLe c.e 36 4) (fun x => { x with deleting := some c.id })).removeSq c.f (specLe c.e 36 4)).finish c.id 0 0 0xFFFFFFFF false)) ∧
    (∀ c, s.adminCmd? id 0x83 = some c → specLe c.e 36 4 = 0 ∨ s.cq? c.f (specLe c.e 36 4) = none →
      exec (.deleteCq id) s = .next (s.finish c.id (stat 3 1) 0 0xFFFFFFFF false)) ∧
    (∀ c, s.adminCmd? id 0x83 = some c → specLe c.e 36 4 ≠ 0 → s.cq? c.f (specLe c.e 36 4) ≠ none →
      (s.sqs.any (fun x => x.f == c.f && x.cq == specLe c.e 36 4) = true → exec (.deleteCq id) s = .next (s.finish c.id (stat 3 3) 0 0xFFFFFFFF false)) ∧
      (s.sqs.any (fun x => x.f == c.f && x.cq == specLe c.e 36 4) = false → exec (.deleteCq id) s = .next ((State.dropLine { s with
        cqs := s.cqs.filter (fun x => !(x.f == c.f && x.q == specLe c.e 36 4)) } c.f false (lineOf (specLe c.e 36 4))).finish c.id 0 0 0xFFFFFFFF false)))

/-- R351: a SELF_TEST of code 1 or 2 with no test under way starts one, short or extended, which is suspended at once where an I/O command is outstanding; with another under way it fails with 0x03/0x06. An abort ends the test with outcome 2. R352: a suspended test resumes once no I/O command is outstanding, ends with outcome 2 once suspended too long, and otherwise
ends with outcome 0, or 1 with the area that failed.
GET_METERING writes 4,096 bytes that begin with the signature and the function to the entry's address, and the counters no longer count as restored. FW_ACTIVATE of an image that may be activated starts it with PD19 on; of none ends with 0x00/0x02. Core B's self-check passed brings the new version into force, kept beside the old; failed, it ends the command with 0x00/0x04 and the old
version stays. A watchdog expiry before core A stands by restores the old version, and after it does nothing. -/
def Obligations.SelfTestsMeteringAndActivation : Prop :=
   (∀ (s : State) (id : BitVec 64),
      (∀ c, s.adminCmd? id 0x84 = some c → specByte c.e 36 = 1 → s.selfTest = none → Next (exec (.selfTestShort id) s) fun t =>
        t.selfTest = some ⟨c.id, false, s.ioOutstanding, s.time.localNs, 0⟩ ∧ t = { s with selfTest := t.selfTest }) ∧
      (∀ c, s.adminCmd? id 0x84 = some c → specByte c.e 36 = 2 → s.selfTest = none → Next (exec (.selfTestExtended id) s) fun t =>
        t.selfTest = some ⟨c.id, true, s.ioOutstanding, s.time.localNs, 0⟩ ∧ t = { s with selfTest := t.selfTest }) ∧
      (∀ c x, s.adminCmd? id 0x84 = some c → specByte c.e 36 = 1 → s.selfTest = some x → x.cmd ≠ c.id →
        exec (.selfTestShort id) s = .next (s.finish c.id (stat 3 6) 0 0xFFFFFFFF false)) ∧
      (∀ c, s.adminCmd? id 0x84 = some c → specByte c.e 36 = 0xF → exec (.selfTestAbort id) s = .next ((s.endTest 2 0).finish c.id 0 0 0xFFFFFFFF false)) ∧
      (∀ x, s.selfTest = some x → x.suspended = true → s.ioOutstanding = false → Next (exec .selfTestResume s) fun t =>
        t.selfTest = some { x with suspended := false, began := s.time.localNs } ∧ t = { s with selfTest := t.selfTest }) ∧
      (∀ x, s.selfTest = some x → x.suspended = true → exec .selfTestMaxSusp s = .next (s.endTest 2 0)) ∧
      (∀ x, s.selfTest = some x → x.suspended = false → exec (.selfTestDone none) s = .next (s.endTest 0 0) ∧
        ∀ a, exec (.selfTestDone (some a)) s = .next (s.endTest 1 (a.val + 1))) ∧
      (s.selfTest = none → exec .selfTestResume s = .next s ∧ exec .selfTestMaxSusp s = .next s ∧ ∀ a, exec (.selfTestDone a) s = .next s)) ∧
   (∀ (s : State) (id : BitVec 64),
      (∀ c, s.adminCmd? id 0x85 = some c →
        let u := s.accrueMounted
        let head : List Byte := [0x45, 0x42, 0x4D, 0x54] ++ leBytes 2 c.f.val ++ leBytes 2 (b2n (u.meter.restored.contains c.f.val)) ++ leBytes 8 u.now.toNat ++
          u.meterBlock c.f.val
        exec (.getMetering id) s = .next (((u.emit (.hostWrite c.f c.e.dataAddr (head ++ List.replicate (4096 - head.length) 0))).meterTaken c.f.val).finish
          c.id 0 0 0xFFFFFFFF false)) ∧
      (∀ c, s.adminCmd? id 0x88 = some c → s.activation c = none → exec (.fwActivate id) s = .next (s.finish c.id (stat 0 2) 0 0xFFFFFFFF false)) ∧
      (∀ c a, s.adminCmd? id 0x88 = some c → s.activation c = some a → s.pdOn 19 = true → Next (exec (.fwActivate id) s) fun t =>
        t.mgmt = { s.mgmt with act := some a } ∧ t = { s with mgmt := t.mgmt }) ∧
      (s.mgmt.act = none → ∀ ok, exec (.fwCoreBReady ok) s = .next s) ∧
      (∀ a, s.mgmt.act = some a → Next (exec (.fwCoreBReady true) s) fun t =>
        t.mgmt.fw = a.version ∧ t.mgmt.oldFw = s.mgmt.fw ∧ t.mgmt.coreB = true ∧ t.mgmt.newAct = true ∧ t.mgmt.act = none ∧ t.nv.fwCopy = some a.copy) ∧
      (∀ a, s.mgmt.act = some a → Next (exec (.fwCoreBReady false) s) fun t => t.mgmt = { s.mgmt with act := none } ∧ t.nv.fwCopy = s.nv.fwCopy) ∧
      (s.mgmt.newAct = true → Next (exec .fwWatchdogExpiry s) fun t =>
        t.mgmt.fw = s.mgmt.oldFw ∧ t.mgmt.newAct = false ∧ t.mgmt.coreB = false ∧ t.nv.fwCopy = s.mgmt.oldCopy ∧ t.log.events.getLsbD 7 = true) ∧
      (s.mgmt.newAct = false → exec .fwWatchdogExpiry s = .next s) ∧
      (Next (exec .fwCoreAStandby s) fun t => t.mgmt = { s.mgmt with newAct := false } ∧ t = { s with mgmt := t.mgmt }))

/-- R422 and Table 16-3: CREATE adds the namespace with its owner, slot and size and counts it as bound to the slot, and the NV image is due. DELETE of a namespace without commands takes it and its map entries away; QUERY reports owner, slot and key tag. An unknown namespace ends with 0x01/0x01. KEY LOAD fetches 64 bytes of key and takes up the
operation, ERASE takes it up, and QUERY reports the slot's state, owner and tag; a slot above 65,535 ends with 0x00/0x02. -/
def Obligations.NamespacesAndKeysAreManaged : Prop :=
  ∀ (s : State) (id : BitVec 64),
    (∀ c, s.opCmd? id 0x86 1 = some c → s.nsCreateStatus c ≠ 0 → exec (.namespaceCreate id) s = .next (s.finish c.id (s.nsCreateStatus c) 0 0xFFFFFFFF false)) ∧
    (∀ c, s.opCmd? id 0x86 1 = some c → s.nsCreateStatus c = 0 →
      let u := (s.accrueMounted.setSlot (specLe c.e 48 4) { s.slot (specLe c.e 48 4) with
        owner := specLe c.e 44 2, bound := (s.slot (specLe c.e 48 4)).bound + 1 }).logEv (srcBlock 11) .namespaceChange [specLe c.e 40 4, 1]
      exec (.namespaceCreate id) s = .next (State.finish { u with
        nss := u.nss ++ [⟨BitVec.ofNat 32 (specLe c.e 40 4), specLe c.e 44 2, specLe c.e 48 4, specLe c.e 52 8, s.seqNext⟩]
        nv := { u.nv with dueOwned := true } } c.id 0 0 0xFFFFFFFF false)) ∧
    (∀ c, s.opCmd? id 0x86 2 = some c → s.ns? (specLe c.e 40 4) = none → exec (.namespaceDelete id) s = .next (s.finish c.id (stat 1 1) 0 0xFFFFFFFF false)) ∧
    (∀ c n, s.opCmd? id 0x86 2 = some c → s.ns? (specLe c.e 40 4) = some n →
      (s.cmds.any (fun x => !x.admin && x.e.nsid == n.nsid) = true → exec (.namespaceDelete id) s = .next (s.finish c.id (stat 3 3) 0 0xFFFFFFFF false)) ∧
      (s.cmds.any (fun x => !x.admin && x.e.nsid == n.nsid) = false →
        let r := s.slot n.slot
        let u := (s.accrueMounted.setSlot n.slot { r with bound := r.bound - 1, owner := if r.bound ≤ 1 ∧ r.state = 0 then 0 else r.owner }).logEv
          (srcBlock 11) .namespaceChange [specLe c.e 40 4, 2]
        exec (.namespaceDelete id) s = .next (State.finish { u with
          nss := u.nss.filter (fun x => x.nsid != n.nsid), map := u.map.filter (fun x => x.nsid != n.nsid)
          nv := { u.nv with dueOwned := true } } c.id 0 0 0xFFFFFFFF false))) ∧
    (∀ c n, s.opCmd? id 0x86 3 = some c → s.ns? (specLe c.e 40 4) = some n → exec (.namespaceQuery id) s =
      .next (s.finish c.id 0 (n.owner + 2 ^ 16 * n.slot + 2 ^ 32 * (s.slot n.slot).tag.toNat) 0xFFFFFFFF false)) ∧
    (∀ c, s.opCmd? id 0x87 1 = some c → s.cipher.ops.any (fun o => o.cmd == c.id) = false →
      (s.loadStatus c = 0 → exec (.keyLoad id) s = .next ((s.emit (.hostRead c.f c.e.dataAddr 64)).takeOp
        ⟨c.id, specLe c.e 40 4, some (loadKey c, specLe c.e 44 2), s.cipher.nextId⟩)) ∧
      (s.loadStatus c ≠ 0 → exec (.keyLoad id) s = .next (s.finish c.id (s.loadStatus c) 0 0xFFFFFFFF false))) ∧
    (∀ c, s.opCmd? id 0x87 2 = some c → s.cipher.ops.any (fun o => o.cmd == c.id) = false →
      (specLe c.e 40 4 ≤ 65535 → exec (.keyErase id) s = .next (s.takeOp ⟨c.id, specLe c.e 40 4, none, s.cipher.nextId⟩)) ∧
      (65535 < specLe c.e 40 4 → exec (.keyErase id) s = .next (s.finish c.id (stat 0 2) 0 0xFFFFFFFF false))) ∧
    (∀ c, s.opCmd? id 0x87 3 = some c → specLe c.e 40 4 ≤ 65535 → exec (.keyQuery id) s = .next (s.finish c.id 0
      (s.slotState (specLe c.e 40 4) + 2 ^ 16 * (s.slot (specLe c.e 40 4)).owner + 2 ^ 32 * (s.slot (specLe c.e 40 4)).tag.toNat) 0xFFFFFFFF false))

/-- R365: in count mode a share adds one to the count, and a release of one of several users takes one away; in owner mode they add and take away the owner. R366: a release or share of a buffer that is not allocated, and a release by an owner that is not named, leave every buffer, set release_violation and record a violation of kind 5.
R358: enable = 1 of a pool whose checks pass sets the field; of one that fails them the pool stays disabled and enable_refused is set; of one that is enabled nothing changes. R361: with enable = 0 the parts that wait for the pool fail. A quota's limit is written, and commands held for that quota are looked at again. -/
def Obligations.BuffersPoolsAndQuotas : Prop :=
   (∀ (s : State) (p : Fin 16) (n : BitVec 24) (o : Owner),
      let ref : BufRef := ⟨p, n.toNat⟩
      let found := s.bufs.find? (fun b => b.ref == ref)
      let violates (r : Host.Outcome State Fault Refusal) : Prop := Next r fun t =>
        t.bufs = s.bufs ∧ t.sta .bufpool BUFPOOL.release_violation = 1 ∧ t.log.violKind = 5 ∧ t = { s with regs := t.regs, log := t.log }
      (found = none → violates (exec (.bufferShare p n o) s) ∧ violates (exec (.bufferRelease p n o) s)) ∧
      (∀ b, found = some b → s.fld (.pool p) POOL.release = 1 →
        (b.count < 255 → Next (exec (.bufferShare p n o) s) fun t =>
          t.bufs = s.bufs.map (fun x => if x.ref = ref then { x with count := x.count + 1 } else x) ∧ t = { s with bufs := t.bufs }) ∧
        (255 ≤ b.count → violates (exec (.bufferShare p n o) s)) ∧
        (1 < b.count → Next (exec (.bufferRelease p n o) s) fun t =>
          t.bufs = s.bufs.map (fun x => if x.ref = ref then { x with count := x.count - 1 } else x) ∧ t = { s with bufs := t.bufs }) ∧
        (b.count ≤ 1 → exec (.bufferRelease p n o) s = .next (s.freeBuf b))) ∧
      (∀ b, found = some b → s.fld (.pool p) POOL.release = 0 →
        (Next (exec (.bufferShare p n o) s) fun t => (∀ x ∈ t.bufs, x.ref = ref → o ∈ x.owners) ∧ t = { s with bufs := t.bufs }) ∧
        (b.owners.contains o = false → violates (exec (.bufferRelease p n o) s)) ∧
        (b.owners.contains o = true → (b.owners.filter (· != o)).isEmpty = true → exec (.bufferRelease p n o) s = .next (s.freeBuf b)) ∧
        (b.owners.contains o = true → (b.owners.filter (· != o)).isEmpty = false → Next (exec (.bufferRelease p n o) s) fun t =>
          (∀ x ∈ t.bufs, x.ref = ref → o ∉ x.owners) ∧ t = { s with bufs := t.bufs }))) ∧
   (∀ (s : State) (p : Fin 16) (r : ReqId) (limit : BitVec 24),
      (s.answers (.pool p) = true → s.fld (.pool p) POOL.enable ≠ 1 → s.poolOk p = true → Next (exec (.poolEnableWrite p true) s) fun t =>
        t.fld (.pool p) POOL.enable = 1 ∧ t = { s with regs := { s.regs with cfg := t.regs.cfg } }) ∧
      (s.answers (.pool p) = true → s.fld (.pool p) POOL.enable ≠ 1 → s.poolOk p = false → Next (exec (.poolEnableWrite p true) s) fun t =>
        t.fld (.pool p) POOL.enable = 0 ∧ t.sta .bufpool BUFPOOL.enable_refused = 1 ∧ t = { s with regs := t.regs }) ∧
      (s.answers (.pool p) = true → s.fld (.pool p) POOL.enable = 1 → exec (.poolEnableWrite p true) s = .next s) ∧
      (s.answers (.pool p) = true → s.poolWaits = [] → Next (exec (.poolEnableWrite p false) s) fun t =>
        t.fld (.pool p) POOL.enable = 0 ∧ t = { s with regs := { s.regs with cfg := t.regs.cfg } }) ∧
      (s.answers (.quota r) = true → (∀ x ∈ s.cmds, x.req = r.val → x.onQuota = false) → Next (exec (.quotaLimitWrite r limit) s) fun t =>
        t.fld (.quota r) (QUOTA.limit r.val) = limit.toNat ∧ t = { s with regs := { s.regs with cfg := t.regs.cfg } }))

/-- R368 and R378: an access outside the regions, or with the cache off, bypasses the cache. A store then writes each of its bytes at its own address, within one line; where the range is mirrored (R397), also at the same offset in channel B. Every other byte of DRAM reads as before, nothing but DRAM changes, and a load changes nothing. Bytes that a store leaves 0 are not
listed, which is the model's own form (log entry 4). -/
def Obligations.UncachedStoreWritesItsBytesAlone : Prop :=
  ∀ (s : State) (c : CacheClient) (addr : BitVec 37) (data : List Byte),
    let a := addr.toNat
    let d := data.take (64 - a % 64)
    s.cached a = none →
    (exec (.cacheAccess c false addr data) s = .next s) ∧
    ((s.dramCh (addrChan a)).st = .active → s.mirrored a d.length = false → Next (exec (.cacheAccess c true addr data) s) fun t =>
      (∀ i (h : i < d.length), memRead t.dram (a + i) = d[i]) ∧ (∀ x, x < a ∨ a + d.length ≤ x → memRead t.dram x = memRead s.dram x) ∧
        t = { s with dram := t.dram }) ∧
    (a + d.length ≤ 2 ^ 36 → (s.dramCh .a).st = .active → (s.dramCh .b).st = .active → s.mirrored a d.length = true →
      Next (exec (.cacheAccess c true addr data) s) fun t =>
        (∀ i (h : i < d.length), memRead t.dram (a + i) = d[i] ∧ memRead t.dram (a + 2 ^ 36 + i) = d[i]) ∧
          (∀ x, (x < a ∨ a + d.length ≤ x) → (x < a + 2 ^ 36 ∨ a + 2 ^ 36 + d.length ≤ x) → memRead t.dram x = memRead s.dram x) ∧
          t = { s with dram := t.dram })

/-- R381: an operation starts where none runs, and is refused with op_refused set where one does, or where a locking preload would break the limits of R374. An operation's end clears it; a clean keeps every line and leaves those of its range clean. An unlock frees the named ways. R377: a way's power bit is as written where it changes nothing. A drained way is off. The
enable bit is written, and enable = 0 unlocks every way. The oldest victim is written back and counted, and a stream whose gap has passed starts again. -/
def Obligations.CacheOperationsAndWays : Prop :=
  ∀ s : State, s.answers .ccache = true →
    let r := s.opRange
    let starts (o : CacheOp) (i : Instr) : Prop :=
      (s.cache.op = none → Next (exec i s) fun t => t.cache = { s.cache with op := some o } ∧ t = { s with cache := t.cache }) ∧
      (s.cache.op ≠ none → Next (exec i s) fun t => t.sta .ccache CCACHE.op_refused = 1 ∧ t = { s with regs := t.regs })
    starts (.clean r.1 r.2) .cacheOpClean ∧ starts (.invalidate r.1 r.2) .cacheOpInvalidate ∧ starts .cleanAll .cacheCleanAll ∧
    (∀ w, starts (.preload r.1 r.2 w.toNat false) (.cacheOpPreload w false)) ∧
    (∀ w : BitVec 16, lockOk (s.cache.locked ||| w.toNat) s.cache.powered s.cache.draining = false → Next (exec (.cacheOpPreload w true) s) fun t =>
      t.sta .ccache CCACHE.op_refused = 1 ∧ t = { s with regs := t.regs }) ∧
    (s.cache.op = none → exec .cacheOpDone s = .next s) ∧
    (∀ base n, s.cache.op = some (.clean base n) → Next (exec .cacheOpDone s) fun t =>
      t.cache.op = none ∧ (∀ p ∈ t.cache.lines, inLines base n p.2.line = true → p.2.dirty = false) ∧ t.cache.lines.length = s.cache.lines.length) ∧
    (∀ w : BitVec 16, Next (exec (.cacheUnlock w) s) fun t =>
      t.cache = { s.cache with locked := clearBits s.cache.locked w.toNat } ∧ t = { s with cache := t.cache }) ∧
    (∀ on : BitVec 8, (∀ i < 8, on.getLsbD i = bitOf (s.fld .ccache CCACHE.way_on) i) → exec (.wayPowerWrite on) s = .next s) ∧
    (∀ way : Fin 16, bitOf s.cache.draining way.val = false → exec (.wayDrainDone way) s = .next s) ∧
    (∀ way : Fin 16, bitOf s.cache.draining way.val = true → Next (exec (.wayDrainDone way) s) fun t =>
      t.cache.draining = setBit s.cache.draining way.val false ∧ t.cache.powered = setBit s.cache.powered way.val false) ∧
    (Next (exec (.cacheEnableWrite true) s) fun t => t.fld .ccache CCACHE.enable = 1 ∧ t = { s with regs := t.regs }) ∧
    (Next (exec (.cacheEnableWrite false) s) fun t => t.fld .ccache CCACHE.enable = 0 ∧ t.cache.locked = 0) ∧
    (∀ addr : BitVec 37, s.cache.victims.find? (fun v => v.line == addr.toNat / 64) = none → exec (.victimWritebackDone addr) s = .next s) ∧
    (∀ (addr : BitVec 37) v, s.cache.victims.find? (fun v => v.line == addr.toNat / 64) = some v → Next (exec (.victimWritebackDone addr) s) fun t =>
      t.cache.victims = issueFirst (s.cache.victims.erase v) ∧
        t.sta .ccache CCACHE.writebacks = min (s.sta .ccache CCACHE.writebacks + 1) (2 ^ CCACHE.writebacks.width - 1)) ∧
    (∀ (c : CacheClient) (g : Fin 3), Next (exec (.streamGapTimeout c g) s) fun t =>
      (∀ y ∈ t.cache.streams, y.client = c → y.region = g.val → y.run = 0 ∧ y.bypass = false) ∧ t = { s with cache := { s.cache with streams := t.cache.streams } })

/-- Table 15-2. A training is asked for from FAILED, and from OFF with the domain on and timing loaded. Its success leads to ACTIVE, or to RESILVER for a channel that rejoins beside one that serves; a failure counts an attempt, and the last of train_retry attempts leaves it FAILED. A switch needs the other channel ACTIVE, else it is refused; its end with training
good swaps the timing sets. DIAGNOSE ends in RESILVER where the channel is clean, and in FAILED where more than one device errs. The end of RESILVER is ACTIVE. A channel in another state takes none of these. -/
def Obligations.DramChannelsFollowTable15_2 : Prop :=
  ∀ (s : State) (c : DramChan),
    let x := s.dramCh c
    let same (o : Host.Outcome State Fault Refusal) : Prop := o = .next s
    let other (t : State) : Prop := t.dramCh (otherChan c) = s.dramCh (otherChan c)
    (s.answers (.dramc c) = true → x.st = .failed ∨ (x.st = .off ∧ s.pdOn (chanPd c) = true ∧ s.timingLoaded c = true) → Next (exec (.dramTrain c) s) fun t =>
      t.dramCh c = { x with st := .training, attempts := 0 } ∧ other t ∧ t = { s with drams := t.drams }) ∧
    (s.answers (.dramc c) = true → x.st = .active → same (exec (.dramTrain c) s)) ∧
    (∀ imt mmt, x.st = .training → x.rejoin = true → s.otherServes c = true → Next (exec (.trainingDone c true true imt mmt) s) fun t =>
      (t.dramCh c).st = .resilver ∧ (t.dramCh c).imt = imt.toNat ∧ (t.dramCh c).mmt = mmt.toNat ∧ (t.dramCh c).mismatch = false ∧ other t ∧
        t = { s with drams := t.drams }) ∧
    (∀ imt mmt, x.st = .training → x.rejoin = false → s.poolWaits = [] → Next (exec (.trainingDone c true true imt mmt) s) fun t =>
      (t.dramCh c).st = .active ∧ (t.dramCh c).imt = imt.toNat ∧ (t.dramCh c).mmt = mmt.toNat ∧ (t.dramCh c).mismatch = false ∧ other t) ∧
    (∀ m imt mmt, x.st = .training → x.attempts + 1 < s.fld1 (.dramc c) DRAMC.train_retry → Next (exec (.trainingDone c false m imt mmt) s) fun t =>
      (t.dramCh c).st = .training ∧ (t.dramCh c).attempts = x.attempts + 1 ∧ other t ∧ t = { s with drams := t.drams }) ∧
    (∀ m imt mmt, x.st = .training → s.fld1 (.dramc c) DRAMC.train_retry ≤ x.attempts + 1 → Next (exec (.trainingDone c false m imt mmt) s) fun t =>
      (t.dramCh c).st = .failed ∧ t.log.events.getLsbD 1 = true ∧ other t) ∧
    (∀ p m imt mmt, x.st ≠ .training → same (exec (.trainingDone c p m imt mmt) s)) ∧
    (s.answers (.dramc c) = true → (s.dramCh (otherChan c)).st ≠ .active → Next (exec (.dramSwitch c) s) fun t =>
      t.sta (.dramc c) DRAMC.switch_refused = 1 ∧ t = { s with regs := t.regs }) ∧
    (s.answers (.dramc c) = true → (s.dramCh (otherChan c)).st = .active → x.st = .active → Next (exec (.dramSwitch c) s) fun t =>
      t.dramCh c = { x with st := .switching } ∧ other t ∧ t = { s with drams := t.drams }) ∧
    (x.st = .switching → Next (exec (.switchDone c true) s) fun t => t.dramCh c = { x with st := .active, set := 1 - x.set } ∧ other t ∧
      t = { s with drams := t.drams, regs := t.regs }) ∧
    (x.st ≠ .switching → ∀ ok, same (exec (.switchDone c ok) s)) ∧
    (x.st = .diagnose → Next (exec (.diagnoseDone c .clean) s) fun t => (t.dramCh c).st = .resilver ∧ (t.dramCh c).fresh = [] ∧ other t ∧
      t = { s with drams := t.drams, log := t.log }) ∧
    (x.st = .diagnose → Next (exec (.diagnoseDone c .other) s) fun t => (t.dramCh c).st = .failed ∧ other t) ∧
    (x.st ≠ .diagnose → ∀ r, same (exec (.diagnoseDone c r) s)) ∧
    (x.st = .resilver → s.poolWaits = [] → Next (exec (.resilverDone c) s) fun t => (t.dramCh c).st = .active ∧ (t.dramCh c).fresh = [] ∧
      t.dram = s.resilvered c ∧ other t) ∧
    (x.st ≠ .resilver → same (exec (.resilverDone c) s)) ∧
    ((s.otherServes c = false → ∀ r, same (exec (.deviceAlert c r) s)) ∧ same (exec (.deviceAlert c true) s) ∧
      (x.st = .active → s.otherServes c = true → exec (.deviceAlert c false) s = .next (s.freeze c)))

/-- R384: a read of an address with no memory behind it is a violation of kind 4. A read of a channel that does not serve, and one whose burst has no error, change nothing. R403: with scrub_enable at 0 the scrubber does nothing, and a DRAM interval otherwise reads the next burst. R390 to R392: activations below the thresholds only add to the bank's count; beyond act_thr the class
that issued most is throttled, counted and logged. A mark that is cleared is gone, and the NV image is due. -/
def Obligations.MemoryErrorsAndScrubbing : Prop :=
  ∀ s : State,
    (∀ (addr : BitVec 37) e, s.hole addr.toNat = true → Next (exec (.dramBurstRead addr e) s) fun t =>
      t.log.violKind = 4 ∧ t.log.violSource = srcDram (addrChan addr.toNat) ∧ t = { s with log := t.log }) ∧
    (∀ (addr : BitVec 37) e, s.hole addr.toNat = false → (s.dramCh (addrChan addr.toNat)).st.serves = false → exec (.dramBurstRead addr e) s = .next s) ∧
    (∀ (addr : BitVec 37) e, s.hole addr.toNat = false → (s.dramCh (addrChan addr.toNat)).st.serves = true → s.judgeBurst addr.toNat e = .clean →
      exec (.dramBurstRead addr e) s = .next s) ∧
    (∀ (addr : BitVec 37) e devs, s.hole addr.toNat = false → (s.dramCh (addrChan addr.toNat)).st.serves = true → s.judgeBurst addr.toNat e = .corrected devs →
      exec (.dramBurstRead addr e) s = .next (s.correctable addr.toNat devs)) ∧
    (∀ (addr : BitVec 37) e, s.hole addr.toNat = false → (s.dramCh (addrChan addr.toNat)).st.serves = true → s.judgeBurst addr.toNat e = .lost →
      exec (.dramBurstRead addr e) s = .next (s.uncorrectable addr.toNat)) ∧
    (∀ sram e n src, s.fld .memprot MEMPROT.scrub_enable = 0 → exec (.scrubInterval sram e n src) s = .next s) ∧
    (∀ e n src c, s.fld .memprot MEMPROT.scrub_enable ≠ 0 → s.scrubNext = some c → exec (.scrubInterval false e n src) s =
      .next (((s.modDram c (fun x => { x with scrubPos := x.scrubPos + 1 })).scrubWrap).readBurst
        (64 * (s.dramCh c).scrubPos + (if c = .a then 0 else 2 ^ 36)) e)) ∧
    (∀ e src, s.fld .memprot MEMPROT.scrub_enable ≠ 0 → Next (exec (.scrubInterval true e 0 src) s) fun t =>
      t.sramPos = (if s.sramPos + 1 < Config.sramWords then s.sramPos + 1 else 0) ∧
        (s.sramPos + 1 < Config.sramWords → t.regs = s.regs) ∧ t = { s with sramPos := t.sramPos, regs := t.regs }) ∧
    (∀ c (bank : BitVec 6) acts, (s.dramCh c).st = .active → (s.dramCh c).throttles = [] →
      let n := (acts.toList.map (·.toNat)).sum
      n ≤ s.fld (.dramc c) DRAMC.act_thr → Tab.get 0 (s.dramCh c).raa bank.toNat + n < (s.dramCh c).imt → Next (exec (.trefiWindow c bank acts) s) fun t =>
        t.sta (.dramc c) DRAMC.throttled = s.sta (.dramc c) DRAMC.throttled ∧ (t.dramCh c).throttles = [] ∧ t = { s with drams := t.drams, regs := t.regs }) ∧
    (∀ c (bank : BitVec 6) acts, (s.dramCh c).st = .active →
      s.fld (.dramc c) DRAMC.act_thr < (acts.toList.map (·.toNat)).sum → (topClass acts).2 ≠ 0 → Next (exec (.trefiWindow c bank acts) s) fun t =>
        t.sta (.dramc c) DRAMC.throttled = 1 ∧ t.log.next = s.log.next + 1 ∧ t = { s with drams := t.drams, regs := t.regs, log := t.log }) ∧
    (∀ c bank acts, (s.dramCh c).st = .failed → exec (.trefiWindow c bank acts) s = .next s) ∧
    (∀ c (sub rank : Fin 2), s.answers .memprot = true → Next (exec (.markClear c sub rank) s) fun t =>
      Tab.get? t.marks (markKey c (2 * sub.val + rank.val)) = none ∧ t.nv = { s.nv with dueOwned := true } ∧ t = { s with marks := t.marks, nv := t.nv })

/-- R417: a request of a WRITE's untouched unit joins the queue while keys are generated. R418: a unit whose pipelines differ is computed a second time and counts a retry; one that matches leaves its core and the engine goes on; a core without a unit does nothing. R413 and R416: a sound record of a LOADED slot is unwrapped into the cache, and its slot is LOST where the integrity check fails. R419 to R421: an alarm
zeroises the KEK, empties queue, cores and cache, loses every LOADED slot, enters ALARM (OFF stays OFF) with its cause bit and sets EVENTS bit 2. A rearm leaves ALARM for KEYGEN with a new epoch where no source is active, and is ignored otherwise. R414: the end of key generation makes the engine READY. -/
def Obligations.CipherRequestsUnitsAndAlarms : Prop :=
  ∀ s : State,
    (∀ (cmd : BitVec 64) slot nsid (lba : BitVec 64) buffer data c, s.cmd? cmd.toNat = some c → c.stage = .running → c.first ≤ lba.toNat → c.isWrite = true →
      c.units[lba.toNat - c.first]? = some .todo → s.cipher.st = .keygen → s.allFenced = false → s.cipher.ops = [] →
      Next (exec (.cipherRequest cmd false slot nsid lba buffer data) s) fun t =>
        t.cipher.queue = s.cipher.queue ++ [⟨s.cipher.nextId, c.id, false, slot.toNat, nsid, lba.toNat, buffer.toNat, data, 0⟩] ∧
          t.cipher.cores = s.cipher.cores ∧ t = { s with cmds := t.cmds, cipher := t.cipher, regs := t.regs }) ∧
    (∀ cmd d slot nsid lba buffer data, s.cmd? (BitVec.toNat cmd) = none → exec (.cipherRequest cmd d slot nsid lba buffer data) s = .next s) ∧
    (∀ (core : Fin 8) r, (s.cipher.cores[core.val]).job = some r → (s.cipher.cores[core.val]).again = false →
      Next (exec (.cipherUnitDone core false) s) fun t =>
        t.cipher.cores[core.val] = { s.cipher.cores[core.val] with again := true } ∧
          t.sta .cipher CIPHER.retries = min (s.sta .cipher CIPHER.retries + 1) (2 ^ CIPHER.retries.width - 1) ∧ t = { s with cipher := t.cipher, regs := t.regs }) ∧
    (∀ (core : Fin 8) r, (s.cipher.cores[core.val]).job = some r → exec (.cipherUnitDone core true) s =
      .next ((s.modCore core (fun x => { x with job := none, again := false, units := satInc 24 x.units })).finishReq r
        (((s.cipher.cache.find? (fun p => p.1 == r.slot)).map (·.2)).getD [])).pump) ∧
    (∀ core m, (s.cipher.cores[Fin.val core]).job = none → exec (.cipherUnitDone core m) s = .next s) ∧
    (∀ (slot : BitVec 16), s.cipher.fetching.contains slot.toNat = true → s.slotState slot.toNat = 1 → s.cipher.ops = [] → s.cipher.queue = [] →
      Next (exec (.slotFetchDone slot true) s) fun t => t.cipher.fetching.contains slot.toNat = false ∧
        t = { s with cipher := t.cipher, slots := t.slots } ∧
        (∀ key, unwrapKey (s.cipher.kek.getD []) (s.slot slot.toNat).wrapped = some key →
          t.cipher.cache.head? = some (slot.toNat, key) ∧ t.slots = s.slots) ∧
        (unwrapKey (s.cipher.kek.getD []) (s.slot slot.toNat).wrapped = none → t.slotState slot.toNat = 2 ∧
          ∀ x ∈ t.cipher.cache, x.1 ≠ slot.toNat)) ∧
    (∀ (slot : BitVec 16) ok, s.cipher.fetching.contains slot.toNat = false → exec (.slotFetchDone slot ok) s = .next s) ∧
    (∀ src, s.allReqs = [] → s.cipher.ops = [] → Next (exec (.cipherAlarm src) s) fun t =>
      t.cipher.st = (if s.cipher.st = .off then .off else .alarm) ∧ t.cipher.cause = s.cipher.cause ||| BitVec.ofNat 4 (2 ^ alarmBit src) ∧
        t.cipher.kek = none ∧ t.cipher.cache = [] ∧ t.cipher.fetching = [] ∧ (∀ n, (t.slot n).state ≠ 1) ∧ t.log.events.getLsbD 2 = true ∧
        t.cmds = s.cmds ∧ t.regs = s.regs ∧ t.dram = s.dram) ∧
    (s.answers .cipher = true → s.cipher.st = .alarm → s.cipher.active = 0 → Next (exec .cipherRearm s) fun t =>
      t.cipher.st = .keygen ∧ t.cipher.epoch = (s.cipher.epoch + 1) % 2 ^ 32 ∧ t.cipher.kek.isSome = true ∧ t.log.next = s.log.next + 1 ∧
        t = { s with cipher := t.cipher, log := t.log, free := t.free }) ∧
    (s.answers .cipher = true → s.cipher.st ≠ .alarm ∨ s.cipher.active ≠ 0 → exec .cipherRearm s = .next s) ∧
    (s.cipher.st = .keygen → s.cipher.ops = [] → s.cipher.queue = [] → Next (exec .keygenDone s) fun t =>
      t.cipher = { s.cipher with st := .ready } ∧ t = { s with cipher := t.cipher }) ∧
    (s.cipher.st ≠ .keygen → exec .keygenDone s = .next s)

/-- R426: in TRAIN the fourth valid keepalive in a row makes a port UP with 4, 2 or 1 lanes, a bad one starts the count anew, and the last of retrain_limit timed-out attempts makes it FAILED. A keepalive timeout takes UP to TRAIN without routes. R432: a sequenced packet at a port that is not UP does nothing, and one with a bad CRC is counted, acknowledged and dropped. An acknowledgement of the newest packet replays none.
R428 and R429: the module's own HELLO marks a ring; another's gives its route. R441: retrain takes FAILED ports to TRAIN; enable releases ports in DOWN, and its clearing holds both in DOWN. -/
def Obligations.ChainPortsTrainHoldAndReplay : Prop :=
  ∀ (s : State) (q : Port) (p : PacketIn),
    let i := portIx q
    let x := s.port i
    let j := portIx p.port
    let rest (k : Fin 2) (t : State) : Prop := t.port (otherIx k) = s.port (otherIx k) ∧ t = { s with chain := t.chain }
    let taken := s.modPort j (fun y => { y with rxSeq := (y.rxSeq + 1) % 65536 })
    let arrives : Prop := (s.port j).st = .up ∧ p.crcOk = true ∧ p.seq.toNat = (s.port j).rxSeq
    let sequenced (n : BitVec 16) (a b : BitVec 64) : List Instr := [.chainWrite p, .readReq p n, .readResp p, .writeAck p, .mirrorWrite p, .mirrorDone p,
      .timeSync p a, .timeReply p a b, .hello p, .linkState p, .errorResp p]
    ((s.port j).st = .train → p.crcOk = true → (s.port j).good < 3 → Next (exec (.keepalive p) s) fun t =>
      t.port j = { s.port j with good := (s.port j).good + 1 } ∧ rest j t) ∧
    ((s.port j).st = .train → p.crcOk = true → 3 ≤ (s.port j).good → Next (exec (.keepalive p) s) fun t =>
      (t.port j).st = .up ∧ (t.port j).lanes ∈ [4, 2, 1] ∧ (t.port j).attempts = 0 ∧ t.log.next = s.log.next + 1 ∧ t.port (otherIx j) = s.port (otherIx j) ∧
        t = { s with chain := t.chain, log := t.log, out := t.out, free := t.free }) ∧
    ((s.port j).st = .train → p.crcOk = false → Next (exec (.keepalive p) s) fun t => t.port j = { s.port j with good := 0 } ∧
      t = { s with chain := t.chain, regs := t.regs }) ∧
    (x.st = .train → x.attempts + 1 < s.fld1 .chain CHAIN.retrain_limit → Next (exec (.chainTrainTimeout q) s) fun t =>
      t.port i = { x with attempts := x.attempts + 1, good := 0 } ∧ rest i t) ∧
    (x.st = .train → s.fld1 .chain CHAIN.retrain_limit ≤ x.attempts + 1 → Next (exec (.chainTrainTimeout q) s) fun t =>
      t.port i = { x with st := .failed, attempts := 0, good := 0 } ∧ rest i t) ∧
    (x.st ≠ .train → exec (.chainTrainTimeout q) s = .next s) ∧
    (x.st = .up → Next (exec (.keepaliveTimeout q) s) fun t => (t.port i).st = .train ∧ (t.port i).seen = [] ∧ t.log.next = s.log.next + 1 ∧
      t = { s with chain := t.chain, log := t.log, out := t.out }) ∧
    (x.st = .up → Next (exec (.keepaliveTimer q) s) fun t => t.out.length = s.out.length + 1 ∧ t = { s with out := t.out }) ∧
    (x.st = .up → Next (exec (.helloTimer q) s) fun t => (t.port i).txSeq = (x.txSeq + 1) % 65536 ∧ t.out.length = s.out.length + 1 ∧
      t = { s with chain := t.chain, out := t.out, free := t.free }) ∧
    (x.st ≠ .up → ∀ c ∈ ([.keepaliveTimeout q, .keepaliveTimer q, .helloTimer q] : List Instr), exec c s = .next s) ∧
    ((s.port j).st ≠ .up → ∀ n a b, ∀ c ∈ sequenced n a b ++ [.linkAck p], exec c s = .next s) ∧
    ((s.port j).st = .up → p.crcOk = false → ∀ n a b, ∀ c ∈ sequenced n a b ++ [.linkAck p, .keepalive p], exec c s = .next (s.badCrc j)) ∧
    ((s.port j).st = .up → p.crcOk = true → (s.port j).sent.head?.map (·.seq) = some p.tag.toNat → Next (exec (.linkAck p) s) fun t =>
      t.chain = s.chain ∧ t = { s with regs := t.regs }) ∧
    (arrives → p.source.toNat = s.moduleId → s.chain.nonces.contains p.tag.toNat = true → exec (.hello p) s =
      .next (taken.modChain (fun c => { c with ring := true, downLinks := [] }))) ∧
    (arrives → p.source.toNat ≠ s.moduleId → Next (exec (.hello p) s) fun t =>
      Tab.get? (t.port j).seen p.source.toNat = some (min 65535 (p.hops.toNat + 1)) ∧ t = { s with chain := t.chain, log := t.log, out := t.out }) ∧
    (arrives → p.source.toNat = s.moduleId → s.chain.dupId = false → exec (.linkState p) s = .next taken) ∧
    (s.answers .chain = true → (∀ k, (s.port k).st ≠ .up) → Next (exec .chainRetrain s) fun t =>
      (∀ k, (t.port k).st = if (s.port k).st = .failed then .train else (s.port k).st) ∧ t = { s with chain := t.chain }) ∧
    (s.answers .chain = true → s.moduleId ≠ 0xFFFF → s.pdOn 17 = true → s.time.refLost = false → Next (exec (.chainEnableWrite true) s) fun t =>
      t.fld .chain CHAIN.enable = 1 ∧ (∀ k, (t.port k).st = if (s.port k).st = .down then .train else (s.port k).st) ∧
        t = { s with chain := t.chain, regs := t.regs }) ∧
    (s.answers .chain = true → Next (exec (.chainEnableWrite false) s) fun t =>
      t.fld .chain CHAIN.enable = 0 ∧ (∀ k, (t.port k).st = .down) ∧ t.chain.ring = false ∧ t = { s with chain := t.chain, regs := t.regs })

/-- A packet that the link takes and that is addressed to this module. R433 and R434: a write through a window that permits it stores its bytes and is answered; through another it stores nothing; past every window it is a violation of kind 6. A read stores nothing. R430: a final response, an ERROR_RESP or a timeout ends the request of its tag. R436: a due message takes the lowest free slot and
its buffer gains a count. R437: the first packet of a message opens it. R438: a MIRROR_DONE frees the message's slot and decides its outcome, and a timeout decides it. R439: a TIME_SYNC is answered; a reply with an offset within 1 µs slews, a greater one steps; a master starts no exchange. -/
def Obligations.ChainTrafficIsServedAndAnswered : Prop :=
  ∀ (s : State) (p : PacketIn),
    let j := portIx p.port
    let taken := s.modPort j (fun y => { y with rxSeq := (y.rxSeq + 1) % 65536 })
    let mine : Prop := (s.port j).st = .up ∧ p.crcOk = true ∧ p.seq.toNat = (s.port j).rxSeq ∧ p.dest.toNat = s.moduleId
    let win := s.windowFor p.source.toNat p.address.toNat p.payload.length
    let quiet (t : State) : Prop := t = { s with chain := t.chain, out := t.out }
    let req := s.chain.reqs.find? (fun r => r.tag == p.tag.toNat)
    let ended (t : State) : Prop := t.chain.reqs = s.chain.reqs.filter (fun x => x.tag != p.tag.toNat) ∧ t = { s with chain := t.chain }
    (∀ w, mine → win = some w → w.write = true → s.served? (w.localAddr p.address.toNat) p.payload.length = true → Next (exec (.chainWrite p) s) fun t =>
      t = { s.store (w.localAddr p.address.toNat) p.payload with chain := t.chain, out := t.out }) ∧
    (∀ w, mine → win = some w → w.write = false → Next (exec (.chainWrite p) s) quiet) ∧
    (mine → win = none → Next (exec (.chainWrite p) s) fun t => t.log.violKind = 6 ∧ t.sta .chain CHAIN.addr = p.address.toNat % 2 ^ 32 ∧
      t.sta .chain CHAIN.source = p.source.toNat ∧ t = { s with chain := t.chain, out := t.out, regs := t.regs, log := t.log }) ∧
    (∀ (n : BitVec 16) w, mine → s.windowFor p.source.toNat p.address.toNat n.toNat = some w → Next (exec (.readReq p n) s) quiet) ∧
    (mine → req = none → ∀ i ∈ ([.readResp p, .writeAck p, .errorResp p] : List Instr), exec i s = .next taken) ∧
    (∀ r, mine → req = some r → r.cmd = none → p.flags.getLsbD 0 = true ∨ p.status ≠ 0 →
      ∀ i ∈ ([.readResp p, .writeAck p, .errorResp p] : List Instr), Next (exec i s) ended) ∧
    (∀ r, req = some r → r.cmd = none → Next (exec (.reqTimeout p.tag) s) ended) ∧
    (req = none → exec (.reqTimeout p.tag) s = .next s) ∧
    (∀ m : Fin 64, s.nextMessage m.val = none → exec (.mirrorMessageSend m) s = .next s) ∧
    (∀ (m : Fin 64) x c n, s.nextMessage m.val = some x → s.cmd? x.cmd = some c → c.stage = .dataIn → s.chain.dupId = false → (s.route x.peer).isSome = true →
      s.freeSlot x = some n → Next (exec (.mirrorMessageSend m) s) fun t =>
        t.chain.msgs = s.chain.msgs.map (fun y => if y.num = x.num then { y with slot := some n, buf := (c.bufs[x.part]?).map s.bufAddr } else y) ∧
        t.bufs = s.bufs.map (fun b => if c.bufs[x.part]? = some b.ref then { b with count := b.count + 1 } else b) ∧
        t = { s with chain := t.chain, out := t.out, bufs := t.bufs }) ∧
    (∀ w, mine → win = some w → w.mirror = false → Next (exec (.mirrorWrite p) s) quiet) ∧
    (∀ w, mine → win = some w → w.mirror = true → (p.address.toNat - w.base) % 4194304 = 0 → 32 ≤ p.payload.length → s.chain.peers = [] →
      p.payload.length - 32 < ofLe ((p.payload.drop 28).take 4) → Next (exec (.mirrorWrite p) s) fun t =>
        (∃ m, t.chain.peers = [m] ∧ m.origin = p.source.toNat ∧ m.num = ofLe (p.payload.take 8) ∧ m.slot = (p.address.toNat - w.base) / 4194304 ∧
          m.got = p.payload.drop 32 ∧ m.whole = false ∧ m.cmd = none ∧ m.answer = none) ∧ t = { s with chain := t.chain }) ∧
    (∀ m, mine → s.chain.msgs.find? (fun x => x.num == ofLe (p.payload.take 8) && x.peer == p.source.toNat && x.slot.isSome) = some m → m.done = true →
      Next (exec (.mirrorDone p) s) fun t => t.chain.msgs = s.chain.msgs.filter (fun y => y.num != m.num) ∧ t = { s with chain := t.chain }) ∧
    (∀ m, mine → s.chain.msgs.find? (fun x => x.num == ofLe (p.payload.take 8) && x.peer == p.source.toNat && x.slot.isSome) = some m → m.done = false →
      exec (.mirrorDone p) s =
        .next ((taken.modChain (fun c => { c with msgs := c.msgs.filter (fun y => y.num != m.num) })).messageOutcome m (doneStatus p.status.toNat))) ∧
    (∀ (n : BitVec 64) m, s.chain.msgs.find? (fun x => x.num == n.toNat && !x.done) = some m → m.slot = none → exec (.mirrorTimeout n) s =
      .next ((s.modChain (fun c => { c with msgs := c.msgs.filter (fun y => y.num != m.num) })).messageOutcome m (stat 4 1))) ∧
    (∀ n : BitVec 64, s.chain.msgs.find? (fun x => x.num == n.toNat && !x.done) = none → exec (.mirrorTimeout n) s = .next s) ∧
    (∀ t2, mine → Next (exec (.timeSync p t2) s) fun t => t.out.length = s.out.length + 1 ∧ quiet t) ∧
    (∀ t1 t4 r, mine → req = some r → r.type = 0x10 → r.cmd = none →
      let o := syncOffset (BitVec.toNat t1) (ofLe (p.payload.take 8)) (ofLe ((p.payload.drop 8).take 8)) (BitVec.toNat t4)
      Next (exec (.timeReply p t1 t4) s) fun t =>
        t.chain.locked = (if o.natAbs ≤ 20 then min 8 (s.chain.locked + 1) else 0) ∧ t.chain.offset = clampI o (-2147483648) 2147483647 ∧
        (o.natAbs ≤ 1000 → t.time = { s.time with slew := 100 * clampI o (-100) 100, slewLeft := o, slewFrac := 0 } ∧ t = { s with chain := t.chain, time := t.time }) ∧
        (1000 < o.natAbs → t.time.offset = s.time.offset + BitVec.ofInt 64 o ∧ t.sta .timebase TIMEBASE.stepped = 1 ∧ t.log.next = s.log.next + 1)) ∧
    (s.masterPort = none → s.fld .chain CHAIN.time_master = 1 → exec .timeSyncTimer s = .next s) ∧
    (s.masterPort = none → s.fld .chain CHAIN.time_master ≠ 1 → Next (exec .timeSyncTimer s) fun t => t.chain.locked = 0 ∧ t.time.slew = 0 ∧
      t = { s with chain := t.chain, time := t.time }) ∧
    (∀ i id, s.masterPort = some i → (s.port i).neighbour = some id → Next (exec .timeSyncTimer s) fun t =>
      t.chain.reqs = s.chain.reqs ++ [⟨s.chain.nextTag, 0x10, none⟩] ∧ t.chain.nextTag = (s.chain.nextTag + 1) % 65536 ∧ t.out.length = s.out.length + 1 ∧
        quiet t)

/-- R42: a header of which any of the three holds leaves the module as it is: no wedge, mark, rate, side-layer, track or burst of it is used. -/
def Obligations.InvalidHeadersGiveNoPosition : Prop :=
  ∀ (s : State) (g : HeadId) (k : BeamId) (h : HeaderIn), h.biphaseOk = false ∨ h.parityOk = false ∨ 12 ≤ slLayer h.sideLayer →
    exec (.wedgeHeader g k h) s = .next s

/-- R207: where TARGET lies outside pos_min to pos_max of the transport axis (R212), in any state and mode, cmd_refused reads 1, every axis keeps its position, velocity, profile and state, and nothing outside the register file changes. -/
def Obligations.TargetsOutsideTheLimitsAreRefused : Prop :=
  ∀ (s : State) (n : Fin 4) (v : BitVec 32), s.answers (.taxis n) = true →
    v.toInt < (s.axPar (.transport n)).lo ∨ (s.axPar (.transport n)).hi < v.toInt → Next (exec (.axisTargetWrite n v) s) fun t =>
      t.sta (.taxis n) AXIS.cmd_refused = 1 ∧ t.trans = s.trans ∧ t = { s with regs := t.regs }

/-- R456: an interface reads NOW_LO in s and later NOW_HI in a state s' in which its read latches are as the first read left them, whatever the time is by then. The two words that it gets are the low and high words of the published timebase at the first read. The first read changes the latch alone beside its answer. -/
def Obligations.TimebaseWordsReadAsOneValue : Prop :=
  ∀ (s s' : State) (i : Iface), s.answers .timebase = true → Next (exec (.lowWordRead i 0x20000) s) fun t =>
    t = { s with regs := { s.regs with readLatch := t.regs.readLatch }, out := t.out } ∧
      ∃ lo, t.out = Output.regRead i 0x20000 lo :: s.out ∧
        (s'.regs.readLatch = t.regs.readLatch → Next (exec (.lowWordRead i 0x20004) s') fun u =>
          ∃ hi, u.out = Output.regRead i 0x20004 hi :: s'.out ∧ hi * 2 ^ 32 + lo = s.now.toNat)

/-- R506: a low word waits in its interface's latch; a high word of DOMAIN that asks for what is on changes no domain, and one of OFFSET sets the offset at once and is a step. R445: a domain switches once its bit and its state differ and no power failure stands. R447 and R449: a cap is kept, and a scan issues the SEEK request that fits. R450 and R451: a mean above
the cap and 100 °C raise over_cap and thermal_warn with their events, which end below their levels. R452: a power failure withdraws every grant and request; its end resumes. R458: a lost reference raises its flags and its event and holds both chain ports in DOWN, and its return outside full mode is only logged. A read word is answered. -/
def Obligations.PowerAndTimeInputsAct : Prop :=
  ∀ (s : State) (i : Iface) (v : BitVec 32),
    let p := s.power
    let same (o : Host.Outcome State Fault Refusal) : Prop := o = .next s
    let latch (t : State) (a : Nat) : Prop := Tab.get? t.regs.writeLatch[(ifaceIx i).val] a = some v.toNat ∧
      t = { s with regs := { s.regs with writeLatch := t.regs.writeLatch } }
    let event (t : State) (bit : Nat) : Prop := t.log.events.getLsbD bit = true ∧ t.log.next = s.log.next + 1
    (s.answers .power = true → Next (exec (.domainWrite i false v) s) fun t => latch t (Blk.base .power)) ∧
    (s.answers .power = true → Tab.get? s.regs.writeLatch[(ifaceIx i).val] (Blk.base .power) = none → Next (exec (.domainWrite i true v) s) fun t =>
      t.power = p ∧ t = { s with regs := { s.regs with writeLatch := t.regs.writeLatch } }) ∧
    (∀ d, s.answers .power = true → Tab.get? s.regs.writeLatch[(ifaceIx i).val] (Blk.base .power) = some d → exec (.domainWrite i true v) s =
      .next ((List.range 20).foldl (fun u k => u.domainBit k (bitOf d k)) (s.takeLow i (Blk.base .power) p.on.toNat).2)) ∧
    (∀ d : Fin 20, bitOf p.on.toNat d.val = bitOf p.state.toNat d.val ∨ p.powerFail = true → same (exec (.domainSwitchDone d) s)) ∧
    (∀ d : Fin 20, bitOf p.on.toNat d.val = true → bitOf p.state.toNat d.val = false → p.powerFail = false → exec (.domainSwitchDone d) s = .next (s.railOn d.val)) ∧
    (∀ d : Fin 20, bitOf p.on.toNat d.val = false → bitOf p.state.toNat d.val = true → p.powerFail = false → p.queue = [] →
      Next (exec (.domainSwitchDone d) s) fun t => bitOf t.power.state.toNat d.val = false ∧ (∀ k, k ≠ d.val → k < 20 → bitOf t.power.state.toNat k = bitOf p.state.toNat k) ∧
        t.power.on = p.on ∧ t = { s with power := t.power }) ∧
    (∀ c, s.answers .power = true → p.queue = [] → Next (exec (.capWrite c) s) fun t => t.fld .power POWER.cap_mw = BitVec.toNat c ∧ t = { s with regs := t.regs }) ∧
    (p.queue = [] → same (exec .governorScan s)) ∧
    (∀ who mw, p.queue = [⟨.seek, who⟩] → s.grantFor ⟨.seek, who⟩ = some mw → Next (exec .governorScan s) fun t =>
      t.power = { p with queue := [], held := p.held ++ [⟨.seek, who, mw⟩] } ∧ t = { s with power := t.power }) ∧
    (∀ mw b, s.cap < BitVec.toNat mw → p.overCap = false → Next (exec (.powerMeasure mw b) s) fun t =>
      t.power = { p with pIn := mw.toNat, overCap := true } ∧ event t 10) ∧
    (∀ mw b, BitVec.toNat mw ≤ s.cap → p.overCap = false ∨ b = false → Next (exec (.powerMeasure mw b) s) fun t => t = { s with power := { p with pIn := mw.toNat } }) ∧
    (∀ mw, BitVec.toNat mw ≤ s.cap → p.overCap = true → p.queue = [] → Next (exec (.powerMeasure mw true) s) fun t =>
      t = { s with power := { p with pIn := mw.toNat, overCap := false } }) ∧
    (∀ c, 1600 ≤ BitVec.toInt c → p.thermalWarn = false → Next (exec (.thermalWarn c) s) fun t => t.power = { p with dieTemp := c.toInt, thermalWarn := true } ∧ event t 11) ∧
    (∀ c, BitVec.toInt c < 1600 ∨ p.thermalWarn = true → Next (exec (.thermalWarn c) s) fun t => t = { s with power := { p with dieTemp := c.toInt } }) ∧
    (p.queue = [] → Next (exec .thermalWarnClear s) fun t => t = { s with power := { p with thermalWarn := false } }) ∧
    (p.powerFail = false → Next (exec .pwrGoodDeassert s) fun t => t.power.powerFail = true ∧ t.power.queue = [] ∧ t.power.held = [] ∧
      t.sta .power POWER.power_fail_seen = 1 ∧ t.log.events.getLsbD 12 = true ∧ t.power.on = p.on ∧ t.power.state = p.state) ∧
    (p.powerFail = true → same (exec .pwrGoodDeassert s)) ∧
    (∀ u : BitVec 16, exec (.vinUndervolt u) s = if u.toNat < 850 then exec .pwrGoodDeassert { s with power := { p with vin := u.toNat } }
      else .next { s with power := { p with vin := u.toNat } }) ∧
    (p.powerFail = true → p.on = p.state → p.queue = [] → (∀ b : BayId, (s.spindle b).wantStart = false) → Next (exec .powerFailEnd s) fun t =>
      t.power = { p with powerFail := false } ∧ t.log.next = s.log.next + 1 ∧ t = { s with power := t.power, log := t.log }) ∧
    (p.powerFail = false → same (exec .powerFailEnd s)) ∧
    (s.time.refLost = false → Next (exec .referenceLost s) fun t => t.time = { s.time with refLost := true } ∧ t.sta .timebase TIMEBASE.ref_lost_seen = 1 ∧
      t.log.events.getLsbD 5 = true ∧ (∀ k, (t.port k).st = .down)) ∧
    (s.time.refLost = true → same (exec .referenceLost s)) ∧
    (∀ x, s.time.refLost = false ∨ p.powerFail = true → same (exec (.referenceRestored x) s)) ∧
    (∀ x, s.time.refLost = true → p.powerFail = false → s.mgmt.started = false → Next (exec (.referenceRestored x) s) fun t =>
      t.time = { s.time with refLost := false } ∧ t.log.next = s.log.next + 1 ∧ t = { s with time := t.time, log := t.log }) ∧
    (Next (exec (.timebaseOffsetWrite i false v) s) fun t => latch t 0x20010) ∧
    (∀ lo, Tab.get? s.regs.writeLatch[(ifaceIx i).val] 0x20010 = some lo → Next (exec (.timebaseOffsetWrite i true v) s) fun t =>
      t.time.offset = v ++ BitVec.ofNat 32 lo ∧ t.time.localNs = s.time.localNs ∧ t.sta .timebase TIMEBASE.stepped = 1 ∧ t.log.next = s.log.next + 1 ∧
        t = { s with time := t.time, regs := t.regs, log := t.log }) ∧
    (∀ a : BitVec 26, wideLow (a.toNat / 4 * 4) = false → Tab.get? s.regs.readLatch[(ifaceIx i).val] (a.toNat / 4 * 4) = none →
      exec (.lowWordRead i a) s = .next { s with out := .regRead i (a.toNat / 4 * 4) (s.readWord (a.toNat / 4 * 4)) :: s.out })

/-- R72: a temperature outside −40 to 150 °C is a sensor fault and the last stands; one within 0.5 °C of the last commit only replaces the temperature, one further commits the head's trims anew. R466: a trial applies +dither, then −dither, then the better of the two, which stands or is taken back and counted. R463: changed head sets enter the NV image at most once per hour. R467 to R470: where no margin is short and no step stands, an evaluation
reports alone; a cipher margin alone short raises VCORE by one step. R469: a new speed step applies in READ with no read window open. R471: a trend's first measure is its baseline, and a first crossing of its limit is reported; a laser's is compared at its temperature only. The dither of 8 steps and the free choice of a trial's trim are the model's (log entry 53). -/
def Obligations.CalibrationTrialsMarginsAndTrends : Prop :=
  ∀ (s : State) (g : HeadId) (b : BayId),
    let same (o : Host.Outcome State Fault Refusal) : Prop := o = .next s
    let drop := s.modCalib (fun c => { c with trials := Tab.erase c.trials g.val })
    let heads (t : State) (h : Head) : Prop := t.heads[g.val] = h ∧ ∀ k : HeadId, k ≠ g → t.heads[k.val] = s.heads[k.val]
    (∀ v : BitVec 16, v.toInt < -640 ∨ 2400 < v.toInt → Next (exec (.trimTempRecompute g v) s) fun t =>
      heads t { s.heads[g.val] with sensorFault := true } ∧ t = { s with heads := t.heads, log := t.log }) ∧
    (∀ (v : BitVec 16) p, -640 ≤ v.toInt → v.toInt ≤ 2400 → Tab.get? s.calib.temps g.val = some p → (v.toInt - p).natAbs < 8 →
      Next (exec (.trimTempRecompute g v) s) fun t => heads t { s.heads[g.val] with temp := v.toInt, sensorFault := false } ∧ t = { s with heads := t.heads }) ∧
    (∀ (v : BitVec 16) p, -640 ≤ v.toInt → v.toInt ≤ 2400 → Tab.get? s.calib.temps g.val = some p → 8 ≤ (v.toInt - p).natAbs →
      exec (.trimTempRecompute g v) s = .next ((s.modHead g (fun h => { h with temp := v.toInt, sensorFault := false })).recomputeTrims g)) ∧
    (∀ f w, Tab.get? s.calib.trials g.val = none → s.heads[g.val].foc.sl = none ∨ s.fld .calib CALIB.auto_trim = 0 ∨ s.heads[g.val].lost = true →
      same (exec (.trialPhaseEnd g f w) s)) ∧
    (∀ f (w : BitVec 16) sl, Tab.get? s.calib.trials g.val = none → s.heads[g.val].foc.sl = some sl → s.fld .calib CALIB.auto_trim ≠ 0 → s.heads[g.val].lost = false →
      s.sweeps = [] → Next (exec (.trialPhaseEnd g f w) s) fun t => ∃ x : Trial, Tab.get? t.calib.trials g.val = some x ∧ x.phase = .plus ∧
        x.base = Tab.get 0 s.trims x.key ∧ x.dither = 8 ∧ x.before = w.toNat ∧
        Tab.get? t.trims x.key = some (clampI (x.base + 8) (trimRange (keyCode x.key) (keyIndex x.key)).1 (trimRange (keyCode x.key) (keyIndex x.key)).2) ∧
        t = { s with calib := t.calib, trims := t.trims, regs := t.regs, log := t.log, free := t.free }) ∧
    (∀ (f w : BitVec 16) x, Tab.get? s.calib.trials g.val = some x → x.phase = .plus → Next (exec (.trialPhaseEnd g f w) s) fun t =>
      Tab.get? t.calib.trials g.val = some { x with phase := .minus, fraction := f.toNat } ∧ (s.commitTrim x.key (x.base - x.dither)).trims = t.trims ∧
        t.heads = s.heads ∧ t.free = s.free) ∧
    (∀ (f w : BitVec 16) x, Tab.get? s.calib.trials g.val = some x → x.phase = .minus → ((x.fraction : Int) - f.toNat).natAbs * 50 < 65536 →
      exec (.trialPhaseEnd g f w) s = .next (drop.commitTrim x.key x.base)) ∧
    (∀ (f w : BitVec 16) x, Tab.get? s.calib.trials g.val = some x → x.phase = .minus → 65536 ≤ ((x.fraction : Int) - f.toNat).natAbs * 50 →
      let d := if x.fraction < f.toNat then x.dither else -x.dither
      Next (exec (.trialPhaseEnd g f w) s) fun t => Tab.get? t.calib.trials g.val = some { x with phase := .judge, dither := d } ∧
        t.trims = (s.commitTrim x.key (x.base + d)).trims) ∧
    (∀ (f w : BitVec 16) x, Tab.get? s.calib.trials g.val = some x → x.phase = .judge → w.toNat * 100 ≤ x.before * 105 →
      exec (.trialPhaseEnd g f w) s = .next (drop.learnTrim g x.key x.dither)) ∧
    (∀ (f w : BitVec 16) x, Tab.get? s.calib.trials g.val = some x → x.phase = .judge → x.before * 105 < w.toNat * 100 →
      Next (exec (.trialPhaseEnd g f w) s) fun t => Tab.get? t.calib.trials g.val = none ∧ t.trims = (s.commitTrim x.key x.base).trims ∧
        t.sta .calib CALIB.rejected = min (s.sta .calib CALIB.rejected + 1) (2 ^ CALIB.rejected.width - 1)) ∧
    (s.calib.changed = true → (∀ n, s.calib.lastSetWrite = some n → n + 3600000000000 ≤ s.time.localNs) → Next (exec .headSetNvWrite s) fun t =>
      t.calib = { s.calib with changed := false, lastSetWrite := some s.time.localNs } ∧ t = { s with calib := t.calib, nv := { s.nv with dueOwned := true } }) ∧
    (s.calib.changed = false → same (exec .headSetNvWrite s)) ∧
    (∀ n, s.calib.lastSetWrite = some n → s.time.localNs < n + 3600000000000 → same (exec .headSetNvWrite s)) ∧
    (∀ i : MarginIn, i.decoderSlow = [] → (∀ k ∈ marginKeys, (s.margin i k).short = false) → s.calib.vcore = 0 → s.calib.decoderSteps = 0 →
      s.calib.limits = Vector.replicate 8 0 → Next (exec (.marginEvaluation i) s) fun t => t.regs.cfg = s.regs.cfg ∧ t.regs.act = s.regs.act ∧
        t.calib = { s.calib with good := t.calib.good } ∧ t = { s with regs := t.regs, calib := t.calib }) ∧
    (∀ i : MarginIn, i.decoderSlow = [] → s.fld .calib CALIB.replan_enable ≠ 0 → (∀ k ∈ marginKeys, (s.margin i k).short = decide (k = 2)) →
      Tab.get? s.calib.waits 2 = none → s.fld .power POWER.trim < 10 → Next (exec (.marginEvaluation i) s) fun t =>
        t.fld .power POWER.trim = s.fld .power POWER.trim + 1 ∧ t.calib.vcore = s.calib.vcore + 1 ∧ t.sta .calib CALIB.last_action = 2 ∧
          t = { s with regs := t.regs, calib := t.calib }) ∧
    (s.speedWant b = s.bays[b.val].speedStep ∨ s.bays[b.val].sess ≠ .read ∨ s.bays[b.val].requests.any (fun r => r.isRead && r.opened) = true →
      same (exec (.speedStepApply b) s)) ∧
    (s.speedWant b ≠ s.bays[b.val].speedStep → s.bays[b.val].sess = .read → s.bays[b.val].requests.any (fun r => r.isRead && r.opened) = false →
      s.fld (.spindle b) SPINDLE.rpm ≠ s.readRpm b → Next (exec (.speedStepApply b) s) fun t =>
        t.bays[b.val] = { s.bays[b.val] with speedStep := s.speedWant b } ∧ t.log.next = s.log.next + 1 ∧ t = { s with bays := t.bays, log := t.log }) ∧
    (∀ k p v, s.trendNow (.laser g k p) = false → same (exec (.trendEvaluation (.laser g k p) v) s)) ∧
    (∀ x (v : BitVec 32), s.trendNow x = true → s.trendBase x = none → Next (exec (.trendEvaluation x v) s) fun t =>
      Tab.get? t.calib.bases (trendKey x) = some (s.trendValue x v.toNat) ∧ t = { s with calib := t.calib, nv := { s.nv with dueOwned := true } }) ∧
    (∀ x (v : BitVec 32) base, s.trendNow x = true → s.trendBase x = some base → s.trendLevel x base (s.trendValue x v.toNat) = 0 →
      Next (exec (.trendEvaluation x v) s) fun t => Tab.get 0 t.calib.trends (trendKey x) = 0 ∧ t = { s with calib := t.calib }) ∧
    (∀ x (v : BitVec 32) base, s.trendNow x = true → s.trendBase x = some base → s.trendLevel x base (s.trendValue x v.toNat) = 2 →
      Tab.get 0 s.calib.trends (trendKey x) < 2 → Next (exec (.trendEvaluation x v) s) fun t => Tab.get 0 t.calib.trends (trendKey x) = 2 ∧
        t.sta .calib CALIB.trend_limit = 1 ∧ t.sta .calib CALIB.margin_exhausted = 1 ∧ t.log.events.getLsbD 4 = true)

/-- R525: a cold start runs from reset alone, with PWR_GOOD and VIN good. R481: a start whose checks all pass completes step 8 in full mode; one that fails is recorded with its reason, and the third failure in a row enters minimal mode. R483: a warm start waits for a start that has begun and for the end of POWER_FAIL. R526: a reset keeps the flash copies, the boot records,
the count of starts and the latest metering snapshot, and nothing else of the module. R487: RESTART waits while an activation runs; its flag bit 2 forces minimal mode. After every such command the mode is legal and the queue as it was. That a firmware failure waits for the next start is R481's retry (log entry 60). -/
def Obligations.StartsEndInFullOrMinimalMode : Prop :=
  ∀ (s : State) (i : StartIn) (p : MgmtPath),
    let may : Prop := s.mgmt.startStep = 0 ∧ s.mgmt.started = false ∧ i.vinOk = true ∧ i.pwrGood = true
    let legal (o : Host.Outcome State Fault Refusal) : Prop := Next o fun t => modeLegal t ∧ t.pending = s.pending
    let waiting (t : State) (reason : Nat) : Prop := t.mgmt.started = false ∧ t.minimal = false ∧ t.mgmt.startStep = 3 ∧
      (t.nv.boot.getLast?.map (fun r => (r.kind, r.reason))) = some (3, reason)
    let minimal (t : State) (reason : Nat) : Prop := t.mgmt.started = false ∧ t.minimal = true ∧ t.mgmt.reason = reason
    let read := (State.startRecord { s.latchStrap with minimal := false }).modNv (fun n => { n with noFlash := false })
    (may → legal (exec (.coldStart i) s)) ∧
    (¬ may → exec (.coldStart i) s = .next s) ∧
    (∀ c k, may → i.tamperLow = false → i.otpOk = true → i.flashOk = true → i.firmwareOk = true → i.domainsOk = true → read.chooseCopy = some (c, k) →
      let u := (read.takeCopy c k).modMgmt (fun m => { m with fw := versionOf (read.takeCopy c k).nv.img, startStep := 5 })
      ((u.startRuns.step6a (!u.regs.loaded)).step6b i).step6Fault i = none →
      Next (exec (.coldStart i) s) fun t => t.mgmt.started = true ∧ t.minimal = false ∧ t.mgmt.startStep = 8 ∧ t.mgmt.reason = 0) ∧
    (may → i.tamperLow = false → i.otpOk = false → s.failedStarts < 2 → s.nv.boot.length < 2000 → Next (exec (.coldStart i) s) fun t =>
      waiting t 9 ∧ t.nv.starts = s.nv.starts + 1) ∧
    (may → i.tamperLow = false → i.otpOk = false → 2 ≤ s.failedStarts → s.nv.boot.length < 2000 → Next (exec (.coldStart i) s) fun t => minimal t 9) ∧
    (s.mgmt.started = false → s.minimal = false → s.failedStarts < 2 → s.nv.boot.length < 2000 → Next (exec .startTimeout s) fun t =>
      waiting t 7 ∧ t.nv.starts = s.nv.starts + 1) ∧
    (s.mgmt.started = true ∨ s.minimal = true → exec .startTimeout s = .next s) ∧
    (s.mgmt.startStep = 0 ∨ s.power.powerFail = true → exec (.warmStart i) s = .next s) ∧
    (s.mgmt.startStep ≠ 0 → s.power.powerFail = false → exec (.warmStart i) s = .next (s.warmStart i) ∧ legal (exec (.warmStart i) s)) ∧
    (s.mgmt.startStep ≠ 0 → s.power.powerFail = false → s.mgmt.started = true → s.minimal = false → i.firmwareOk = true → i.domainsOk = true →
      let w := s.warmDown.warmForget
      let u := w.modMgmt (fun m => { m with fw := versionOf w.nv.img, startStep := 5 })
      ((u.startRuns.step6a (!u.regs.loaded)).step6b i).step6Fault i = none →
      Next (exec (.warmStart i) s) fun t => t.mgmt.started = true ∧ t.minimal = false ∧ t.mgmt.startStep = 8 ∧ t.mgmt.reason = 0) ∧
    (modeLegal s → legal (exec (.referenceRestored i) s)) ∧
    (Next (exec .rstNAssert s) fun t =>
      t = { State.reset with pending := s.pending, free := s.free, out := s.out, nv := t.nv, meter := t.meter } ∧
        t.nv = { Nv.reset with copies := s.nv.copies, boot := s.nv.boot, starts := s.nv.starts } ∧ t.meter.snap = s.meter.snap ∧
        (∀ n l k, s.meter.snap = some (n, k, l) → t.meter.counters = l)) ∧
    (∀ l, (s.path p).busy = true → (s.path p).op = 6 → (s.path p).args = some l → l ≠ [] → s.mgmt.act = none →
      exec (.restart p i) s = .next (s.restartOp p i (byteField l 0 1)) ∧
      (bitOf (byteField l 0 1) 2 = true → Next (exec (.restart p i) s) fun t => minimal t 0x0A)) ∧
    (∀ l, (s.path p).args = some l → s.mgmt.act.isSome = true → l ≠ [] → exec (.restart p i) s = .next s) ∧
    ((s.path p).busy = false → exec (.restart p i) s = .next s)

/-- R485 and R486: go and a start at a busy path only set its overrun; a request of a known operation starts, and one that is not known is answered with status 1. Sideband bytes join the request, or discard it with a bad PEC; reads give the status, clearing overrun, and the next 255 bytes. R487: LOG_READ, METER_READ, SENSOR_READ, NV_READ, NV_WRITE and EVENTS answer with their data and status where the path runs that
operation, and otherwise do nothing. Answering leaves the path done, and everything but the path, the log's events and the MSI-X vectors as the operation left it. The sensor layout is the model's (log entry 52). -/
def Obligations.ManagementPathsAnswerTheirRequests : Prop :=
  ∀ (s : State) (p : MgmtPath) (args : List Byte),
    let x := s.path p
    let same (o : Host.Outcome State Fault Refusal) : Prop := o = .next s
    let running (op : Nat) : Prop := x.busy = true ∧ x.op = op ∧ x.args = some args
    let tag := ofLe ((x.running.drop 2).take 2)
    let answered (op status : Nat) (data : List Byte) (o : Host.Outcome State Fault Refusal) : Prop := Next o fun t =>
      (t.path p).busy = false ∧ (t.path p).done = true ∧ (t.path p).response = message op tag status data ∧ t.dram = s.dram ∧ t.regs = s.regs ∧ t.nv = s.nv
    let ops : List (Nat × Instr) := [(1, .logRead p), (2, .meterRead p), (3, .sensorRead p), (4, .nvWrite p), (5, .nvRead p), (7, .events p)]
    let smb := s.mgmt.smb
    let side (t : State) (y : PathSt) : Prop := t.mgmt = { s.mgmt with smb := y } ∧ t = { s with mgmt := t.mgmt, out := t.out }
    (∀ q ∈ ops, x.busy = false ∨ x.op ≠ q.1 → same (exec q.2 s)) ∧
    (∀ q ∈ ops, x.busy = true → x.op = q.1 → x.args = none → answered q.1 2 [] (exec q.2 s)) ∧
    (s.answers .mgmt = true → s.mgmt.mbox.busy = true → Next (exec .mailboxGo s) fun t => t = { s with mgmt := { s.mgmt with mbox := { s.mgmt.mbox with overrun := true } } }) ∧
    (s.answers .mgmt = true → s.mgmt.mbox.busy = false → 1 ≤ ofLe (s.mgmt.mbox.request.take 2) → ofLe (s.mgmt.mbox.request.take 2) ≤ 7 → s.mgmt.mbox.request.length = 4096 →
      Next (exec .mailboxGo s) fun t => t = { s with mgmt := { s.mgmt with mbox := { s.mgmt.mbox with busy := true, running := s.mgmt.mbox.request } } }) ∧
    (∀ l, Next (exec (.smbBlockWrite l true) s) fun t => side t { smb with request := (smb.request ++ l.take 255).take 4096, pec := false }) ∧
    (∀ l, Next (exec (.smbBlockWrite l false) s) fun t => side t { smb with request := [], pec := true }) ∧
    (smb.busy = true → Next (exec .smbStart s) fun t => side t { smb with overrun := true }) ∧
    (smb.busy = false → 16 ≤ smb.request.length → 1 ≤ ofLe (smb.request.take 2) → ofLe (smb.request.take 2) ≤ 7 → Next (exec .smbStart s) fun t =>
      side t { smb with busy := true, done := false, running := smb.request, request := [], response := [], given := 0 }) ∧
    (smb.busy = false → 16 ≤ smb.request.length → 7 < ofLe (smb.request.take 2) → Next (exec .smbStart s) fun t =>
      t.mgmt.smb.busy = false ∧ t.mgmt.smb.done = true ∧ t.mgmt.smb.response = message (ofLe (smb.request.take 2)) (ofLe ((smb.request.drop 2).take 2)) 1 []) ∧
    (Next (exec .smbStatusRead s) fun t => side t { smb with overrun := false } ∧
      t.out = .response .sideband [BitVec.ofNat 8 (b2n smb.busy + 2 * b2n smb.done + 4 * b2n smb.pec + 8 * b2n smb.overrun)] :: s.out) ∧
    (Next (exec .smbBlockRead s) fun t => side t { smb with given := smb.given + ((smb.response.drop smb.given).take 255).length } ∧
      t.out = .response .sideband ((smb.response.drop smb.given).take 255) :: s.out) ∧
    (∀ a b, running 1 → 6 ≤ args.length → byteField args 4 2 ≤ 126 → s.log.entries.getLast? = some a → s.log.entries.head? = some b →
      answered 1 0 (leBytes 4 a.seq ++ leBytes 4 b.seq ++ (s.logFrom (byteField args 0 4) (byteField args 4 2)).flatMap LogEntry.bytes) (exec (.logRead p) s)) ∧
    (running 1 → args.length < 6 ∨ 126 < byteField args 4 2 → answered 1 2 [] (exec (.logRead p) s)) ∧
    (running 2 → s.minimal = false → 4 ≤ args.length → byteField args 2 2 = 0 → byteField args 0 2 ≤ 2049 → answered 2 0 [] (exec (.meterRead p) s)) ∧
    (running 2 → s.minimal = true → answered 2 4 [] (exec (.meterRead p) s)) ∧
    (running 2 → s.minimal = false → args.length < 4 ∨ 100 < byteField args 2 2 ∨ 2049 < byteField args 0 2 + byteField args 2 2 →
      answered 2 2 [] (exec (.meterRead p) s)) ∧
    (running 3 → s.minimal = false → answered 3 0 s.sensorData (exec (.sensorRead p) s)) ∧
    (running 3 → s.minimal = true → answered 3 4 [] (exec (.sensorRead p) s)) ∧
    (running 5 → 7 ≤ args.length → byteField args 0 1 ≤ 1 → byteField args 5 2 ≤ 4032 → byteField args 1 4 + byteField args 5 2 ≤ 0x800000 → s.nv.noFlash = false →
      answered 5 0 (flashRead (if byteField args 0 1 = 0 then s.nv.copies[0] else s.nv.copies[1]) (byteField args 1 4) (byteField args 5 2)) (exec (.nvRead p) s)) ∧
    (running 4 → s.pieceStatus p args ≠ 0 → answered 4 (s.pieceStatus p args) [] (exec (.nvWrite p) s)) ∧
    (running 4 → s.pieceStatus p args = 0 → bitOf (byteField args 4 4) 0 = true → bitOf (byteField args 4 4) 1 = false → Next (exec (.nvWrite p) s) fun t =>
      t.nv.hold = some p ∧ t.nv.holdAt = s.time.localNs ∧ t.nv.pieces = flashPut [] (byteField args 0 4) (args.drop 8) ∧
        t.nv.copies = s.nv.copies.set s.hostTarget.val (eraseHeader s.nv.copies[s.hostTarget.val]) ∧ (t.path p).response = message 4 tag 0 [] ∧ t.regs = s.regs) ∧
    (running 7 → 4 ≤ args.length → answered 7 0 (leBytes 4 s.log.events.toNat) (exec (.events p) s)) ∧
    (running 7 → 4 ≤ args.length → p = .sideband → Next (exec (.events p) s) fun t => t.log = { s.log with events := s.log.events &&& ~~~(BitVec.ofNat 13 (byteField args 0 4)) } ∧
      (t.path p).response = message 7 tag 0 (leBytes 4 s.log.events.toNat) ∧ t = { s with log := t.log, mgmt := t.mgmt })

/-- R309: a command to a block that does not answer is discarded and recorded as a violation of kind 7. R307: a read of a wrong size or alignment is a violation of kind 3 with an error completion. R505: a commit of an empty range of tags reports no group. R501 and R506: a register write of a word of DOMAIN, OFFSET or COMMIT acts as that register's command, and one to an offset that no register has changes nothing.
R478 and R488: a verified program puts its copy in force with the next generation, another leaves the copy as it was; a due module image begins a program; a host image without a piece for 10 s is dropped. R491: a metering snapshot takes the next number. -/
def Obligations.RegisterWritesImagesAndMetersAct : Prop :=
  ∀ s : State,
    let same (o : Host.Outcome State Fault Refusal) : Prop := o = .next s
    let absent (b : Blk) (f : Field) (o : Host.Outcome State Fault Refusal) : Prop := s.answers b = false → Next o fun t =>
      t.log.violKind = 7 ∧ t.log.violAddr = BitVec.ofNat 32 (b.base + f.off) ∧ t.log.violSource = srcFunc 0 ∧ t = { s with log := t.log }
    let gone (n : Nv) : Nv := { n with hold := none, pieces := [] }
    (∀ (g : HeadId) (b : BayId) (c : DramChan) (n : Fin 4) (e : Fin 7) (a : BitVec 2) (m : BitVec 17),
      absent (.eng g e) ENG.go (exec (.engCommit g e a) s) ∧ absent (.spindle b) SPINDLE.start (exec (.spindleStart b) s) ∧
      absent (.dramc c) DRAMC.train (exec (.dramTrain c) s) ∧ absent (.taxis n) AXIS.stop (exec (.axisStop n) s) ∧ absent (.chan g) CHAN.go (exec (.chanCommit g) s) ∧
      absent .cipher CIPHER.rearm (exec .cipherRearm s) ∧ absent .chain CHAIN.go (exec .chainCommit s) ∧ absent .power POWER.cap_mw (exec (.capWrite m) s) ∧
      absent .calib CALIB.clear_stats (exec .calibClearStats s)) ∧
    (∀ (a : BitVec 64) (n : BitVec 16), n ≠ 4 → n ≠ 8 → Next (exec (.completerAbortRead a n) s) fun t =>
      t.log.violKind = 3 ∧ t.out = .errorCompletion a :: s.out ∧ t = { s with log := t.log, out := t.out }) ∧
    (∀ a : BitVec 64, a.toNat % 4 = 0 → same (exec (.completerAbortRead a 4) s)) ∧
    (∀ first last : BitVec 16, (commitRange first.toNat last.toNat).isEmpty = true → Next (exec (.globalCommit first last) s) fun t =>
      t.sta .global GLOBAL.no_group = 1 ∧ t.regs.waiting = [] ∧ t.regs.cfg = s.regs.cfg ∧ t.regs.act = s.regs.act ∧ t.regs.pend = s.regs.pend ∧ t = { s with regs := t.regs }) ∧
    (∀ first last : BitVec 16, (commitRange first.toNat last.toNat).isEmpty = false → exec (.globalCommit first last) s =
      .next ((commitRange first.toNat last.toNat).foldl State.globalGroup
        (State.setSta { s with regs := { s.regs with waiting := [] } } .global GLOBAL.last_first first.toNat))) ∧
    (∀ (i : Iface) (v : BitVec 32), s.answers .power = true → exec (.registerWrite i 0x10000 v) s = exec (.domainWrite i false v) s ∧
      exec (.registerWrite i 0x10004 v) s = exec (.domainWrite i true v) s) ∧
    (∀ (i : Iface) (v : BitVec 32), exec (.registerWrite i 0x20014 v) s = exec (.timebaseOffsetWrite i true v) s ∧
      exec (.registerWrite i 8 v) s = exec (.globalCommit (v.extractLsb' 0 16) (v.extractLsb' 16 16)) s) ∧
    (∀ (i : Iface) (a : BitVec 26) (v : BitVec 32), s.spanAnswers (a.toNat / 4 * 4) = false → exec (.registerWrite i a v) s = .next (s.writeError i 7 (a.toNat / 4 * 4))) ∧
    (∀ (i : Iface) (v : BitVec 32), s.answers .mgmt = true → Next (exec (.registerWrite i 0x31000 v) s) fun t =>
      t.mgmt = { s.mgmt with mbox := { s.mgmt.mbox with request := putWord s.mgmt.mbox.request 0 v.toNat } } ∧ t = { s with mgmt := t.mgmt }) ∧
    (∀ (target : Fin 2) bytes host, s.nv.programming = some (target, bytes, host) → s.power.powerFail = false → Next (exec (.nvProgramDone true) s) fun t =>
      t.nv = { s.nv with programming := none, copies := s.nv.copies.set target.val bytes, inForce := some target, gen := (s.nv.gen + 1) % 2 ^ 64,
                         hostCopy := if host then some target else s.nv.hostCopy } ∧
        t.log.next = s.log.next + 1 ∧ t = { s with nv := t.nv, log := t.log }) ∧
    (∀ ok (target : Fin 2) bytes host, s.nv.programming = some (target, bytes, host) → ok = false ∨ s.power.powerFail = true → Next (exec (.nvProgramDone ok) s) fun t =>
      t.nv = { s.nv with programming := none, dueOwned := s.nv.dueOwned || !host } ∧ t.log.next = s.log.next + 1 ∧ t = { s with nv := t.nv, log := t.log }) ∧
    (∀ ok, s.nv.programming = none → same (exec (.nvProgramDone ok) s)) ∧
    (s.mayWriteOwned = true → Next (exec .moduleImageWrite s) fun t => t.nv.programming.isSome = true ∧ t.nv.dueOwned = false ∧
      t.nv.lastOwned = some s.time.localNs ∧ t.nv.copies = s.nv.copies.set s.ownedTarget.val (eraseHeader s.nv.copies[s.ownedTarget.val]) ∧ t = { s with nv := t.nv }) ∧
    (s.mayWriteOwned = false → same (exec .moduleImageWrite s)) ∧
    (s.nv.hold.isSome = true → s.nv.holdAt + 10000000000 ≤ s.time.localNs → Next (exec .nvWriteHoldTimeout s) fun t => t = { s with nv := gone s.nv }) ∧
    (s.nv.hold = none ∨ s.time.localNs < s.nv.holdAt + 10000000000 → same (exec .nvWriteHoldTimeout s)) ∧
    (s.power.powerFail = true ∨ s.nv.noFlash = true → same (exec .meterSnapshot s)) ∧
    (∀ n k l, s.power.powerFail = false → s.nv.noFlash = false → s.meter.snap = some (n, k, l) → Next (exec .meterSnapshot s) fun t =>
      t.meter.snap = some (n + 1, s.now, t.meter.counters) ∧ t = { s with meter := t.meter })

/-- The command at the front leaves the queue and acts on everything else. On an empty queue the block idles for one period of its reference (R455: the local count advances 40 ns; that a step idles for one period is the model's choice, log entry 3), and only the timebase moves; without a slew the offset stays. -/
def Obligations.StepServesTheQueueInOrder : Prop :=
  (∀ (c : Instr) (rest : List Instr) (s : State), step { s with pending := c :: rest } = exec c { s with pending := rest }) ∧
    (∀ s : State, s.pending = [] → Next (step s) fun t => t.time.localNs = s.time.localNs + 40 ∧ t = { s with time := t.time }) ∧
    (∀ s : State, s.pending = [] → s.time.slew = 0 → s.time.slewFrac = 0 → Next (step s) fun t => t.time.offset = s.time.offset)

/-- R6 and R526: at reset every field of every register reads its Bare value, as a shadow, as a committed value and as a status. Every switched domain is off, and so are engines, focus and tracking sequencers, drives, axes and chain ports; the log, the queue and the DRAM contents are empty. The reset state is legal. Bare is the register tables' value; a value that no rule gives is the model's (log entries 2 and 4). -/
def Obligations.ResetLeavesEveryFieldBare : Prop :=
  (∀ (b : Blk) (f : Field), State.reset.fld b f = f.bare ∧ State.reset.act b f = f.bare ∧ State.reset.sta b f = f.bare) ∧
    State.reset.Legal ∧ State.reset.pending = [] ∧ State.reset.log.entries = [] ∧ State.reset.dram = [] ∧ State.reset.cmds = [] ∧
    State.reset.mgmt.started = false ∧ State.reset.minimal = false ∧ (∀ d < 20, State.reset.pdOn d = false) ∧
    (∀ g, State.reset.focState g = .off ∧ State.reset.trkState g = .off ∧ ∀ l : Fin 6, (State.reset.heads[g.val].loops[l.val]).st = .off) ∧
    (∀ b, (State.reset.spindle b).st = .off) ∧ (∀ a, (State.reset.axis a).st = .off) ∧ (∀ k, (State.reset.port k).st = .down)

/-- State.Legal says that the module is not in full and minimal mode at once (R309, R482), that the event log holds at most 16,384 entries (R23, R492), and that the list of DRAM bytes is strictly rising with no entry of the value that an unlisted byte reads. Whatever the state and the command, from a legal state the step answers a next state, and that state is legal. -/
def Obligations.EveryStepKeepsTheModuleLegal : Prop := ∀ s : State, s.Legal → Next (step s) State.Legal

/-- No command stops the module: a command whose premise does not hold leaves the state as the spec's condition tables give, and every value that the spec leaves open is a free value. The commands that wait are touched by the step alone. -/
def Obligations.EveryCommandAnswersAndKeepsTheQueue : Prop := ∀ (i : Instr) (s : State), Next (exec i s) fun t => t.pending = s.pending

/-- R481 to R483, R458 and R526 name what starts, restarts and resets the module. Every other command, a register write of any word among them, keeps GLOBAL.START's mode, the start step reached, the local count (R455: it never jumps) and the latched REFSEL strap (R454). -/
def Obligations.OnlyStartsAndResetsChangeTheMode : Prop :=
  ∀ (i : Instr) (s : State), (∀ x, i ≠ .coldStart x) → (∀ x, i ≠ .warmStart x) → (∀ x, i ≠ .referenceRestored x) → (∀ p x, i ≠ .restart p x) →
    i ≠ .startTimeout → i ≠ .rstNAssert → Next (exec i s) fun t =>
      t.minimal = s.minimal ∧ t.mgmt.started = s.mgmt.started ∧ t.mgmt.startStep = s.mgmt.startStep ∧ t.time.localNs = s.time.localNs ∧ t.time.refsel = s.time.refsel
end

