-- ==== Sys2Proof/Laws/Keep.lean ====
section
/-! SUPPORT. What no command but a start changes: the relation that every operation outside the start-up keeps, and its general lemmas. -/

namespace Sys2Proof.Machine
set_option Elab.async false

/-- From s to t, what only a start, the queue or time changes is as it was, and the log's bound and the DRAM's canonical form are kept. -/
@[reducible] def Keep (s t : State) : Prop :=
  t.pending = s.pending ∧ t.minimal = s.minimal ∧ t.mgmt.started = s.mgmt.started ∧ t.mgmt.startStep = s.mgmt.startStep ∧
    t.time.localNs = s.time.localNs ∧ t.time.refsel = s.time.refsel ∧ (logBounded s.log.entries → logBounded t.log.entries) ∧
    (Memory.wf s.dram = true → Memory.wf t.dram = true)

/-- The command answers a next state that keeps as much. -/
def KeepNext (s : State) (o : Host.Outcome State Fault Refusal) : Prop := ∃ t, o = .next t ∧ Keep s t

theorem Keep.refl (s : State) : Keep s s := by simp [Keep]

theorem Keep.trans {s t u : State} (h : Keep s t) (k : Keep t u) : Keep s u := by
  obtain ⟨h1, h2, h3, h4, h5, h6, h7, h8⟩ := h
  obtain ⟨k1, k2, k3, k4, k5, k6, k7, k8⟩ := k
  exact ⟨k1.trans h1, k2.trans h2, k3.trans h3, k4.trans h4, k5.trans h5, k6.trans h6, fun x => k7 (h7 x), fun x => k8 (h8 x)⟩

@[simp] theorem keepNext_next (s t : State) : KeepNext s (.next t) ↔ Keep s t := by
  constructor
  · rintro ⟨u, h, k⟩
    cases h
    exact k
  · intro k
    exact ⟨t, rfl, k⟩

@[simp] theorem foldl_keep {α : Type} (f : State → α → State) (h : ∀ t x, Keep t (f t x)) (l : List α) (s : State) :
    Keep s (l.foldl f s) := by
  induction l generalizing s with
  | nil => exact Keep.refl s
  | cons a l ih => exact (h s a).trans (ih (f s a))

@[simp] theorem ite_keep (c : Prop) [Decidable c] (s t u : State) : Keep s (if c then t else u) ↔ (if c then Keep s t else Keep s u) := by
  split <;> rfl

@[simp] theorem logBounded_take (l : List LogEntry) : logBounded (l.take 16384) := by
  simp [logBounded]

end Sys2Proof.Machine
end

