-- ==== Sys2Proof/Laws/KeepOps.lean ====
section
/-! SUPPORT. What the operations and meanings of Sys2Proof/Machine/Ops.lean leave as it was. -/

namespace Sys2Proof.Machine
set_option Elab.async false

@[simp] theorem State.modHead_keep (s : State) (g : HeadId) (f : Head → Head) : Keep s (State.modHead s g f) := by
  simp only [State.modHead]
  (repeat' split) <;> simp +contextual (maxDischargeDepth := 60) [Keep]

@[simp] theorem State.modBay_keep (s : State) (b : BayId) (f : Bay → Bay) : Keep s (State.modBay s b f) := by
  simp only [State.modBay]
  (repeat' split) <;> simp +contextual (maxDischargeDepth := 60) [Keep]

@[simp] theorem State.modSled_keep (s : State) (g : HeadId) (f : Axis → Axis) : Keep s (State.modSled s g f) := by
  simp only [State.modSled]
  (repeat' split) <;> simp +contextual (maxDischargeDepth := 60) [Keep]

@[simp] theorem State.modSa_keep (s : State) (g : HeadId) (f : Axis → Axis) : Keep s (State.modSa s g f) := by
  simp only [State.modSa]
  (repeat' split) <;> simp +contextual (maxDischargeDepth := 60) [Keep]

@[simp] theorem State.modTrans_keep (s : State) (n : Fin 4) (f : Transport → Transport) : Keep s (State.modTrans s n f) := by
  simp only [State.modTrans]
  (repeat' split) <;> simp +contextual (maxDischargeDepth := 60) [Keep]

@[simp] theorem State.modEnc_keep (s : State) (i : Fin 2) (f : Encoder → Encoder) : Keep s (State.modEnc s i f) := by
  simp only [State.modEnc]
  (repeat' split) <;> simp +contextual (maxDischargeDepth := 60) [Keep]

@[simp] theorem State.modBeam_keep (s : State) (g : HeadId) (k : BeamId) (f : Beam → Beam) : Keep s (State.modBeam s g k f) := by
  simp only [State.modBeam]
  (repeat' split) <;> simp +contextual (maxDischargeDepth := 60) [Keep]

@[simp] theorem State.modWr_keep (s : State) (g : HeadId) (f : WrHead → WrHead) : Keep s (State.modWr s g f) := by
  simp only [State.modWr]
  (repeat' split) <;> simp +contextual (maxDischargeDepth := 60) [Keep]

@[simp] theorem State.modDecoder_keep (s : State) (i : Fin 20) (f : Decoder → Decoder) : Keep s (State.modDecoder s i f) := by
  simp only [State.modDecoder]
  (repeat' split) <;> simp +contextual (maxDischargeDepth := 60) [Keep]

@[simp] theorem State.modMount_keep (s : State) (b : BayId) (f : Mount → Mount) : Keep s (State.modMount s b f) := by
  simp only [State.modMount]
  (repeat' split) <;> simp +contextual (maxDischargeDepth := 60) [Keep]

@[simp] theorem State.modExtent_keep (s : State) (key : Nat) (f : Extent → Extent) : Keep s (State.modExtent s key f) := by
  simp only [State.modExtent]
  (repeat' split) <;> simp +contextual (maxDischargeDepth := 60) [Keep]

@[simp] theorem State.modCw_keep (s : State) (id : Nat) (f : Codeword → Codeword) : Keep s (State.modCw s id f) := by
  simp only [State.modCw]
  (repeat' split) <;> simp +contextual (maxDischargeDepth := 60) [Keep]

@[simp] theorem State.modLoop_keep (s : State) (g : HeadId) (l : Fin 6) (f : LoopSt → LoopSt) : Keep s (State.modLoop s g l f) := by
  simp only [State.modLoop]
  (repeat' split) <;> simp +contextual (maxDischargeDepth := 60) [Keep]

@[simp] theorem State.modLane_keep (s : State) (g : HeadId) (k : BeamId) (f : Lane → Lane) : Keep s (State.modLane s g k f) := by
  simp only [State.modLane]
  (repeat' split) <;> simp +contextual (maxDischargeDepth := 60) [Keep]

@[simp] theorem State.modRunout_keep (s : State) (g : HeadId) (l : Fin 3) (f : Runout → Runout) : Keep s (State.modRunout s g l f) := by
  simp only [State.modRunout]
  (repeat' split) <;> simp +contextual (maxDischargeDepth := 60) [Keep]

@[simp] theorem State.modFoc_keep (s : State) (g : HeadId) (f : FocSt → FocSt) : Keep s (State.modFoc s g f) := by
  simp only [State.modFoc]
  (repeat' split) <;> simp +contextual (maxDischargeDepth := 60) [Keep]

@[simp] theorem State.modTrk_keep (s : State) (g : HeadId) (f : TrkSt → TrkSt) : Keep s (State.modTrk s g f) := by
  simp only [State.modTrk]
  (repeat' split) <;> simp +contextual (maxDischargeDepth := 60) [Keep]

@[simp] theorem State.modSpindle_keep (s : State) (b : BayId) (f : Spindle → Spindle) : Keep s (State.modSpindle s b f) := by
  simp only [State.modSpindle]
  (repeat' split) <;> simp +contextual (maxDischargeDepth := 60) [Keep]

@[simp] theorem State.modAxis_keep (s : State) (a : AxisId) (f : Axis → Axis) : Keep s (State.modAxis s a f) := by
  simp only [State.modAxis]
  (repeat' split) <;> simp +contextual (maxDischargeDepth := 60) [Keep]

@[simp] theorem State.setFld_keep (s : State) (b : Blk) (f : Field) (v : Nat) : Keep s (State.setFld s b f v) := by
  simp only [State.setFld]
  (repeat' split) <;> simp +contextual (maxDischargeDepth := 60) [Keep]

@[simp] theorem State.setAct_keep (s : State) (b : Blk) (f : Field) (v : Nat) : Keep s (State.setAct s b f v) := by
  simp only [State.setAct]
  (repeat' split) <;> simp +contextual (maxDischargeDepth := 60) [Keep]

@[simp] theorem State.setSta_keep (s : State) (b : Blk) (f : Field) (v : Nat) : Keep s (State.setSta s b f v) := by
  simp only [State.setSta]
  (repeat' split) <;> simp +contextual (maxDischargeDepth := 60) [Keep]

@[simp] theorem State.orSta_keep (s : State) (b : Blk) (f : Field) (m : Nat) : Keep s (State.orSta s b f m) := by
  simp only [State.orSta]
  (repeat' split) <;> simp +contextual (maxDischargeDepth := 60) [Keep]

@[simp] theorem State.flag_keep (s : State) (b : Blk) (f : Field) : Keep s (State.flag s b f) := by
  simp only [State.flag]
  (repeat' split) <;> simp +contextual (maxDischargeDepth := 60) [Keep]

@[simp] theorem State.addSat_keep (s : State) (b : Blk) (f : Field) (n : Nat) : Keep s (State.addSat s b f n) := by
  simp only [State.addSat]
  (repeat' split) <;> simp +contextual (maxDischargeDepth := 60) [Keep]

@[simp] theorem State.incSat_keep (s : State) (b : Blk) (f : Field) : Keep s (State.incSat s b f) := by
  simp only [State.incSat]
  (repeat' split) <;> simp +contextual (maxDischargeDepth := 60) [Keep]

@[simp] theorem State.logWith_keep (s : State) (src : BitVec 16) (e : Ev) (data : List Nat) (vec0 : Bool) : Keep s (State.logWith s src e data vec0) := ⟨rfl, rfl, rfl, rfl, rfl, rfl, fun _ => logBounded_take _, id⟩

@[simp] theorem State.logEv_keep (s : State) (src : BitVec 16) (e : Ev) (data : List Nat) : Keep s (State.logEv s src e data) := by
  simp only [State.logEv]
  (repeat' split) <;> simp +contextual (maxDischargeDepth := 60) [Keep]

@[simp] theorem State.setMsix_keep (s : State) (f : FuncId) (v : Nat) (e : MsixEntry) : Keep s (State.setMsix s f v e) := by
  simp only [State.setMsix]
  (repeat' split) <;> simp +contextual (maxDischargeDepth := 60) [Keep]

@[simp] theorem State.emit_keep (s : State) (o : Output) : Keep s (State.emit s o) := by
  simp only [State.emit]
  (repeat' split) <;> simp +contextual (maxDischargeDepth := 60) [Keep]

@[simp] theorem State.fireVector_keep (s : State) (f : FuncId) (v : Nat) : Keep s (State.fireVector s f v) := by
  simp only [State.fireVector]
  (repeat' split) <;> simp +contextual (maxDischargeDepth := 60) [Keep]

@[simp] theorem State.mgmtEvent_keep (s : State) (bit : Nat) : Keep s (State.mgmtEvent s bit) := by
  simp only [State.mgmtEvent]
  (repeat' split) <;> simp +contextual (maxDischargeDepth := 60) [Keep]

@[simp] theorem State.logVec_keep (s : State) (src : BitVec 16) (e : Ev) (data : List Nat) (bit : Nat) : Keep s (State.logVec s src e data bit) := by
  simp only [State.logVec]
  (repeat' split) <;> simp +contextual (maxDischargeDepth := 60) [Keep]

@[simp] theorem State.violation_keep (s : State) (src : BitVec 16) (kind addr : Nat) : Keep s (State.violation s src kind addr) := by
  simp only [State.violation]
  (repeat' split) <;> simp +contextual (maxDischargeDepth := 60) [Keep]

@[simp] theorem State.resError_keep (s : State) (src : BitVec 16) : Keep s (State.resError s src).2 := by
  simp only [State.resError]
  (repeat' split) <;> simp +contextual (maxDischargeDepth := 60) [Keep]

@[simp] theorem State.testOutcome_keep (s : State) (src : BitVec 16) (pass : Bool) : Keep s (State.testOutcome s src pass) := by
  cases pass <;> by_cases h : (Tab.get (⟨none, 0⟩ : ResHist) s.resHist src.toNat).firstPass = none <;>
    simp +contextual (maxDischargeDepth := 60) [State.testOutcome, h, Keep]

@[simp] theorem State.errTest_keep (s : State) (src : BitVec 16) : Keep s (State.errTest s src).2 := by
  simp only [State.errTest]
  (repeat' split) <;> simp +contextual (maxDischargeDepth := 60) [Keep]

@[simp] theorem State.absent_keep (s : State) (b : Blk) (off : Nat) : Keep s (State.absent s b off) := by
  simp only [State.absent]
  (repeat' split) <;> simp +contextual (maxDischargeDepth := 60) [Keep]

@[simp] theorem State.setPending_keep (s : State) (tag : Nat) : Keep s (State.setPending s tag) := by
  simp only [State.setPending]
  (repeat' split) <;> simp +contextual (maxDischargeDepth := 60) [Keep]

@[simp] theorem State.adoptPart_keep (s : State) (tag : Nat) (pick : Field → Bool) (last : Bool) : Keep s (State.adoptPart s tag pick last) := by
  simp only [State.adoptPart]
  (repeat' split) <;> simp +contextual (maxDischargeDepth := 60) [Keep]

@[simp] theorem State.adopt_keep (s : State) (tag : Nat) : Keep s (State.adopt s tag) := by
  simp only [State.adopt]
  (repeat' split) <;> simp +contextual (maxDischargeDepth := 60) [Keep]

@[simp] theorem State.commitWith_keep (s : State) (tag : Nat) (ok : Bool) (src : BitVec 16) (err : Option (Blk × Field)) : Keep s (State.commitWith s tag ok src err) := by
  simp only [State.commitWith]
  (repeat' split) <;> simp +contextual (maxDischargeDepth := 60) [Keep]

@[simp] theorem State.draw_keep (s : State) : Keep s (State.draw s).2 := by
  simp only [State.draw]
  (repeat' split) <;> simp +contextual (maxDischargeDepth := 60) [Keep]

end Sys2Proof.Machine
end

