-- ==== Sys2Proof/Laws/Memory.lean ====
section
/-! SUPPORT. The DRAM's canonical form and its reads after writes: every memory operation keeps the form, a byte written reads back, and every
other byte is as it was. -/

namespace Sys2Proof.Machine
set_option Elab.async false

/-! ### The canonical form -/

/-- The form says that addresses rise strictly, that none lies below the bound, and that no cell holds 0. -/
theorem memWf_iff (lo : Nat) (m : List Host.Cell) :
    memWf lo m = true ↔ m.Pairwise (fun x y => x.1 < y.1) ∧ ∀ x ∈ m, lo ≤ x.1 ∧ x.2 ≠ 0 := by
  induction m generalizing lo with
  | nil => simp [memWf]
  | cons c r ih =>
    obtain ⟨k, v⟩ := c
    simp only [memWf, Bool.and_eq_true, decide_eq_true_eq, bne_iff_ne, ne_eq, ih, List.pairwise_cons, List.mem_cons, forall_eq_or_imp]
    constructor
    · rintro ⟨⟨h1, h2⟩, h3, h4⟩
      exact ⟨⟨fun x hx => (h4 x hx).1, h3⟩, ⟨h1, h2⟩, fun x hx => ⟨by have := (h4 x hx).1; omega, (h4 x hx).2⟩⟩
    · rintro ⟨⟨h1, h2⟩, ⟨h3, h4⟩, h5⟩
      exact ⟨⟨h3, h4⟩, h2, fun x hx => ⟨h1 x hx, (h5 x hx).2⟩⟩

/-- Dropping cells keeps the form. -/
theorem wf_filter (p : Host.Cell → Bool) {m : List Host.Cell} (h : Memory.wf m = true) : Memory.wf (m.filter p) = true := by
  unfold Memory.wf at *
  rw [memWf_iff] at *
  exact ⟨h.1.filter p, fun x hx => h.2 x (List.mem_filter.mp hx).1⟩

theorem mem_memCells {a : Nat} {l : List Byte} {x : Host.Cell} (h : x ∈ memCells a l) : a ≤ x.1 ∧ x.1 < a + l.length ∧ x.2 ≠ 0 := by
  induction l generalizing a with
  | nil => simp [memCells] at h
  | cons b r ih =>
    simp only [memCells] at h
    split at h
    · obtain ⟨h1, h2, h3⟩ := ih h
      simp only [List.length_cons]
      exact ⟨by omega, by omega, h3⟩
    · rename_i hb
      rcases List.mem_cons.mp h with h | h
      · subst h
        simp only [List.length_cons]
        exact ⟨le_refl _, by omega, hb⟩
      · obtain ⟨h1, h2, h3⟩ := ih h
        simp only [List.length_cons]
        exact ⟨by omega, by omega, h3⟩

theorem memCells_rising (a : Nat) (l : List Byte) : (memCells a l).Pairwise (fun x y => x.1 < y.1) := by
  induction l generalizing a with
  | nil => exact List.Pairwise.nil
  | cons b r ih =>
    simp only [memCells]
    split
    · exact ih _
    · exact List.Pairwise.cons (fun x hx => by have := (mem_memCells hx).1; exact this) (ih _)

/-- A write keeps the form. -/
theorem wf_memWrite (a : Nat) (l : List Byte) {m : List Host.Cell} (h : Memory.wf m = true) : Memory.wf (memWrite m a l) = true := by
  unfold Memory.wf at *
  rw [memWf_iff] at *
  obtain ⟨h1, h2⟩ := h
  constructor
  · rw [memWrite, List.pairwise_append, List.pairwise_append]
    refine ⟨h1.filter _, ⟨memCells_rising a l, h1.filter _, ?_⟩, ?_⟩
    · intro x hx y hy
      have := mem_memCells hx
      have hy := (List.mem_filter.mp hy).2
      simp only [decide_eq_true_eq] at hy
      omega
    · intro x hx y hy
      have hx := (List.mem_filter.mp hx).2
      simp only [decide_eq_true_eq] at hx
      rcases List.mem_append.mp hy with hy | hy
      · have := (mem_memCells hy).1
        omega
      · have hy := (List.mem_filter.mp hy).2
        simp only [decide_eq_true_eq] at hy
        omega
  · intro x hx
    rcases List.mem_append.mp hx with hx | hx
    · exact h2 x (List.mem_filter.mp hx).1
    · rcases List.mem_append.mp hx with hx | hx
      · exact ⟨Nat.zero_le _, (mem_memCells hx).2.2⟩
      · exact h2 x (List.mem_filter.mp hx).1

/-! ### Reads after writes -/

theorem memRead_filter (p : Nat → Bool) (m : List Host.Cell) (x : Nat) :
    memRead (m.filter (fun c => p c.1)) x = if p x then memRead m x else 0 := by
  induction m with
  | nil => simp [memRead]
  | cons c r ih =>
    obtain ⟨k, v⟩ := c
    by_cases hk : k = x
    · subst hk
      by_cases hp : p k = true <;> simp [hp, memRead, ih]
    · by_cases hp : p k = true <;> simp [hp, memRead, ih, hk]

theorem memRead_append_miss {m n : List Host.Cell} {x : Nat} (h : ∀ c ∈ m, c.1 ≠ x) : memRead (m ++ n) x = memRead n x := by
  induction m with
  | nil => rfl
  | cons c r ih =>
    obtain ⟨k, v⟩ := c
    have hk : k ≠ x := h (k, v) (List.mem_cons_self ..)
    simp [memRead, hk, ih (fun c hc => h c (List.mem_cons_of_mem _ hc))]

theorem memRead_append_none {m n : List Host.Cell} {x : Nat} (h : ∀ c ∈ n, c.1 ≠ x) : memRead (m ++ n) x = memRead m x := by
  induction m with
  | nil =>
    induction n with
    | nil => rfl
    | cons c r ih =>
      obtain ⟨k, v⟩ := c
      have hk : k ≠ x := h (k, v) (List.mem_cons_self ..)
      simpa [memRead, hk] using ih (fun c hc => h c (List.mem_cons_of_mem _ hc))
  | cons c r ih =>
    obtain ⟨k, v⟩ := c
    by_cases hk : k = x <;> simp [memRead, hk, ih]

theorem memRead_memCells (a : Nat) (l : List Byte) (i : Nat) (h : i < l.length) : memRead (memCells a l) (a + i) = l[i] := by
  induction l generalizing a i with
  | nil => simp at h
  | cons b r ih =>
    simp only [memCells]
    cases i with
    | zero =>
      split
      · rename_i hb
        rw [← List.append_nil (memCells (a + 1) r), memRead_append_miss]
        · simp [memRead, hb]
        · intro c hc
          have := (mem_memCells hc).1
          omega
      · simp [memRead]
    | succ j =>
      have e : a + (j + 1) = a + 1 + j := by omega
      have hj : j < r.length := by simpa using h
      split
      · rw [e, ih (a + 1) j hj]
        simp
      · have hk : ¬ a = a + 1 + j := by omega
        simp only [memRead, e, hk, if_false, ih (a + 1) j hj]
        simp

/-- A byte written reads back. -/
theorem memRead_memWrite_hit (m : List Host.Cell) (a : Nat) (l : List Byte) (i : Nat) (h : i < l.length) :
    memRead (memWrite m a l) (a + i) = l[i] := by
  rw [memWrite, memRead_append_miss, memRead_append_none, memRead_memCells a l i h]
  · intro c hc
    have hc := (List.mem_filter.mp hc).2
    simp only [decide_eq_true_eq] at hc
    omega
  · intro c hc
    have hc := (List.mem_filter.mp hc).2
    simp only [decide_eq_true_eq] at hc
    omega

/-- Every byte outside a write is as it was. -/
theorem memRead_memWrite_miss (m : List Host.Cell) (a : Nat) (l : List Byte) (x : Nat) (h : x < a ∨ a + l.length ≤ x) :
    memRead (memWrite m a l) x = memRead m x := by
  rcases h with h | h
  · rw [memWrite, memRead_append_none, memRead_filter (fun k => decide (k < a))]
    · simp [h]
    · intro c hc
      rcases List.mem_append.mp hc with hc | hc
      · have := (mem_memCells hc).1
        omega
      · have hc := (List.mem_filter.mp hc).2
        simp only [decide_eq_true_eq] at hc
        omega
  · rw [memWrite, memRead_append_miss, memRead_append_miss, memRead_filter (fun k => decide (a + l.length ≤ k))]
    · simp [h]
    · intro c hc
      have := (mem_memCells hc).2.1
      omega
    · intro c hc
      have hc := (List.mem_filter.mp hc).2
      simp only [decide_eq_true_eq] at hc
      omega

end Sys2Proof.Machine
end

