-- ==== Sys2Proof/Laws/KeepMemOps.lean ====
section
/-! SUPPORT. What the operations and meanings of Sys2Proof/Machine/MemOps.lean leave as it was. -/

namespace Sys2Proof.Machine
set_option Elab.async false

@[simp] theorem State.modDram_keep (s : State) (c : DramChan) (f : DramCh → DramCh) : Keep s (State.modDram s c f) := by
  simp only [State.modDram]
  (repeat' split) <;> simp +contextual (maxDischargeDepth := 60) [Keep]

@[simp] theorem State.dramWrite_keep (s : State) (a : Nat) (l : List Byte) : Keep s (State.dramWrite s a l) := ⟨rfl, rfl, rfl, rfl, rfl, rfl, id, fun h => wf_memWrite a l h⟩

@[simp] theorem State.chanWrite_keep (s : State) (a : Nat) (l : List Byte) : Keep s (State.chanWrite s a l) := by
  simp only [State.chanWrite]
  (repeat' split) <;> simp +contextual (maxDischargeDepth := 60) [Keep]

@[simp] theorem State.store_keep (s : State) (a : Nat) (l : List Byte) : Keep s (State.store s a l) := by
  simp only [State.store]
  (repeat' split) <;> simp +contextual (maxDischargeDepth := 60) [Keep]

end Sys2Proof.Machine
end

