-- ==== Sys2Proof/Laws/KeepBufOps.lean ====
section
/-! SUPPORT. What the operations and meanings of Sys2Proof/Machine/BufOps.lean leave as it was. -/

namespace Sys2Proof.Machine
set_option Elab.async false

@[simp] theorem State.charge_keep (s : State) (r n : Nat) : Keep s (State.charge s r n) := by
  simp only [State.charge]
  (repeat' split) <;> simp +contextual (maxDischargeDepth := 60) [Keep]

@[simp] theorem State.uncharge_keep (s : State) (r n : Nat) : Keep s (State.uncharge s r n) := by
  simp only [State.uncharge]
  (repeat' split) <;> simp +contextual (maxDischargeDepth := 60) [Keep]

@[simp] theorem State.modCmd_keep (s : State) (id : Nat) (f : Cmd → Cmd) : Keep s (State.modCmd s id f) := by
  simp only [State.modCmd]
  (repeat' split) <;> simp +contextual (maxDischargeDepth := 60) [Keep]

@[simp] theorem State.takeBuf_keep (s : State) (p : Fin 16) (c : Cmd) : Keep s (State.takeBuf s p c) := by
  simp only [State.takeBuf]
  (repeat' split) <;> simp +contextual (maxDischargeDepth := 60) [Keep]

@[simp] theorem State.waitPool_keep (s : State) (p : Fin 16) (c : Cmd) : Keep s (State.waitPool s p c) := by
  simp only [State.waitPool]
  (repeat' split) <;> simp +contextual (maxDischargeDepth := 60) [Keep]

@[simp] theorem State.messageIn_keep (s : State) (id : Nat) : Keep s (State.messageIn s id) := by
  simp only [State.messageIn]
  split
  · exact (foldl_keep _ (fun t p => State.store_keep ..) _ s).trans (State.modCmd_keep ..)
  · exact Keep.refl s

@[simp] theorem State.takeParts_keep (s : State) (id : Nat) (z0 : List (Fin 16)) : Keep s (State.takeParts s id z0) := by
  induction z0 generalizing s with
  | nil => exact (State.modCmd_keep ..).trans (State.messageIn_keep ..)
  | cons p r ih =>
    simp only [State.takeParts]
    (repeat' split) <;> first | exact Keep.refl s | exact State.waitPool_keep .. | exact (State.takeBuf_keep ..).trans (ih _)

@[simp] theorem State.beginAlloc_keep (s : State) (id : Nat) : Keep s (State.beginAlloc s id) := by
  simp only [State.beginAlloc]
  (repeat' split) <;> simp +contextual (maxDischargeDepth := 60) [Keep]

@[simp] theorem State.retryQuota_keep (s : State) (r : Nat) : Keep s (State.retryQuota s r) := by
  simp only [State.retryQuota]
  (repeat' split) <;> simp +contextual (maxDischargeDepth := 60) [Keep]

@[simp] theorem State.retryPool_keep (s : State) (p : Fin 16) : Keep s (State.retryPool s p) := by
  simp only [State.retryPool]
  (repeat' split) <;> simp +contextual (maxDischargeDepth := 60) [Keep]

@[simp] theorem State.retryAll_keep (s : State) (p : Fin 16) (z0 : Nat) : Keep s (State.retryAll s p z0) := by
  induction z0 generalizing s with
  | zero => exact Keep.refl s
  | succ n ih => exact (State.retryPool_keep ..).trans (ih _)

@[simp] theorem State.freeBuf_keep (s : State) (b : Buf) : Keep s (State.freeBuf s b) := by
  simp only [State.freeBuf]
  (repeat' split) <;> simp +contextual (maxDischargeDepth := 60) [Keep]

@[simp] theorem State.releaseBuf_keep (s : State) (ref : BufRef) (o : Owner) : ∀ t, State.releaseBuf s ref o = some t → Keep s t := by
  simp only [State.releaseBuf]
  (repeat' split) <;> simp +contextual (maxDischargeDepth := 60) [Keep]

@[simp] theorem State.dropBuf_keep (id : Nat) (s : State) (ref : BufRef) : Keep s (State.dropBuf id s ref) := by
  simp only [State.dropBuf]
  (repeat' split) <;> simp +contextual (maxDischargeDepth := 60) [Keep]

@[simp] theorem State.dropBufs_keep (s : State) (id : Nat) : Keep s (State.dropBufs s id) := by
  simp only [State.dropBufs]
  (repeat' split) <;> simp +contextual (maxDischargeDepth := 60) [Keep]

@[simp] theorem State.releaseViolation_keep (s : State) (addr : Nat) : Keep s (State.releaseViolation s addr) := by
  simp only [State.releaseViolation]
  (repeat' split) <;> simp +contextual (maxDischargeDepth := 60) [Keep]

end Sys2Proof.Machine
end

