-- ==== Sys2Proof/Laws/KeepChainOps.lean ====
section
/-! SUPPORT. What the operations and meanings of Sys2Proof/Machine/ChainOps.lean leave as it was. -/

namespace Sys2Proof.Machine
set_option Elab.async false

@[simp] theorem State.modPort_keep (s : State) (i : Fin 2) (f : PortSt → PortSt) : Keep s (State.modPort s i f) := by
  simp only [State.modPort]
  (repeat' split) <;> simp +contextual (maxDischargeDepth := 60) [Keep]

@[simp] theorem State.modChain_keep (s : State) (f : Chain → Chain) : Keep s (State.modChain s f) := by
  simp only [State.modChain]
  (repeat' split) <;> simp +contextual (maxDischargeDepth := 60) [Keep]

@[simp] theorem State.sendOn_keep (s : State) (i : Fin 2) (p : Packet) : Keep s (State.sendOn s i p) := by
  simp only [State.sendOn]
  (repeat' split) <;> simp +contextual (maxDischargeDepth := 60) [Keep]

@[simp] theorem State.sendTo_keep (s : State) (p : Packet) : Keep s (State.sendTo s p).2 := by
  simp only [State.sendTo]
  (repeat' split) <;> simp +contextual (maxDischargeDepth := 60) [Keep]

@[simp] theorem State.sendBoth_keep (s : State) (p : Packet) : Keep s (State.sendBoth s p) := by
  simp only [State.sendBoth]
  (repeat' split) <;> simp +contextual (maxDischargeDepth := 60) [Keep]

@[simp] theorem State.sendMirrorDone_keep (s : State) (origin num slot status : Nat) : Keep s (State.sendMirrorDone s origin num slot status) := by
  simp only [State.sendMirrorDone]
  (repeat' split) <;> simp +contextual (maxDischargeDepth := 60) [Keep]

end Sys2Proof.Machine
end

