-- ==== Sys2Proof/Laws/KeepCmdOps.lean ====
section
/-! SUPPORT. What the operations and meanings of Sys2Proof/Machine/CmdOps.lean leave as it was. -/

namespace Sys2Proof.Machine
set_option Elab.async false

@[simp] theorem State.meterAdd_keep (s : State) (f : Nat) (i : Fin 5) (n : Nat) : Keep s (State.meterAdd s f i n) := by
  simp only [State.meterAdd]
  (repeat' split) <;> simp +contextual (maxDischargeDepth := 60) [Keep]

@[simp] theorem State.accrueMounted_keep (s : State) : Keep s (State.accrueMounted s) := by
  simp only [State.accrueMounted]
  split
  · exact Keep.refl s
  · refine Keep.trans (by simp [Keep]) (foldl_keep _ (fun t b => ?_) _ _)
    (repeat' split) <;> first | exact Keep.refl t | exact foldl_keep _ (fun u f => State.meterAdd_keep ..) _ _

@[simp] theorem State.leaveWrite_keep (s : State) (w : Cmd) : Keep s (State.leaveWrite s w) := by
  simp only [State.leaveWrite]
  (repeat' split) <;> simp +contextual (maxDischargeDepth := 60) [Keep]

@[simp] theorem State.letGo_keep (s : State) (id : Nat) : Keep s (State.letGo s id) := by
  simp only [State.letGo]
  (repeat' split) <;> simp +contextual (maxDischargeDepth := 60) [Keep]

@[simp] theorem State.dropCmd_keep (s : State) (id : Nat) : Keep s (State.dropCmd s id) := by
  simp only [State.dropCmd]
  (repeat' split) <;> simp +contextual (maxDischargeDepth := 60) [Keep]

@[simp] theorem State.peerDone_keep (s : State) (c : Cmd) (status : Nat) : Keep s (State.peerDone s c status) := by
  simp only [State.peerDone]
  (repeat' split) <;> simp +contextual (maxDischargeDepth := 60) [Keep]

@[simp] theorem State.fenceEnds_keep (s : State) (id : Nat) (c : Cmd) : Keep s (State.fenceEnds s id c) := by
  simp only [State.fenceEnds]
  (repeat' split) <;> simp +contextual (maxDischargeDepth := 60) [Keep]

@[simp] theorem State.finish_keep (s : State) (id status result firstFail : Nat) (logged : Bool) : Keep s (State.finish s id status result firstFail logged) := by
  simp only [State.finish]
  (repeat' split) <;> simp +contextual (maxDischargeDepth := 60) [Keep]

@[simp] theorem State.failCmd_keep (s : State) (id cls code : Nat) : Keep s (State.failCmd s id cls code) := by
  simp only [State.failCmd]
  (repeat' split) <;> simp +contextual (maxDischargeDepth := 60) [Keep]

@[simp] theorem State.settleWrite_keep (s : State) (id : Nat) : Keep s (State.settleWrite s id) := by
  simp only [State.settleWrite]
  (repeat' split) <;> simp +contextual (maxDischargeDepth := 60) [Keep]

@[simp] theorem State.extentOutcome_keep (s : State) (id status block : Nat) : Keep s (State.extentOutcome s id status block) := by
  simp only [State.extentOutcome]
  (repeat' split) <;> simp +contextual (maxDischargeDepth := 60) [Keep]

end Sys2Proof.Machine
end

