-- ==== Sys2Proof/Laws/KeepQueueOps.lean ====
section
/-! SUPPORT. What the operations and meanings of Sys2Proof/Machine/QueueOps.lean leave as it was. -/

namespace Sys2Proof.Machine
set_option Elab.async false

@[simp] theorem State.modFunc_keep (s : State) (f : FuncId) (g : Func → Func) : Keep s (State.modFunc s f g) := by
  simp only [State.modFunc]
  (repeat' split) <;> simp +contextual (maxDischargeDepth := 60) [Keep]

@[simp] theorem State.modSq_keep (s : State) (f : FuncId) (q : Nat) (g : Sq → Sq) : Keep s (State.modSq s f q g) := by
  simp only [State.modSq]
  (repeat' split) <;> simp +contextual (maxDischargeDepth := 60) [Keep]

@[simp] theorem State.modCq_keep (s : State) (f : FuncId) (q : Nat) (g : Cq → Cq) : Keep s (State.modCq s f q g) := by
  simp only [State.modCq]
  (repeat' split) <;> simp +contextual (maxDischargeDepth := 60) [Keep]

@[simp] theorem State.modLine_keep (s : State) (f : FuncId) (sq : Bool) (n : Nat) (g : Line → Line) : Keep s (State.modLine s f sq n g) := by
  simp only [State.modLine]
  (repeat' split) <;> simp +contextual (maxDischargeDepth := 60) [Keep]

@[simp] theorem State.addLine_keep (s : State) (f : FuncId) (sq : Bool) (n : Nat) : Keep s (State.addLine s f sq n) := by
  simp only [State.addLine]
  (repeat' split) <;> simp +contextual (maxDischargeDepth := 60) [Keep]

@[simp] theorem State.dropLine_keep (s : State) (f : FuncId) (sq : Bool) (n : Nat) : Keep s (State.dropLine s f sq n) := by
  simp only [State.dropLine]
  (repeat' split) <;> simp +contextual (maxDischargeDepth := 60) [Keep]

@[simp] theorem State.sqSlot_keep (s : State) (x : Sq) (wake : Bool) : Keep s (State.sqSlot s x wake) := by
  simp only [State.sqSlot]
  (repeat' split) <;> simp +contextual (maxDischargeDepth := 60) [Keep]

@[simp] theorem State.cqSlot_keep (s : State) (x : Cq) (wake : Bool) : Keep s (State.cqSlot s x wake) := by
  simp only [State.cqSlot]
  (repeat' split) <;> simp +contextual (maxDischargeDepth := 60) [Keep]

@[simp] theorem State.wakeLine_keep (s : State) (f : FuncId) (sq : Bool) (n : Nat) (wake : Bool) : Keep s (State.wakeLine s f sq n wake) := by
  simp only [State.wakeLine]
  (repeat' split) <;> simp +contextual (maxDischargeDepth := 60) [Keep]

@[simp] theorem State.readLine_keep (s : State) (f : FuncId) (sq : Bool) (n : Nat) : Keep s (State.readLine s f sq n) := by
  simp only [State.readLine]
  (repeat' split) <;> simp +contextual (maxDischargeDepth := 60) [Keep]

@[simp] theorem State.signal_keep (s : State) (x : Cq) : Keep s (State.signal s x) := by
  simp only [State.signal]
  (repeat' split) <;> simp +contextual (maxDischargeDepth := 60) [Keep]

@[simp] theorem State.writeEntry_keep (s : State) (x : Cq) (e : Entry) : Keep s (State.writeEntry s x e) := by
  simp only [State.writeEntry]
  (repeat' split) <;> simp +contextual (maxDischargeDepth := 60) [Keep]

@[simp] theorem State.discardQueues_keep (s : State) (f : FuncId) : Keep s (State.discardQueues s f) := by
  simp only [State.discardQueues]
  (repeat' split) <;> simp +contextual (maxDischargeDepth := 60) [Keep]

@[simp] theorem State.detachCheck_keep (s : State) (f : FuncId) : Keep s (State.detachCheck s f) := by
  simp only [State.detachCheck]
  (repeat' split) <;> simp +contextual (maxDischargeDepth := 60) [Keep]

@[simp] theorem State.afterPost_keep (s : State) (e : Entry) : Keep s (State.afterPost s e) := by
  simp only [State.afterPost]
  (repeat' split) <;> simp +contextual (maxDischargeDepth := 60) [Keep]

@[simp] theorem State.postEntry_keep (s : State) (f : FuncId) (q : Nat) (e : Entry) : Keep s (State.postEntry s f q e) := by
  simp only [State.postEntry]
  (repeat' split) <;> simp +contextual (maxDischargeDepth := 60) [Keep]

@[simp] theorem State.flushHeld_keep (s : State) (f : FuncId) (q : Nat) (z0 : Nat) : Keep s (State.flushHeld s f q z0) := by
  induction z0 generalizing s with
  | zero => 
    simp only [State.flushHeld]
    repeat' first
      | exact Keep.refl _
      | assumption
      | exact id
      | rw [keepNext_next]
      | (simp +contextual (maxDischargeDepth := 60) [Keep]; done)
      | split
      | refine Keep.trans ?_ (foldl_keep _ (fun _ _ => ?_) _ _)
      | refine Keep.trans ?_ (State.modCq_keep ..)
      | refine Keep.trans ?_ (State.cqSlot_keep ..)
      | refine Keep.trans ?_ (State.writeEntry_keep ..)
      | refine Keep.trans ?_ (State.afterPost_keep ..)
  | succ _ ih =>
    simp only [State.flushHeld]
    repeat' first
      | exact Keep.refl _
      | assumption
      | exact id
      | rw [keepNext_next]
      | (simp +contextual (maxDischargeDepth := 60) [Keep]; done)
      | refine Keep.trans ?_ (ih _)
      | split
      | refine Keep.trans ?_ (foldl_keep _ (fun _ _ => ?_) _ _)
      | refine Keep.trans ?_ (State.modCq_keep ..)
      | refine Keep.trans ?_ (State.cqSlot_keep ..)
      | refine Keep.trans ?_ (State.writeEntry_keep ..)
      | refine Keep.trans ?_ (State.afterPost_keep ..)

@[simp] theorem State.served_keep (s : State) (p : Pick) : Keep s (State.served s p) := by
  simp only [State.served]
  (repeat' split) <;> simp +contextual (maxDischargeDepth := 60) [Keep]

end Sys2Proof.Machine
end

