-- ==== Sys2Proof/Laws/KeepRecordOps.lean ====
section
/-! SUPPORT. What the operations and meanings of Sys2Proof/Machine/RecordOps.lean leave as it was. -/

namespace Sys2Proof.Machine
set_option Elab.async false

@[simp] theorem State.raiseHigh_keep (s : State) (b : BayId) (sl : BitVec 5) (f : Nat) : Keep s (State.raiseHigh s b sl f) := by
  simp only [State.raiseHigh]
  (repeat' split) <;> simp +contextual (maxDischargeDepth := 60) [Keep]

@[simp] theorem State.issueSeq_keep (s : State) : Keep s (State.issueSeq s).2 := by
  simp only [State.issueSeq]
  (repeat' split) <;> simp +contextual (maxDischargeDepth := 60) [Keep]

@[simp] theorem State.closeExtent_keep (s : State) (e : Extent) : Keep s (State.closeExtent s e) := by
  simp only [State.closeExtent]
  (repeat' split) <;> simp +contextual (maxDischargeDepth := 60) [Keep]

@[simp] theorem State.mapPut_keep (s : State) (e : Extent) (r : RecSt) : Keep s (State.mapPut s e r) := by
  simp only [State.mapPut]
  (repeat' split) <;> simp +contextual (maxDischargeDepth := 60) [Keep]

@[simp] theorem State.removeExtent_keep (s : State) (key : Nat) : Keep s (State.removeExtent s key) := by
  simp only [State.removeExtent]
  (repeat' split) <;> simp +contextual (maxDischargeDepth := 60) [Keep]

@[simp] theorem State.loseUnits_keep (s : State) (e : Extent) : Keep s (State.loseUnits s e) := by
  simp only [State.loseUnits]
  (repeat' split) <;> simp +contextual (maxDischargeDepth := 60) [Keep]

@[simp] theorem State.giveUp_keep (s : State) (e : Extent) (status : Nat) : Keep s (State.giveUp s e status) := by
  simp only [State.giveUp]
  (repeat' split) <;> simp +contextual (maxDischargeDepth := 60) [Keep]

@[simp] theorem State.noSpace_keep (s : State) (e : Extent) : Keep s (State.noSpace s e) := by
  simp only [State.noSpace]
  (repeat' split) <;> simp +contextual (maxDischargeDepth := 60) [Keep]

@[simp] theorem State.retryExtent_keep (s : State) (e : Extent) : Keep s (State.retryExtent s e) := by
  simp only [State.retryExtent]
  (repeat' split) <;> simp +contextual (maxDischargeDepth := 60) [Keep]

@[simp] theorem State.relocate_keep (s : State) (key i : Nat) : Keep s (State.relocate s key i) := by
  simp only [State.relocate]
  (repeat' split) <;> simp +contextual (maxDischargeDepth := 60) [Keep]

@[simp] theorem State.failCluster_keep (s : State) (key i : Nat) : Keep s (State.failCluster s key i) := by
  simp only [State.failCluster]
  (repeat' split) <;> simp +contextual (maxDischargeDepth := 60) [Keep]

@[simp] theorem State.failRecord_keep (s : State) (key : Nat) : Keep s (State.failRecord s key) := by
  simp only [State.failRecord]
  (repeat' split) <;> simp +contextual (maxDischargeDepth := 60) [Keep]

@[simp] theorem State.onMedium_keep (s : State) (e : Extent) (r : RecSt) : Keep s (State.onMedium s e r) := by
  simp only [State.onMedium]
  (repeat' split) <;> simp +contextual (maxDischargeDepth := 60) [Keep]

@[simp] theorem State.checkExtent_keep (s : State) (key : Nat) : Keep s (State.checkExtent s key) := by
  simp only [State.checkExtent]
  (repeat' split) <;> simp +contextual (maxDischargeDepth := 60) [Keep]

@[simp] theorem State.failWindow_keep (s : State) (g : HeadId) : Keep s (State.failWindow s g) := by
  simp only [State.failWindow]
  repeat' first
    | exact Keep.refl _
    | assumption
    | exact id
    | rw [keepNext_next]
    | (simp +contextual (maxDischargeDepth := 60) [Keep]; done)
    | split
    | refine Keep.trans ?_ (foldl_keep _ (fun _ _ => ?_) _ _)
    | refine Keep.trans ?_ (State.modWr_keep ..)
    | refine Keep.trans ?_ (State.raiseHigh_keep ..)
    | refine Keep.trans ?_ (State.failCluster_keep ..)
    | refine Keep.trans ?_ (State.failRecord_keep ..)

@[simp] theorem State.meterClose_keep (s : State) (g : HeadId) : Keep s (State.meterClose s g) := by
  simp only [State.meterClose]
  (repeat' split) <;> simp +contextual (maxDischargeDepth := 60) [Keep]

@[simp] theorem State.suspendBeams_keep (s : State) (g : HeadId) : Keep s (State.suspendBeams s g) := by
  simp only [State.suspendBeams]
  (repeat' split) <;> simp +contextual (maxDischargeDepth := 60) [Keep]

end Sys2Proof.Machine
end

