-- ==== Sys2Proof/Laws/KeepPlacement.lean ====
section
/-! SUPPORT. What the operations and meanings of Sys2Proof/Machine/Placement.lean leave as it was. -/

namespace Sys2Proof.Machine
set_option Elab.async false

@[simp] theorem State.placePart_keep (s : State) (c : Cmd) (slot : Nat) (p : Nat × Nat) : Keep s (State.placePart s c slot p) := by
  simp only [State.placePart]
  (repeat' split) <;> simp +contextual (maxDischargeDepth := 60) [Keep]

@[simp] theorem State.placeWrite_keep (s : State) (id : Nat) : Keep s (State.placeWrite s id) := by
  simp only [State.placeWrite]
  (repeat' split) <;> simp +contextual (maxDischargeDepth := 60) [Keep]

@[simp] theorem State.placeReady_keep (s : State) : Keep s (State.placeReady s) := by
  simp only [State.placeReady]
  repeat' first
    | exact Keep.refl _
    | assumption
    | exact id
    | rw [keepNext_next]
    | (simp +contextual (maxDischargeDepth := 60) [Keep]; done)
    | split
    | refine Keep.trans ?_ (foldl_keep _ (fun _ _ => ?_) _ _)
    | refine Keep.trans ?_ (State.placeWrite_keep ..)

@[simp] theorem State.dropCodewords_keep (s : State) (id : Nat) : Keep s (State.dropCodewords s id) := by
  simp only [State.dropCodewords]
  (repeat' split) <;> simp +contextual (maxDischargeDepth := 60) [Keep]

@[simp] theorem State.dropMessages_keep (s : State) (id : Nat) : Keep s (State.dropMessages s id) := by
  simp only [State.dropMessages]
  (repeat' split) <;> simp +contextual (maxDischargeDepth := 60) [Keep]

@[simp] theorem State.abandon_keep (s : State) (id : Nat) : Keep s (State.abandon s id) := by
  simp only [State.abandon]
  (repeat' split) <;> simp +contextual (maxDischargeDepth := 60) [Keep]

@[simp] theorem State.takeAway_keep (s : State) (id : Nat) (removed : Bool) : Keep s (State.takeAway s id removed) := by
  simp only [State.takeAway]
  (repeat' split) <;> simp +contextual (maxDischargeDepth := 60) [Keep]

@[simp] theorem State.resetQueues_keep (s : State) (f : FuncId) (removed : Bool) : Keep s (State.resetQueues s f removed) := by
  simp only [State.resetQueues]
  (repeat' split) <;> simp +contextual (maxDischargeDepth := 60) [Keep]

@[simp] theorem State.dropFenced_keep (s : State) (sel : Cmd → Bool) : Keep s (State.dropFenced s sel) := by
  simp only [State.dropFenced]
  (repeat' split) <;> simp +contextual (maxDischargeDepth := 60) [Keep]

end Sys2Proof.Machine
end

