-- ==== Sys2Proof/Laws/KeepEndpoint.lean ====
section
/-! SUPPORT. What the operations and meanings of Sys2Proof/Machine/Endpoint.lean leave as it was. -/

namespace Sys2Proof.Machine
set_option Elab.async false

@[simp] theorem State.resetMsix_keep (s : State) (f : FuncId) : Keep s (State.resetMsix s f) := by
  simp only [State.resetMsix]
  (repeat' split) <;> simp +contextual (maxDischargeDepth := 60) [Keep]

@[simp] theorem State.flrOne_keep (s : State) (f : FuncId) : Keep s (State.flrOne s f) := by
  simp only [State.flrOne]
  (repeat' split) <;> simp +contextual (maxDischargeDepth := 60) [Keep]

@[simp] theorem State.dropVfs_keep (s : State) : Keep s (State.dropVfs s) := by
  simp only [State.dropVfs]
  (repeat' split) <;> simp +contextual (maxDischargeDepth := 60) [Keep]

@[simp] theorem execFlr_keep (f : FuncId) (s : State) : KeepNext s (execFlr f s) := by
  simp only [execFlr]
  (repeat' split) <;> simp +contextual (maxDischargeDepth := 60) [Keep]

@[simp] theorem State.linkReset_keep (s : State) (removed : Bool) : Keep s (State.linkReset s removed) := by
  simp only [State.linkReset]
  (repeat' split) <;> simp +contextual (maxDischargeDepth := 60) [Keep]

@[simp] theorem execConventionalReset_keep (s : State) : KeepNext s (execConventionalReset s) := by
  simp only [execConventionalReset]
  (repeat' split) <;> simp +contextual (maxDischargeDepth := 60) [Keep]

@[simp] theorem execVfEnableWrite_keep (v : Bool) (s : State) : KeepNext s (execVfEnableWrite v s) := by
  simp only [execVfEnableWrite]
  (repeat' split) <;> simp +contextual (maxDischargeDepth := 60) [Keep]

@[simp] theorem execDlActiveLost_keep (s : State) : KeepNext s (execDlActiveLost s) := by
  simp only [execDlActiveLost]
  (repeat' split) <;> simp +contextual (maxDischargeDepth := 60) [Keep]

@[simp] theorem execLinkReattach_keep (s : State) : KeepNext s (execLinkReattach s) := by
  simp only [execLinkReattach]
  (repeat' split) <;> simp +contextual (maxDischargeDepth := 60) [Keep]

@[simp] theorem State.sendPending_keep (s : State) (f : FuncId) (l : List Nat) : Keep s (State.sendPending s f l) := by
  simp only [State.sendPending]
  (repeat' split) <;> simp +contextual (maxDischargeDepth := 60) [Keep]

@[simp] theorem execMsixEntryWrite_keep (f : FuncId) (entry : Option (BitVec 11)) (word : BitVec 2) (value : BitVec 32) (s : State) : KeepNext s (execMsixEntryWrite f entry word value s) := by
  simp only [execMsixEntryWrite]
  (repeat' split) <;> simp +contextual (maxDischargeDepth := 60) [Keep]

end Sys2Proof.Machine
end

