-- ==== Sys2Proof/Laws/KeepGovernor.lean ====
section
/-! SUPPORT. What the operations and meanings of Sys2Proof/Machine/Governor.lean leave as it was. -/

namespace Sys2Proof.Machine
set_option Elab.async false

@[simp] theorem State.issue_keep (s : State) (r : GrantReq) (mw : Nat) : Keep s (State.issue s r mw) := by
  simp only [State.issue]
  (repeat' split) <;> simp +contextual (maxDischargeDepth := 60) [Keep]

@[simp] theorem State.scanClass_keep (s : State) (cls : GrantClass) (z0 : List GrantReq) : Keep s (State.scanClass s cls z0) := by
  induction z0 generalizing s with
  | nil => exact Keep.refl s
  | cons r rest ih =>
    simp only [State.scanClass]
    (repeat' split) <;> first | exact Keep.refl s | exact ih s | exact (State.issue_keep ..).trans (ih _)

@[simp] theorem State.scanGrants_keep (s : State) : Keep s (State.scanGrants s) := by
  simp only [State.scanGrants]
  (repeat' split) <;> simp +contextual (maxDischargeDepth := 60) [Keep]

@[simp] theorem State.requestGrant_keep (s : State) (cls : GrantClass) (who : Nat) : Keep s (State.requestGrant s cls who) := by
  simp only [State.requestGrant]
  (repeat' split) <;> simp +contextual (maxDischargeDepth := 60) [Keep]

@[simp] theorem State.returnGrant_keep (s : State) (cls : GrantClass) (who : Nat) : Keep s (State.returnGrant s cls who) := by
  simp only [State.returnGrant]
  (repeat' split) <;> simp +contextual (maxDischargeDepth := 60) [Keep]

end Sys2Proof.Machine
end

