-- ==== Sys2Proof/Laws/KeepDoorbells.lean ====
section
/-! SUPPORT. What the operations and meanings of Sys2Proof/Machine/Doorbells.lean leave as it was. -/

namespace Sys2Proof.Machine
set_option Elab.async false

@[simp] theorem State.nudge_keep (s : State) (f : FuncId) (sq : Bool) (q : Nat) : Keep s (State.nudge s f sq q) := by
  simp only [State.nudge]
  (repeat' split) <;> simp +contextual (maxDischargeDepth := 60) [Keep]

@[simp] theorem execSqNudge_keep (f : FuncId) (q : BitVec 18) (s : State) : KeepNext s (execSqNudge f q s) := by
  simp only [execSqNudge]
  (repeat' split) <;> simp +contextual (maxDischargeDepth := 60) [Keep]

@[simp] theorem execCqNudge_keep (f : FuncId) (q : BitVec 18) (s : State) : KeepNext s (execCqNudge f q s) := by
  simp only [execCqNudge]
  (repeat' split) <;> simp +contextual (maxDischargeDepth := 60) [Keep]

@[simp] theorem execNudgeReservedOp_keep (f : FuncId) (op : BitVec 3) (s : State) : KeepNext s (execNudgeReservedOp f op s) := by
  simp only [execNudgeReservedOp]
  (repeat' split) <;> simp +contextual (maxDischargeDepth := 60) [Keep]

@[simp] theorem execAttachLo_keep (f : FuncId) (arg : BitVec 29) (s : State) : KeepNext s (execAttachLo f arg s) := by
  simp only [execAttachLo]
  (repeat' split) <;> simp +contextual (maxDischargeDepth := 60) [Keep]

@[simp] theorem State.attach_keep (s : State) (f : FuncId) (a : AttachIn) : Keep s (State.attach s f a) := by
  simp only [State.attach]
  (repeat' split) <;> simp +contextual (maxDischargeDepth := 60) [Keep]

@[simp] theorem execAttachHi_keep (f : FuncId) (arg : BitVec 29) (blk : AttachIn) (s : State) : KeepNext s (execAttachHi f arg blk s) := by
  simp only [execAttachHi]
  (repeat' split) <;> simp +contextual (maxDischargeDepth := 60) [Keep]

@[simp] theorem execDetach_keep (f : FuncId) (s : State) : KeepNext s (execDetach f s) := by
  simp only [execDetach]
  (repeat' split) <;> simp +contextual (maxDischargeDepth := 60) [Keep]

@[simp] theorem execDetachGraceExpiry_keep (f : FuncId) (s : State) : KeepNext s (execDetachGraceExpiry f s) := by
  simp only [execDetachGraceExpiry]
  (repeat' split) <;> simp +contextual (maxDischargeDepth := 60) [Keep]

@[simp] theorem State.sqErrorWith_keep (s : State) (x : Sq) (status : Nat) : Keep s (State.sqErrorWith s x status) := by
  simp only [State.sqErrorWith]
  (repeat' split) <;> simp +contextual (maxDischargeDepth := 60) [Keep]

@[simp] theorem State.sqError_keep (s : State) (x : Sq) : Keep s (State.sqError s x) := by
  simp only [State.sqError]
  (repeat' split) <;> simp +contextual (maxDischargeDepth := 60) [Keep]

@[simp] theorem State.cqError_keep (s : State) (x : Cq) : Keep s (State.cqError s x) := by
  simp only [State.cqError]
  (repeat' split) <;> simp +contextual (maxDischargeDepth := 60) [Keep]

@[simp] theorem State.takeSq_keep (s : State) (x : Sq) (w : BitVec 32) : Keep s (State.takeSq s x w) := by
  simp only [State.takeSq]
  (repeat' split) <;> simp +contextual (maxDischargeDepth := 60) [Keep]

@[simp] theorem State.takeCq_keep (s : State) (x : Cq) (w : BitVec 32) : Keep s (State.takeCq s x w) := by
  simp only [State.takeCq]
  (repeat' split) <;> simp +contextual (maxDischargeDepth := 60) [Keep]

@[simp] theorem State.takeSlot_keep (s : State) (f : FuncId) (sq : Bool) (q : Nat) (w : BitVec 32) : Keep s (State.takeSlot s f sq q w) := by
  simp only [State.takeSlot]
  (repeat' split) <;> simp +contextual (maxDischargeDepth := 60) [Keep]

@[simp] theorem State.repoll_keep (s : State) (l : Line) (new : Bool) : Keep s (State.repoll s l new) := by
  simp only [State.repoll]
  (repeat' split) <;> simp +contextual (maxDischargeDepth := 60) [Keep]

@[simp] theorem execDoorbellPoll_keep (f : FuncId) (sq : Bool) (line : BitVec 12) (slots : Vector (BitVec 32) 64) (s : State) : KeepNext s (execDoorbellPoll f sq line slots s) := by
  simp only [execDoorbellPoll]
  (repeat' split) <;> simp +contextual (maxDischargeDepth := 60) [Keep]

end Sys2Proof.Machine
end

