-- ==== Sys2Proof/Laws/KeepFetch.lean ====
section
/-! SUPPORT. What the operations and meanings of Sys2Proof/Machine/Fetch.lean leave as it was. -/

namespace Sys2Proof.Machine
set_option Elab.async false

@[simp] theorem State.addMessages_keep (s : State) (id : Nat) (m : Fin 64) (parts : Nat) : Keep s (State.addMessages s id m parts) := by
  simp only [State.addMessages]
  (repeat' split) <;> simp +contextual (maxDischargeDepth := 60) [Keep]

@[simp] theorem State.allocFail_keep (s : State) (id : Nat) : Keep s (State.allocFail s id) := by
  simp only [State.allocFail]
  (repeat' split) <;> simp +contextual (maxDischargeDepth := 60) [Keep]

@[simp] theorem State.acceptCmd_keep (s : State) (c : Cmd) : Keep s (State.acceptCmd s c) := by
  simp only [State.acceptCmd]
  (repeat' split) <;> simp +contextual (maxDischargeDepth := 60) [Keep]

@[simp] theorem State.suspendTest_keep (s : State) : Keep s (State.suspendTest s) := by
  simp only [State.suspendTest]
  (repeat' split) <;> simp +contextual (maxDischargeDepth := 60) [Keep]

@[simp] theorem State.fetch_keep (s : State) (p : Pick) (e : EntryIn) : Keep s (State.fetch s p e) := by
  simp only [State.fetch]
  (repeat' split) <;> simp +contextual (maxDischargeDepth := 60) [Keep]

@[simp] theorem execCommandFetch_keep (e : EntryIn) (s : State) : KeepNext s (execCommandFetch e s) := by
  simp only [execCommandFetch]
  (repeat' split) <;> simp +contextual (maxDischargeDepth := 60) [Keep]

end Sys2Proof.Machine
end

