-- ==== Sys2Proof/Laws/KeepIoCmds.lean ====
section
/-! SUPPORT. What the operations and meanings of Sys2Proof/Machine/IoCmds.lean leave as it was. -/

namespace Sys2Proof.Machine
set_option Elab.async false

@[simp] theorem State.dmaOut_keep (s : State) (c : Cmd) (l : List Byte) : Keep s (State.dmaOut s c l) := by
  simp only [State.dmaOut]
  (repeat' split) <;> simp +contextual (maxDischargeDepth := 60) [Keep]

@[simp] theorem State.dmaIn_keep (s : State) (c : Cmd) : Keep s (State.dmaIn s c) := by
  simp only [State.dmaIn]
  (repeat' split) <;> simp +contextual (maxDischargeDepth := 60) [Keep]

@[simp] theorem State.wantBlock_keep (s : State) (cmd i : Nat) (b : BayId) (d : BitVec 128) (sl : BitVec 5) (cluster index blk seq : Nat) : Keep s (State.wantBlock s cmd i b d sl cluster index blk seq) := by
  simp only [State.wantBlock]
  (repeat' split) <;> simp +contextual (maxDischargeDepth := 60) [Keep]

@[simp] theorem State.modBlock_keep (s : State) (cmd i : Nat) (f : RBlock → RBlock) : Keep s (State.modBlock s cmd i f) := by
  simp only [State.modBlock]
  (repeat' split) <;> simp +contextual (maxDischargeDepth := 60) [Keep]

@[simp] theorem State.readBlock_keep (s : State) (c : Cmd) (i : Nat) (x : RBlock) : Keep s (State.readBlock s c i x) := by
  simp only [State.readBlock]
  (repeat' split) <;> simp +contextual (maxDischargeDepth := 60) [Keep]

@[simp] theorem State.readCheck_keep (s : State) (id : Nat) : Keep s (State.readCheck s id) := by
  simp only [State.readCheck]
  (repeat' split) <;> simp +contextual (maxDischargeDepth := 60) [Keep]

@[simp] theorem execRead_keep (cmd : BitVec 64) (s : State) : KeepNext s (execRead cmd s) := by
  simp only [execRead]
  (repeat' split) <;> simp +contextual (maxDischargeDepth := 60) [Keep]

@[simp] theorem State.failWrite_keep (s : State) (id status block : Nat) (logged : Bool) : Keep s (State.failWrite s id status block logged) := by
  simp only [State.failWrite]
  (repeat' split) <;> simp +contextual (maxDischargeDepth := 60) [Keep]

@[simp] theorem execWrite_keep (cmd : BitVec 64) (dataOk : Bool) (s : State) : KeepNext s (execWrite cmd dataOk s) := by
  simp only [execWrite]
  (repeat' split) <;> simp +contextual (maxDischargeDepth := 60) [Keep]

@[simp] theorem execFlush_keep (cmd : BitVec 64) (s : State) : KeepNext s (execFlush cmd s) := by
  simp only [execFlush]
  (repeat' split) <;> simp +contextual (maxDischargeDepth := 60) [Keep]

@[simp] theorem execFence_keep (cmd : BitVec 64) (s : State) : KeepNext s (execFence cmd s) := by
  simp only [execFence]
  (repeat' split) <;> simp +contextual (maxDischargeDepth := 60) [Keep]

@[simp] theorem execCqCompletion_keep (cmd : BitVec 64) (s : State) : KeepNext s (execCqCompletion cmd s) := by
  simp only [execCqCompletion]
  (repeat' split) <;> simp +contextual (maxDischargeDepth := 60) [Keep]

@[simp] theorem execCqAggTimer_keep (f : FuncId) (q : BitVec 18) (s : State) : KeepNext s (execCqAggTimer f q s) := by
  simp only [execCqAggTimer]
  (repeat' split) <;> simp +contextual (maxDischargeDepth := 60) [Keep]

end Sys2Proof.Machine
end

