-- ==== Sys2Proof/Laws/KeepAdminCmds.lean ====
section
/-! SUPPORT. What the operations and meanings of Sys2Proof/Machine/AdminCmds.lean leave as it was. -/

namespace Sys2Proof.Machine
set_option Elab.async false

@[simp] theorem State.adminOk_keep (s : State) (c : Cmd) (result : Nat) : Keep s (State.adminOk s c result) := by
  simp only [State.adminOk]
  (repeat' split) <;> simp +contextual (maxDischargeDepth := 60) [Keep]

@[simp] theorem execCreateCq_keep (cmd : BitVec 64) (s : State) : KeepNext s (execCreateCq cmd s) := by
  simp only [execCreateCq]
  (repeat' split) <;> simp +contextual (maxDischargeDepth := 60) [Keep]

@[simp] theorem execCreateSq_keep (cmd : BitVec 64) (s : State) : KeepNext s (execCreateSq cmd s) := by
  simp only [execCreateSq]
  (repeat' split) <;> simp +contextual (maxDischargeDepth := 60) [Keep]

@[simp] theorem State.removeSq_keep (s : State) (f : FuncId) (q : Nat) : Keep s (State.removeSq s f q) := by
  simp only [State.removeSq]
  (repeat' split) <;> simp +contextual (maxDischargeDepth := 60) [Keep]

@[simp] theorem execDeleteSq_keep (cmd : BitVec 64) (s : State) : KeepNext s (execDeleteSq cmd s) := by
  simp only [execDeleteSq]
  (repeat' split) <;> simp +contextual (maxDischargeDepth := 60) [Keep]

@[simp] theorem execDeleteCq_keep (cmd : BitVec 64) (s : State) : KeepNext s (execDeleteCq cmd s) := by
  simp only [execDeleteCq]
  (repeat' split) <;> simp +contextual (maxDischargeDepth := 60) [Keep]

@[simp] theorem State.startTest_keep (s : State) (cmd : BitVec 64) (code : Nat) (extended : Bool) : Keep s (State.startTest s cmd code extended) := by
  simp only [State.startTest]
  (repeat' split) <;> simp +contextual (maxDischargeDepth := 60) [Keep]

@[simp] theorem State.endTest_keep (s : State) (outcome area : Nat) : Keep s (State.endTest s outcome area) := by
  simp only [State.endTest]
  (repeat' split) <;> simp +contextual (maxDischargeDepth := 60) [Keep]

@[simp] theorem execSelfTestShort_keep (cmd : BitVec 64) (s : State) : KeepNext s (execSelfTestShort cmd s) := by
  simp only [execSelfTestShort]
  (repeat' split) <;> simp +contextual (maxDischargeDepth := 60) [Keep]

@[simp] theorem execSelfTestExtended_keep (cmd : BitVec 64) (s : State) : KeepNext s (execSelfTestExtended cmd s) := by
  simp only [execSelfTestExtended]
  (repeat' split) <;> simp +contextual (maxDischargeDepth := 60) [Keep]

@[simp] theorem execSelfTestAbort_keep (cmd : BitVec 64) (s : State) : KeepNext s (execSelfTestAbort cmd s) := by
  simp only [execSelfTestAbort]
  (repeat' split) <;> simp +contextual (maxDischargeDepth := 60) [Keep]

@[simp] theorem execSelfTestResume_keep (s : State) : KeepNext s (execSelfTestResume s) := by
  simp only [execSelfTestResume]
  (repeat' split) <;> simp +contextual (maxDischargeDepth := 60) [Keep]

@[simp] theorem execSelfTestMaxSusp_keep (s : State) : KeepNext s (execSelfTestMaxSusp s) := by
  simp only [execSelfTestMaxSusp]
  (repeat' split) <;> simp +contextual (maxDischargeDepth := 60) [Keep]

@[simp] theorem execSelfTestDone_keep (fail : Option (Fin 7)) (s : State) : KeepNext s (execSelfTestDone fail s) := by
  simp only [execSelfTestDone]
  (repeat' split) <;> simp +contextual (maxDischargeDepth := 60) [Keep]

@[simp] theorem State.meterTaken_keep (s : State) (f : Nat) : Keep s (State.meterTaken s f) := by
  simp only [State.meterTaken]
  (repeat' split) <;> simp +contextual (maxDischargeDepth := 60) [Keep]

@[simp] theorem execGetMetering_keep (cmd : BitVec 64) (s : State) : KeepNext s (execGetMetering cmd s) := by
  simp only [execGetMetering]
  (repeat' split) <;> simp +contextual (maxDischargeDepth := 60) [Keep]

end Sys2Proof.Machine
end

