-- ==== Sys2Proof/Laws/KeepCalibStore.lean ====
section
/-! SUPPORT. What the operations and meanings of Sys2Proof/Machine/CalibStore.lean leave as it was. -/

namespace Sys2Proof.Machine
set_option Elab.async false

@[simp] theorem State.commitTrim_keep (s : State) (key : Nat) (v : Int) : Keep s (State.commitTrim s key v) := by
  simp only [State.commitTrim]
  (repeat' split) <;> simp +contextual (maxDischargeDepth := 60) [Keep]

@[simp] theorem State.abandonTrial_keep (s : State) (g : HeadId) : Keep s (State.abandonTrial s g) := by
  simp only [State.abandonTrial]
  (repeat' split) <;> simp +contextual (maxDischargeDepth := 60) [Keep]

end Sys2Proof.Machine
end

