-- ==== Sys2Proof/Laws/KeepBayOps.lean ====
section
/-! SUPPORT. What the operations and meanings of Sys2Proof/Machine/BayOps.lean leave as it was. -/

namespace Sys2Proof.Machine
set_option Elab.async false

@[simp] theorem State.report_keep (s : State) (b : BayId) (r : Report) : Keep s (State.report s b r) := by
  simp only [State.report]
  (repeat' split) <;> simp +contextual (maxDischargeDepth := 60) [Keep]

@[simp] theorem State.loseHead_keep (s : State) (g : HeadId) (cause : Fin 9) : Keep s (State.loseHead s g cause) := by
  simp only [State.loseHead]
  (repeat' split) <;> simp +contextual (maxDischargeDepth := 60) [Keep]

@[simp] theorem State.adoptTrims_keep (s : State) (g : HeadId) (codes : List Nat) : Keep s (State.adoptTrims s g codes) := by
  simp only [State.adoptTrims]
  (repeat' split) <;> simp +contextual (maxDischargeDepth := 60) [Keep]

@[simp] theorem State.cmdLoop_keep (s : State) (g : HeadId) (l : Fin 6) (c : EngCmd) : Keep s (State.cmdLoop s g l c) := by
  simp only [State.cmdLoop]
  (repeat' split) <;> simp +contextual (maxDischargeDepth := 60) [Keep]

@[simp] theorem State.tiltWait_keep (s : State) (g : HeadId) : Keep s (State.tiltWait s g) := by
  simp only [State.tiltWait]
  (repeat' split) <;> simp +contextual (maxDischargeDepth := 60) [Keep]

@[simp] theorem State.skewWait_keep (s : State) (g : HeadId) : Keep s (State.skewWait s g) := by
  simp only [State.skewWait]
  (repeat' split) <;> simp +contextual (maxDischargeDepth := 60) [Keep]

@[simp] theorem State.holdTracking_keep (s : State) (g : HeadId) : Keep s (State.holdTracking s g) := by
  simp only [State.holdTracking]
  (repeat' split) <;> simp +contextual (maxDischargeDepth := 60) [Keep]

end Sys2Proof.Machine
end

