-- ==== Sys2Proof/Laws/KeepTrimOps.lean ====
section
/-! SUPPORT. What the operations and meanings of Sys2Proof/Machine/TrimOps.lean leave as it was. -/

namespace Sys2Proof.Machine
set_option Elab.async false

@[simp] theorem State.recomputeTrims_keep (s : State) (g : HeadId) : Keep s (State.recomputeTrims s g) := by
  simp only [State.recomputeTrims]
  (repeat' split) <;> simp +contextual (maxDischargeDepth := 60) [Keep]

end Sys2Proof.Machine
end

