-- ==== Sys2Proof/Laws/KeepAxisOps.lean ====
section
/-! SUPPORT. What the operations and meanings of Sys2Proof/Machine/AxisOps.lean leave as it was. -/

namespace Sys2Proof.Machine
set_option Elab.async false

@[simp] theorem State.setPhases_keep (s : State) (a : AxisId) : Keep s (State.setPhases s a) := by
  simp only [State.setPhases]
  (repeat' split) <;> simp +contextual (maxDischargeDepth := 60) [Keep]

@[simp] theorem State.retarget_keep (s : State) (a : AxisId) (l : List Seg) : Keep s (State.retarget s a l) := by
  simp only [State.retarget]
  (repeat' split) <;> simp +contextual (maxDischargeDepth := 60) [Keep]

@[simp] theorem State.saFollow_keep (s : State) (g : HeadId) (target : Int) : Keep s (State.saFollow s g target) := by
  simp only [State.saFollow]
  (repeat' split) <;> simp +contextual (maxDischargeDepth := 60) [Keep]

@[simp] theorem State.saJump_keep (s : State) (g : HeadId) (target : Int) : Keep s (State.saJump s g target) := by
  simp only [State.saJump]
  (repeat' split) <;> simp +contextual (maxDischargeDepth := 60) [Keep]

@[simp] theorem State.refuseAxis_keep (s : State) (a : AxisId) : Keep s (State.refuseAxis s a) := by
  simp only [State.refuseAxis]
  (repeat' split) <;> simp +contextual (maxDischargeDepth := 60) [Keep]

@[simp] theorem State.axisFault_keep (s : State) (a : AxisId) (cause : BitVec 3) : Keep s (State.axisFault s a cause) := by
  simp only [State.axisFault]
  (repeat' split) <;> simp +contextual (maxDischargeDepth := 60) [Keep]

@[simp] theorem State.homeSet_keep (s : State) (a : AxisId) : Keep s (State.homeSet s a) := by
  simp only [State.homeSet]
  (repeat' split) <;> simp +contextual (maxDischargeDepth := 60) [Keep]

@[simp] theorem State.homeStart_keep (s : State) (a : AxisId) : Keep s (State.homeStart s a) := by
  simp only [State.homeStart]
  (repeat' split) <;> simp +contextual (maxDischargeDepth := 60) [Keep]

end Sys2Proof.Machine
end

