-- ==== Sys2Proof/Laws/KeepRunoutOps.lean ====
section
/-! SUPPORT. What the operations and meanings of Sys2Proof/Machine/RunoutOps.lean leave as it was. -/

namespace Sys2Proof.Machine
set_option Elab.async false

@[simp] theorem State.storeRunout_keep (s : State) (g : HeadId) (l : Fin 3) : Keep s (State.storeRunout s g l) := by
  simp only [State.storeRunout]
  (repeat' split) <;> simp +contextual (maxDischargeDepth := 60) [Keep]

@[simp] theorem State.loadRunout_keep (s : State) (g : HeadId) (sl : BitVec 5) : Keep s (State.loadRunout s g sl) := by
  simp only [State.loadRunout]
  (repeat' split) <;> simp +contextual (maxDischargeDepth := 60) [Keep]

end Sys2Proof.Machine
end

