-- ==== Sys2Proof/Laws/KeepHeadOps.lean ====
section
/-! SUPPORT. What the operations and meanings of Sys2Proof/Machine/HeadOps.lean leave as it was. -/

namespace Sys2Proof.Machine
set_option Elab.async false

@[simp] theorem State.focFail_keep (s : State) (g : HeadId) (cause : BitVec 2) : Keep s (State.focFail s g cause) := by
  simp only [State.focFail]
  (repeat' split) <;> simp +contextual (maxDischargeDepth := 60) [Keep]

@[simp] theorem State.focSweepAt_keep (s : State) (g : HeadId) (v : Q17) : Keep s (State.focSweepAt s g v) := by
  simp only [State.focSweepAt]
  (repeat' split) <;> simp +contextual (maxDischargeDepth := 60) [Keep]

@[simp] theorem State.focAttempt_keep (s : State) (g : HeadId) (v : Q17) : Keep s (State.focAttempt s g v) := by
  simp only [State.focAttempt]
  (repeat' split) <;> simp +contextual (maxDischargeDepth := 60) [Keep]

@[simp] theorem State.focStart_keep (s : State) (g : HeadId) : Keep s (State.focStart s g) := by
  simp only [State.focStart]
  (repeat' split) <;> simp +contextual (maxDischargeDepth := 60) [Keep]

@[simp] theorem State.resumeStart_keep (s : State) (g : HeadId) : Keep s (State.resumeStart s g) := by
  simp only [State.resumeStart]
  (repeat' split) <;> simp +contextual (maxDischargeDepth := 60) [Keep]

@[simp] theorem State.startHead_keep (s : State) (g : HeadId) : Keep s (State.startHead s g) := by
  simp only [State.startHead]
  (repeat' split) <;> simp +contextual (maxDischargeDepth := 60) [Keep]

@[simp] theorem State.afterHoming_keep (s : State) (a : AxisId) : Keep s (State.afterHoming s a) := by
  simp only [State.afterHoming]
  (repeat' split) <;> simp +contextual (maxDischargeDepth := 60) [Keep]

@[simp] theorem State.startHeads_keep (s : State) (b : BayId) : Keep s (State.startHeads s b) := by
  simp only [State.startHeads]
  (repeat' split) <;> simp +contextual (maxDischargeDepth := 60) [Keep]

@[simp] theorem State.focusLoss_keep (s : State) (g : HeadId) : Keep s (State.focusLoss s g) := by
  simp only [State.focusLoss]
  (repeat' split) <;> simp +contextual (maxDischargeDepth := 60) [Keep]

@[simp] theorem State.jumpRecapture_keep (s : State) (g : HeadId) : Keep s (State.jumpRecapture s g) := by
  simp only [State.jumpRecapture]
  (repeat' split) <;> simp +contextual (maxDischargeDepth := 60) [Keep]

@[simp] theorem State.jumpStep_keep (s : State) (g : HeadId) (cur target : BitVec 5) : Keep s (State.jumpStep s g cur target) := by
  simp only [State.jumpStep]
  (repeat' split) <;> simp +contextual (maxDischargeDepth := 60) [Keep]

@[simp] theorem State.beginJump_keep (s : State) (g : HeadId) (cur target : BitVec 5) : Keep s (State.beginJump s g cur target) := by
  simp only [State.beginJump]
  (repeat' split) <;> simp +contextual (maxDischargeDepth := 60) [Keep]

@[simp] theorem State.trkAcquire_keep (s : State) (g : HeadId) : Keep s (State.trkAcquire s g) := by
  simp only [State.trkAcquire]
  (repeat' split) <;> simp +contextual (maxDischargeDepth := 60) [Keep]

@[simp] theorem State.enterLocked_keep (s : State) (g : HeadId) (sl : BitVec 5) : Keep s (State.enterLocked s g sl) := by
  simp only [State.enterLocked]
  (repeat' split) <;> simp +contextual (maxDischargeDepth := 60) [Keep]

@[simp] theorem State.opcCheck_keep (s : State) (g : HeadId) : Keep s (State.opcCheck s g) := by
  simp only [State.opcCheck]
  (repeat' split) <;> simp +contextual (maxDischargeDepth := 60) [Keep]

@[simp] theorem State.openRequests_keep (s0 : State) (g : HeadId) : Keep s0 (State.openRequests s0 g) := by
  simp only [State.openRequests]
  (repeat' split) <;> simp +contextual (maxDischargeDepth := 60) [Keep]

@[simp] theorem State.onTrack_keep (s : State) (g : HeadId) (gray : BitVec 18) : Keep s (State.onTrack s g gray) := by
  simp only [State.onTrack]
  (repeat' split) <;> simp +contextual (maxDischargeDepth := 60) [Keep]

@[simp] theorem State.trkFollow_keep (s : State) (g : HeadId) (track : BitVec 18) : Keep s (State.trkFollow s g track) := by
  simp only [State.trkFollow]
  (repeat' split) <;> simp +contextual (maxDischargeDepth := 60) [Keep]

@[simp] theorem State.trkFail_keep (s : State) (g : HeadId) (cause : BitVec 2) : Keep s (State.trkFail s g cause) := by
  simp only [State.trkFail]
  (repeat' split) <;> simp +contextual (maxDischargeDepth := 60) [Keep]

@[simp] theorem State.lensJump_keep (s : State) (g : HeadId) (outward : Bool) (n : Nat) (holdJump : Bool) : Keep s (State.lensJump s g outward n holdJump) := by
  simp only [State.lensJump]
  (repeat' split) <;> simp +contextual (maxDischargeDepth := 60) [Keep]

@[simp] theorem State.trkSeek_keep (s : State) (g : HeadId) : Keep s (State.trkSeek s g) := by
  simp only [State.trkSeek]
  (repeat' split) <;> simp +contextual (maxDischargeDepth := 60) [Keep]

@[simp] theorem State.trkCorrect_keep (s : State) (g : HeadId) (m : Nat) (guardMiss : Bool) : Keep s (State.trkCorrect s g m guardMiss) := by
  simp only [State.trkCorrect]
  (repeat' split) <;> simp +contextual (maxDischargeDepth := 60) [Keep]

@[simp] theorem State.trkGo_keep (s : State) (g : HeadId) : Keep s (State.trkGo s g) := by
  simp only [State.trkGo]
  (repeat' split) <;> simp +contextual (maxDischargeDepth := 60) [Keep]

@[simp] theorem State.trkSlip_keep (s : State) (g : HeadId) (locked : Bool) : Keep s (State.trkSlip s g locked) := by
  simp only [State.trkSlip]
  (repeat' split) <;> simp +contextual (maxDischargeDepth := 60) [Keep]

@[simp] theorem State.writeInhibit_keep (s : State) (g : HeadId) : Keep s (State.writeInhibit s g) := by
  simp only [State.writeInhibit]
  (repeat' split) <;> simp +contextual (maxDischargeDepth := 60) [Keep]

end Sys2Proof.Machine
end

