-- ==== Sys2Proof/Laws/KeepAxes.lean ====
section
/-! SUPPORT. What the operations and meanings of Sys2Proof/Machine/Axes.lean leave as it was. -/

namespace Sys2Proof.Machine
set_option Elab.async false

@[simp] theorem State.adoptAxis_keep (s : State) (a : AxisId) : Keep s (State.adoptAxis s a) := by
  simp only [State.adoptAxis]
  (repeat' split) <;> simp +contextual (maxDischargeDepth := 60) [Keep]

@[simp] theorem State.takePrick_keep (s : State) (a : AxisId) (l : List Seg) : Keep s (State.takePrick s a l) := by
  simp only [State.takePrick]
  (repeat' split) <;> simp +contextual (maxDischargeDepth := 60) [Keep]

@[simp] theorem State.restAxis_keep (s : State) (a : AxisId) : Keep s (State.restAxis s a) := by
  simp only [State.restAxis]
  (repeat' split) <;> simp +contextual (maxDischargeDepth := 60) [Keep]

@[simp] theorem State.velTick_keep (s : State) (a : AxisId) : Keep s (State.velTick s a) := by
  simp only [State.velTick]
  (repeat' split) <;> simp +contextual (maxDischargeDepth := 60) [Keep]

@[simp] theorem State.homeTick_keep (s : State) (a : AxisId) : Keep s (State.homeTick s a) := by
  simp only [State.homeTick]
  (repeat' split) <;> simp +contextual (maxDischargeDepth := 60) [Keep]

@[simp] theorem State.leaveMode_keep (s : State) (n : Fin 4) : Keep s (State.leaveMode s n) := by
  simp only [State.leaveMode]
  (repeat' split) <;> simp +contextual (maxDischargeDepth := 60) [Keep]

@[simp] theorem State.limitLeave_keep (s : State) (n : Fin 4) (interlock : Bool) : Keep s (State.limitLeave s n interlock) := by
  simp only [State.limitLeave]
  (repeat' split) <;> simp +contextual (maxDischargeDepth := 60) [Keep]

@[simp] theorem State.followTick_keep (s : State) (n : Fin 4) (v : Int) : Keep s (State.followTick s n v) := by
  simp only [State.followTick]
  (repeat' split) <;> simp +contextual (maxDischargeDepth := 60) [Keep]

@[simp] theorem State.gearTick_keep (s : State) (n : Fin 4) : Keep s (State.gearTick s n) := by
  simp only [State.gearTick]
  (repeat' split) <;> simp +contextual (maxDischargeDepth := 60) [Keep]

@[simp] theorem State.stepTick_keep (s : State) (n : Fin 4) : Keep s (State.stepTick s n) := by
  simp only [State.stepTick]
  (repeat' split) <;> simp +contextual (maxDischargeDepth := 60) [Keep]

@[simp] theorem State.profileTick_keep (s : State) (n : Fin 4) (pr : Profile) : Keep s (State.profileTick s n pr) := by
  simp only [State.profileTick]
  (repeat' split) <;> simp +contextual (maxDischargeDepth := 60) [Keep]

@[simp] theorem State.moveTick_keep (s : State) (a : AxisId) : Keep s (State.moveTick s a) := by
  simp only [State.moveTick]
  (repeat' split) <;> simp +contextual (maxDischargeDepth := 60) [Keep]

@[simp] theorem execAxisTick_keep (a : AxisId) (s : State) : KeepNext s (execAxisTick a s) := by
  simp only [execAxisTick]
  (repeat' split) <;> simp +contextual (maxDischargeDepth := 60) [Keep]

@[simp] theorem execChopperCycle_keep (a : AxisId) (phase : Fin 2) (reached : BitVec 24) (s : State) : KeepNext s (execChopperCycle a phase reached s) := by
  simp only [execChopperCycle]
  (repeat' split) <;> simp +contextual (maxDischargeDepth := 60) [Keep]

@[simp] theorem execStepperPhaseOpen_keep (a : AxisId) (phase : Fin 2) (s : State) : KeepNext s (execStepperPhaseOpen a phase s) := by
  simp only [execStepperPhaseOpen]
  (repeat' split) <;> simp +contextual (maxDischargeDepth := 60) [Keep]

@[simp] theorem execAxisOvercurrent_keep (a : AxisId) (s : State) : KeepNext s (execAxisOvercurrent a s) := by
  simp only [execAxisOvercurrent]
  (repeat' split) <;> simp +contextual (maxDischargeDepth := 60) [Keep]

@[simp] theorem execHoldDelayEnd_keep (a : AxisId) (s : State) : KeepNext s (execHoldDelayEnd a s) := by
  simp only [execHoldDelayEnd]
  (repeat' split) <;> simp +contextual (maxDischargeDepth := 60) [Keep]

@[simp] theorem execAxisEnableWrite_keep (a : AxisId) (v : Bool) (s : State) : KeepNext s (execAxisEnableWrite a v s) := by
  simp only [execAxisEnableWrite]
  (repeat' split) <;> simp +contextual (maxDischargeDepth := 60) [Keep]

@[simp] theorem execAxisHome_keep (a : AxisId) (s : State) : KeepNext s (execAxisHome a s) := by
  simp only [execAxisHome]
  (repeat' split) <;> simp +contextual (maxDischargeDepth := 60) [Keep]

@[simp] theorem execHomeStopHoldEnd_keep (a : AxisId) (s : State) : KeepNext s (execHomeStopHoldEnd a s) := by
  simp only [execHomeStopHoldEnd]
  (repeat' split) <;> simp +contextual (maxDischargeDepth := 60) [Keep]

@[simp] theorem execAxisClearFault_keep (a : AxisId) (s : State) : KeepNext s (execAxisClearFault a s) := by
  simp only [execAxisClearFault]
  (repeat' split) <;> simp +contextual (maxDischargeDepth := 60) [Keep]

@[simp] theorem execAxisStop_keep (n : Fin 4) (s : State) : KeepNext s (execAxisStop n s) := by
  simp only [execAxisStop]
  (repeat' split) <;> simp +contextual (maxDischargeDepth := 60) [Keep]

@[simp] theorem execRunPrick_keep (a : AxisId) (s : State) : KeepNext s (execRunPrick a s) := by
  simp only [execRunPrick]
  (repeat' split) <;> simp +contextual (maxDischargeDepth := 60) [Keep]

@[simp] theorem execAxisTargetWrite_keep (n : Fin 4) (target : BitVec 32) (s : State) : KeepNext s (execAxisTargetWrite n target s) := by
  simp only [execAxisTargetWrite]
  (repeat' split) <;> simp +contextual (maxDischargeDepth := 60) [Keep]

@[simp] theorem execAxisModeWrite_keep (n : Fin 4) (mode : BitVec 2) (s : State) : KeepNext s (execAxisModeWrite n mode s) := by
  simp only [execAxisModeWrite]
  (repeat' split) <;> simp +contextual (maxDischargeDepth := 60) [Keep]

@[simp] theorem State.beginRatio_keep (s : State) : Keep s (State.beginRatio s) := by
  simp only [State.beginRatio]
  (repeat' split) <;> simp +contextual (maxDischargeDepth := 60) [Keep]

@[simp] theorem execGearArm_keep (n : Fin 4) (s : State) : KeepNext s (execGearArm n s) := by
  simp only [execGearArm]
  (repeat' split) <;> simp +contextual (maxDischargeDepth := 60) [Keep]

@[simp] theorem execGearArmNow_keep (n : Fin 4) (s : State) : KeepNext s (execGearArmNow n s) := by
  simp only [execGearArmNow]
  (repeat' split) <;> simp +contextual (maxDischargeDepth := 60) [Keep]

@[simp] theorem State.countEncoder_keep (s : State) (i : Fin 2) (d : Int) : Keep s (State.countEncoder s i d) := by
  simp only [State.countEncoder]
  (repeat' split) <;> simp +contextual (maxDischargeDepth := 60) [Keep]

@[simp] theorem State.encoderError_keep (s : State) (i : Fin 2) : Keep s (State.encoderError s i) := by
  simp only [State.encoderError]
  (repeat' split) <;> simp +contextual (maxDischargeDepth := 60) [Keep]

@[simp] theorem execEncoderEdge_keep (i : Fin 2) (a b : Bool) (since : BitVec 32) (s : State) : KeepNext s (execEncoderEdge i a b since s) := by
  simp only [execEncoderEdge]
  (repeat' split) <;> simp +contextual (maxDischargeDepth := 60) [Keep]

@[simp] theorem execStepEdge_keep (n : Fin 4) (level dir : Bool) (since : BitVec 32) (s : State) : KeepNext s (execStepEdge n level dir since s) := by
  simp only [execStepEdge]
  (repeat' split) <;> simp +contextual (maxDischargeDepth := 60) [Keep]

@[simp] theorem execAxisCommit_keep (a : AxisId) (s : State) : KeepNext s (execAxisCommit a s) := by
  simp only [execAxisCommit]
  (repeat' split) <;> simp +contextual (maxDischargeDepth := 60) [Keep]

end Sys2Proof.Machine
end

