-- ==== Sys2Proof/Laws/KeepCache.lean ====
section
/-! SUPPORT. What the operations and meanings of Sys2Proof/Machine/Cache.lean leave as it was. -/

namespace Sys2Proof.Machine
set_option Elab.async false

@[simp] theorem State.modCache_keep (s : State) (f : Cache → Cache) : Keep s (State.modCache s f) := by
  simp only [State.modCache]
  (repeat' split) <;> simp +contextual (maxDischargeDepth := 60) [Keep]

@[simp] theorem State.cacheHit_keep (s : State) (line way : Nat) (store : Bool) (off : Nat) (d : List Byte) : Keep s (State.cacheHit s line way store off d) := by
  simp only [State.cacheHit]
  (repeat' split) <;> simp +contextual (maxDischargeDepth := 60) [Keep]

@[simp] theorem State.cacheFill_keep (s : State) (line : Nat) (dirty : Bool) (data : List Byte) : Keep s (State.cacheFill s line dirty data) := by
  simp only [State.cacheFill]
  (repeat' split) <;> simp +contextual (maxDischargeDepth := 60) [Keep]

@[simp] theorem State.victimHit_keep (s : State) (v : Victim) (store : Bool) (off : Nat) (d : List Byte) : Keep s (State.victimHit s v store off d) := by
  simp only [State.victimHit]
  (repeat' split) <;> simp +contextual (maxDischargeDepth := 60) [Keep]

@[simp] theorem State.cacheMiss_keep (s : State) (line : Nat) (store around : Bool) (off : Nat) (d : List Byte) : Keep s (State.cacheMiss s line store around off d) := by
  simp only [State.cacheMiss]
  (repeat' split) <;> simp +contextual (maxDischargeDepth := 60) [Keep]

@[simp] theorem State.cacheThrough_keep (s : State) (c : CacheClient) (store : Bool) (line off : Nat) (d : List Byte) (r : Fin 3) : Keep s (State.cacheThrough s c store line off d r) := by
  simp only [State.cacheThrough]
  (repeat' split) <;> simp +contextual (maxDischargeDepth := 60) [Keep]

@[simp] theorem State.cacheAccess_keep (s : State) (c : CacheClient) (store : Bool) (a : Nat) (d : List Byte) : Keep s (State.cacheAccess s c store a d) := by
  simp only [State.cacheAccess]
  (repeat' split) <;> simp +contextual (maxDischargeDepth := 60) [Keep]

@[simp] theorem execCacheAccess_keep (c : CacheClient) (store : Bool) (addr : BitVec 37) (data : List Byte) (s : State) : KeepNext s (execCacheAccess c store addr data s) := by
  simp only [execCacheAccess]
  (repeat' split) <;> simp +contextual (maxDischargeDepth := 60) [Keep]

@[simp] theorem execVictimWritebackDone_keep (addr : BitVec 37) (s : State) : KeepNext s (execVictimWritebackDone addr s) := by
  simp only [execVictimWritebackDone]
  (repeat' split) <;> simp +contextual (maxDischargeDepth := 60) [Keep]

@[simp] theorem execStreamGapTimeout_keep (c : CacheClient) (region : Fin 3) (s : State) : KeepNext s (execStreamGapTimeout c region s) := by
  simp only [execStreamGapTimeout]
  (repeat' split) <;> simp +contextual (maxDischargeDepth := 60) [Keep]

@[simp] theorem State.startOp_keep (s : State) (o : CacheOp) (ok : Bool) : Keep s (State.startOp s o ok) := by
  simp only [State.startOp]
  (repeat' split) <;> simp +contextual (maxDischargeDepth := 60) [Keep]

@[simp] theorem execCacheOpPreload_keep (ways : BitVec 16) (lock : Bool) (s : State) : KeepNext s (execCacheOpPreload ways lock s) := by
  simp only [execCacheOpPreload]
  (repeat' split) <;> simp +contextual (maxDischargeDepth := 60) [Keep]

@[simp] theorem execCacheOpClean_keep (s : State) : KeepNext s (execCacheOpClean s) := by
  simp only [execCacheOpClean]
  (repeat' split) <;> simp +contextual (maxDischargeDepth := 60) [Keep]

@[simp] theorem execCacheOpInvalidate_keep (s : State) : KeepNext s (execCacheOpInvalidate s) := by
  simp only [execCacheOpInvalidate]
  (repeat' split) <;> simp +contextual (maxDischargeDepth := 60) [Keep]

@[simp] theorem execCacheCleanAll_keep (s : State) : KeepNext s (execCacheCleanAll s) := by
  simp only [execCacheCleanAll]
  (repeat' split) <;> simp +contextual (maxDischargeDepth := 60) [Keep]

@[simp] theorem State.cleanLines_keep (s : State) (sel : Nat → CLine → Bool) : Keep s (State.cleanLines s sel) := by
  simp only [State.cleanLines]
  (repeat' split) <;> simp +contextual (maxDischargeDepth := 60) [Keep]

@[simp] theorem State.dropLines_keep (s : State) (sel : Nat → CLine → Bool) : Keep s (State.dropLines s sel) := by
  simp only [State.dropLines]
  (repeat' split) <;> simp +contextual (maxDischargeDepth := 60) [Keep]

@[simp] theorem State.flushVictims_keep (s : State) (base n : Nat) : Keep s (State.flushVictims s base n) := by
  simp only [State.flushVictims]
  (repeat' split) <;> simp +contextual (maxDischargeDepth := 60) [Keep]

@[simp] theorem State.preloadLine_keep (s : State) (ways line : Nat) : Keep s (State.preloadLine s ways line) := by
  simp only [State.preloadLine]
  (repeat' split) <;> simp +contextual (maxDischargeDepth := 60) [Keep]

@[simp] theorem execCacheOpDone_keep (s : State) : KeepNext s (execCacheOpDone s) := by
  simp only [execCacheOpDone]
  (repeat' split) <;> simp +contextual (maxDischargeDepth := 60) [Keep]

@[simp] theorem execCacheUnlock_keep (ways : BitVec 16) (s : State) : KeepNext s (execCacheUnlock ways s) := by
  simp only [execCacheUnlock]
  (repeat' split) <;> simp +contextual (maxDischargeDepth := 60) [Keep]

@[simp] theorem State.wayPower_keep (s : State) (i : Nat) (on : Bool) : Keep s (State.wayPower s i on) := by
  simp only [State.wayPower]
  (repeat' split) <;> simp +contextual (maxDischargeDepth := 60) [Keep]

@[simp] theorem execWayPowerWrite_keep (on : BitVec 8) (s : State) : KeepNext s (execWayPowerWrite on s) := by
  simp only [execWayPowerWrite]
  (repeat' split) <;> simp +contextual (maxDischargeDepth := 60) [Keep]

@[simp] theorem execWayDrainDone_keep (way : Fin 16) (s : State) : KeepNext s (execWayDrainDone way s) := by
  simp only [execWayDrainDone]
  (repeat' split) <;> simp +contextual (maxDischargeDepth := 60) [Keep]

@[simp] theorem execCacheEnableWrite_keep (v : Bool) (s : State) : KeepNext s (execCacheEnableWrite v s) := by
  simp only [execCacheEnableWrite]
  (repeat' split) <;> simp +contextual (maxDischargeDepth := 60) [Keep]

@[simp] theorem execCcacheClearStats_keep (s : State) : KeepNext s (execCcacheClearStats s) := by
  simp only [execCcacheClearStats]
  (repeat' split) <;> simp +contextual (maxDischargeDepth := 60) [Keep]

end Sys2Proof.Machine
end

