-- ==== Sys2Proof/Laws/KeepBufferCmds.lean ====
section
/-! SUPPORT. What the operations and meanings of Sys2Proof/Machine/BufferCmds.lean leave as it was. -/

namespace Sys2Proof.Machine
set_option Elab.async false

@[simp] theorem execBufferRelease_keep (p : Fin 16) (buf : BitVec 24) (o : Owner) (s : State) : KeepNext s (execBufferRelease p buf o s) := by
  simp only [execBufferRelease]
  split
  · rename_i t h
    rw [keepNext_next]
    exact State.releaseBuf_keep _ _ _ t h
  · exact (keepNext_next ..).mpr (State.releaseViolation_keep ..)

@[simp] theorem execBufferShare_keep (p : Fin 16) (buf : BitVec 24) (o : Owner) (s : State) : KeepNext s (execBufferShare p buf o s) := by
  simp only [execBufferShare]
  (repeat' split) <;> simp +contextual (maxDischargeDepth := 60) [Keep]

@[simp] theorem execQuotaLimitWrite_keep (r : ReqId) (limit : BitVec 24) (s : State) : KeepNext s (execQuotaLimitWrite r limit s) := by
  simp only [execQuotaLimitWrite]
  (repeat' split) <;> simp +contextual (maxDischargeDepth := 60) [Keep]

@[simp] theorem State.failWaiting_keep (s : State) (p : Fin 16) : Keep s (State.failWaiting s p) := by
  simp only [State.failWaiting]
  (repeat' split) <;> simp +contextual (maxDischargeDepth := 60) [Keep]

@[simp] theorem execPoolEnableWrite_keep (p : Fin 16) (v : Bool) (s : State) : KeepNext s (execPoolEnableWrite p v s) := by
  simp only [execPoolEnableWrite]
  (repeat' split) <;> simp +contextual (maxDischargeDepth := 60) [Keep]

@[simp] theorem execBufpoolClearStats_keep (s : State) : KeepNext s (execBufpoolClearStats s) := by
  simp only [execBufpoolClearStats]
  (repeat' split) <;> simp +contextual (maxDischargeDepth := 60) [Keep]

end Sys2Proof.Machine
end

