-- ==== Sys2Proof/Laws/KeepEngineOps.lean ====
section
/-! SUPPORT. What the operations and meanings of Sys2Proof/Machine/EngineOps.lean leave as it was. -/

namespace Sys2Proof.Machine
set_option Elab.async false

@[simp] theorem State.claimSpare_keep (s : State) (own : HeadId) : Keep s (State.claimSpare s own) := by
  simp only [State.claimSpare]
  (repeat' split) <;> simp +contextual (maxDischargeDepth := 60) [Keep]

@[simp] theorem State.beginMove_keep (s : State) (g : HeadId) (l : Fin 6) (driving : Bool) : Keep s (State.beginMove s g l driving) := by
  simp only [State.beginMove]
  (repeat' split) <;> simp +contextual (maxDischargeDepth := 60) [Keep]

@[simp] theorem State.overtakeMove_keep (s : State) (g : HeadId) (l : Fin 6) : Keep s (State.overtakeMove s g l) := by
  simp only [State.overtakeMove]
  (repeat' split) <;> simp +contextual (maxDischargeDepth := 60) [Keep]

@[simp] theorem State.giveSpares_keep (s : State) (g : HeadId) : Keep s (State.giveSpares s g) := by
  simp only [State.giveSpares]
  (repeat' split) <;> simp +contextual (maxDischargeDepth := 60) [Keep]

@[simp] theorem State.stepMove_keep (s : State) (g : HeadId) : Keep s (State.stepMove s g) := by
  simp only [State.stepMove]
  (repeat' split) <;> simp +contextual (maxDischargeDepth := 60) [Keep]

end Sys2Proof.Machine
end

