-- ==== Sys2Proof/Laws/KeepSessionOps.lean ====
section
/-! SUPPORT. What the operations and meanings of Sys2Proof/Machine/SessionOps.lean leave as it was. -/

namespace Sys2Proof.Machine
set_option Elab.async false

@[simp] theorem State.eachHead_keep (s : State) (b : BayId) (f : State → HeadId → State) (h : ∀ t g, Keep t (f t g)) :
    Keep s (State.eachHead s b f) := by
  simp only [State.eachHead]
  first
    | exact foldl_keep _ h _ _
    | exact (h _ _).trans (h _ _)

@[simp] theorem State.spindleRefuse_keep (s : State) (b : BayId) : Keep s (State.spindleRefuse s b) := by
  simp only [State.spindleRefuse]
  (repeat' split) <;> simp +contextual (maxDischargeDepth := 60) [Keep]

@[simp] theorem State.spindleStopped_keep (s : State) (b : BayId) : Keep s (State.spindleStopped s b) := by
  simp only [State.spindleStopped]
  (repeat' split) <;> simp +contextual (maxDischargeDepth := 60) [Keep]

@[simp] theorem State.spindleStop_keep (s : State) (b : BayId) (next fault : Bool) (cause : BitVec 4) : Keep s (State.spindleStop s b next fault cause) := by
  simp only [State.spindleStop]
  (repeat' split) <;> simp +contextual (maxDischargeDepth := 60) [Keep]

@[simp] theorem State.loseSpindle_keep (s : State) (b : BayId) : Keep s (State.loseSpindle s b) := by
  simp only [State.loseSpindle]
  (repeat' split) <;> simp +contextual (maxDischargeDepth := 60) [Keep]

@[simp] theorem State.spindleFault_keep (s : State) (b : BayId) (cause : BitVec 4) : Keep s (State.spindleFault s b cause) := by
  simp only [State.spindleFault]
  (repeat' split) <;> simp +contextual (maxDischargeDepth := 60) [Keep]

@[simp] theorem State.classChange_keep (s : State) (b : BayId) (before : Bool) : Keep s (State.classChange s b before) := by
  simp only [State.classChange]
  repeat' first
    | exact Keep.refl _
    | assumption
    | exact id
    | rw [keepNext_next]
    | (simp +contextual (maxDischargeDepth := 60) [Keep]; done)
    | split
    | refine Keep.trans ?_ (foldl_keep _ (fun _ _ => ?_) _ _)
    | refine Keep.trans ?_ (State.loadRunout_keep ..)
    | refine Keep.trans ?_ (State.eachHead_keep _ _ _ (fun _ _ => ?_))

@[simp] theorem State.setTarget_keep (s : State) (b : BayId) (rpm : Nat) : Keep s (State.setTarget s b rpm) := by
  simp only [State.setTarget]
  (repeat' split) <;> simp +contextual (maxDischargeDepth := 60) [Keep]

@[simp] theorem State.slowDown_keep (s : State) (b : BayId) : Keep s (State.slowDown s b) := by
  simp only [State.slowDown]
  (repeat' split) <;> simp +contextual (maxDischargeDepth := 60) [Keep]

@[simp] theorem State.resumeRead_keep (s : State) (b : BayId) : Keep s (State.resumeRead s b) := by
  simp only [State.resumeRead]
  (repeat' split) <;> simp +contextual (maxDischargeDepth := 60) [Keep]

@[simp] theorem State.sessionAsk_keep (s : State) (b : BayId) : Keep s (State.sessionAsk s b) := by
  simp only [State.sessionAsk]
  (repeat' split) <;> simp +contextual (maxDischargeDepth := 60) [Keep]

@[simp] theorem State.setAtSpeed_keep (s : State) (b : BayId) : Keep s (State.setAtSpeed s b) := by
  simp only [State.setAtSpeed]
  (repeat' split) <;> simp +contextual (maxDischargeDepth := 60) [Keep]

@[simp] theorem State.revolution_keep (s : State) (b : BayId) (good bad : Bool) : Keep s (State.revolution s b good bad) := by
  simp only [State.revolution]
  (repeat' split) <;> simp +contextual (maxDischargeDepth := 60) [Keep]

@[simp] theorem State.wedgeZero_keep (s : State) (b : BayId) (ns : Nat) : Keep s (State.wedgeZero s b ns) := by
  simp only [State.wedgeZero]
  (repeat' split) <;> simp +contextual (maxDischargeDepth := 60) [Keep]

end Sys2Proof.Machine
end

