-- ==== Sys2Proof/Laws/KeepFocus.lean ====
section
/-! SUPPORT. What the operations and meanings of Sys2Proof/Machine/Focus.lean leave as it was. -/

namespace Sys2Proof.Machine
set_option Elab.async false

@[simp] theorem State.focCapture_keep (s : State) (g : HeadId) (v : Q17) : Keep s (State.focCapture s g v) := by
  simp only [State.focCapture]
  (repeat' split) <;> simp +contextual (maxDischargeDepth := 60) [Keep]

@[simp] theorem State.sweepStrobe_keep (s : State) (g : HeadId) (x : Sensed) : Keep s (State.sweepStrobe s g x) := by
  simp only [State.sweepStrobe]
  (repeat' split) <;> simp +contextual (maxDischargeDepth := 60) [Keep]

@[simp] theorem State.recapStrobe_keep (s : State) (g : HeadId) (x : Sensed) : Keep s (State.recapStrobe s g x) := by
  simp only [State.recapStrobe]
  (repeat' split) <;> simp +contextual (maxDischargeDepth := 60) [Keep]

@[simp] theorem State.feLossStrobe_keep (s : State) (g : HeadId) (x : Sensed) : Keep s (State.feLossStrobe s g x) := by
  simp only [State.feLossStrobe]
  (repeat' split) <;> simp +contextual (maxDischargeDepth := 60) [Keep]

@[simp] theorem State.sumRefStrobe_keep (s : State) (g : HeadId) (i : StrobeIn) : Keep s (State.sumRefStrobe s g i) := by
  simp only [State.sumRefStrobe]
  (repeat' split) <;> simp +contextual (maxDischargeDepth := 60) [Keep]

@[simp] theorem State.lockedStrobe_keep (s : State) (g : HeadId) (x : Sensed) (i : StrobeIn) : Keep s (State.lockedStrobe s g x i) := by
  simp only [State.lockedStrobe]
  (repeat' split) <;> simp +contextual (maxDischargeDepth := 60) [Keep]

@[simp] theorem State.jumpStrobe_keep (s : State) (g : HeadId) (x : Sensed) : Keep s (State.jumpStrobe s g x) := by
  simp only [State.jumpStrobe]
  (repeat' split) <;> simp +contextual (maxDischargeDepth := 60) [Keep]

@[simp] theorem State.focStrobe_keep (s : State) (g : HeadId) (x : Sensed) (i : StrobeIn) : Keep s (State.focStrobe s g x i) := by
  simp only [State.focStrobe]
  (repeat' split) <;> simp +contextual (maxDischargeDepth := 60) [Keep]

@[simp] theorem State.identified_keep (s : State) (g : HeadId) (sl : BitVec 5) : Keep s (State.identified s g sl) := by
  simp only [State.identified]
  (repeat' split) <;> simp +contextual (maxDischargeDepth := 60) [Keep]

@[simp] theorem State.focHeader_keep (s : State) (g : HeadId) (sl : BitVec 5) : Keep s (State.focHeader s g sl) := by
  simp only [State.focHeader]
  (repeat' split) <;> simp +contextual (maxDischargeDepth := 60) [Keep]

@[simp] theorem State.tiltUpdate_keep (s : State) (g : HeadId) (e : Option Int) : Keep s (State.tiltUpdate s g e) := by
  simp only [State.tiltUpdate]
  (repeat' split) <;> simp +contextual (maxDischargeDepth := 60) [Keep]

@[simp] theorem execFocAcqStart_keep (g : HeadId) (s : State) : KeepNext s (execFocAcqStart g s) := by
  simp only [execFocAcqStart]
  (repeat' split) <;> simp +contextual (maxDischargeDepth := 60) [Keep]

@[simp] theorem execCaptureTimeout_keep (g : HeadId) (s : State) : KeepNext s (execCaptureTimeout g s) := by
  simp only [execCaptureTimeout]
  (repeat' split) <;> simp +contextual (maxDischargeDepth := 60) [Keep]

@[simp] theorem execIdentifyTimeout_keep (g : HeadId) (s : State) : KeepNext s (execIdentifyTimeout g s) := by
  simp only [execIdentifyTimeout]
  (repeat' split) <;> simp +contextual (maxDischargeDepth := 60) [Keep]

@[simp] theorem execJumpKickEnd_keep (g : HeadId) (s : State) : KeepNext s (execJumpKickEnd g s) := by
  simp only [execJumpKickEnd]
  (repeat' split) <;> simp +contextual (maxDischargeDepth := 60) [Keep]

@[simp] theorem execJumpCoastTimeout_keep (g : HeadId) (s : State) : KeepNext s (execJumpCoastTimeout g s) := by
  simp only [execJumpCoastTimeout]
  (repeat' split) <;> simp +contextual (maxDischargeDepth := 60) [Keep]

@[simp] theorem execJumpBrakeEnd_keep (g : HeadId) (s : State) : KeepNext s (execJumpBrakeEnd g s) := by
  simp only [execJumpBrakeEnd]
  (repeat' split) <;> simp +contextual (maxDischargeDepth := 60) [Keep]

@[simp] theorem execJumpLockTimeout_keep (g : HeadId) (s : State) : KeepNext s (execJumpLockTimeout g s) := by
  simp only [execJumpLockTimeout]
  (repeat' split) <;> simp +contextual (maxDischargeDepth := 60) [Keep]

@[simp] theorem execJumpSettleEnd_keep (g : HeadId) (s : State) : KeepNext s (execJumpSettleEnd g s) := by
  simp only [execJumpSettleEnd]
  (repeat' split) <;> simp +contextual (maxDischargeDepth := 60) [Keep]

@[simp] theorem execDefectHoldTimeout_keep (g : HeadId) (s : State) : KeepNext s (execDefectHoldTimeout g s) := by
  simp only [execDefectHoldTimeout]
  (repeat' split) <;> simp +contextual (maxDischargeDepth := 60) [Keep]

@[simp] theorem execRecaptureTimeout_keep (g : HeadId) (s : State) : KeepNext s (execRecaptureTimeout g s) := by
  simp only [execRecaptureTimeout]
  (repeat' split) <;> simp +contextual (maxDischargeDepth := 60) [Keep]

@[simp] theorem execFocCommit_keep (g : HeadId) (s : State) : KeepNext s (execFocCommit g s) := by
  simp only [execFocCommit]
  (repeat' split) <;> simp +contextual (maxDischargeDepth := 60) [Keep]

end Sys2Proof.Machine
end

