-- ==== Sys2Proof/Laws/KeepTracking.lean ====
section
/-! SUPPORT. What the operations and meanings of Sys2Proof/Machine/Tracking.lean leave as it was. -/

namespace Sys2Proof.Machine
set_option Elab.async false

@[simp] theorem State.acquireStrobe_keep (s : State) (g : HeadId) (x : Sensed) (cross : Bool) (interval : Nat) : Keep s (State.acquireStrobe s g x cross interval) := by
  simp only [State.acquireStrobe]
  (repeat' split) <;> simp +contextual (maxDischargeDepth := 60) [Keep]

@[simp] theorem State.lensStrobe_keep (s : State) (g : HeadId) (x : Sensed) (cross : Bool) (interval : Nat) (j : LensJump) : Keep s (State.lensStrobe s g x cross interval j) := by
  simp only [State.lensStrobe]
  (repeat' split) <;> simp +contextual (maxDischargeDepth := 60) [Keep]

@[simp] theorem State.followStrobe_keep (s : State) (g : HeadId) (x : Sensed) : Keep s (State.followStrobe s g x) := by
  simp only [State.followStrobe]
  (repeat' split) <;> simp +contextual (maxDischargeDepth := 60) [Keep]

@[simp] theorem State.trkStrobe_keep (s : State) (g : HeadId) (x : Sensed) : Keep s (State.trkStrobe s g x) := by
  simp only [State.trkStrobe]
  (repeat' split) <;> simp +contextual (maxDischargeDepth := 60) [Keep]

@[simp] theorem State.confirmAt_keep (s : State) (g : HeadId) (m : Int) : Keep s (State.confirmAt s g m) := by
  simp only [State.confirmAt]
  (repeat' split) <;> simp +contextual (maxDischargeDepth := 60) [Keep]

@[simp] theorem State.trkHeader_keep (s : State) (g : HeadId) (k : BeamId) (h : HeaderIn) (track : BitVec 18) : Keep s (State.trkHeader s g k h track) := by
  simp only [State.trkHeader]
  (repeat' split) <;> simp +contextual (maxDischargeDepth := 60) [Keep]

@[simp] theorem State.picotEnd_keep (s : State) (g : HeadId) : Keep s (State.picotEnd s g) := by
  simp only [State.picotEnd]
  (repeat' split) <;> simp +contextual (maxDischargeDepth := 60) [Keep]

@[simp] theorem State.beamCheck_keep (s : State) (g : HeadId) : Keep s (State.beamCheck s g) := by
  simp only [State.beamCheck]
  (repeat' split) <;> simp +contextual (maxDischargeDepth := 60) [Keep]

@[simp] theorem State.runoutWedge_keep (s : State) (g : HeadId) (l : Fin 3) (v : Nat) : Keep s (State.runoutWedge s g l v) := by
  simp only [State.runoutWedge]
  (repeat' split) <;> simp +contextual (maxDischargeDepth := 60) [Keep]

@[simp] theorem State.runoutTurn_keep (s : State) (g : HeadId) (l : Fin 3) : Keep s (State.runoutTurn s g l) := by
  simp only [State.runoutTurn]
  (repeat' split) <;> simp +contextual (maxDischargeDepth := 60) [Keep]

@[simp] theorem State.holdJump_keep (s : State) (g : HeadId) : Keep s (State.holdJump s g) := by
  simp only [State.holdJump]
  (repeat' split) <;> simp +contextual (maxDischargeDepth := 60) [Keep]

@[simp] theorem State.headWedge_keep (s : State) (g : HeadId) (v w : Nat) : Keep s (State.headWedge s g v w) := by
  simp only [State.headWedge]
  (repeat' split) <;> simp +contextual (maxDischargeDepth := 60) [Keep]

@[simp] theorem execTrkAcqStart_keep (g : HeadId) (s : State) : KeepNext s (execTrkAcqStart g s) := by
  simp only [execTrkAcqStart]
  (repeat' split) <;> simp +contextual (maxDischargeDepth := 60) [Keep]

@[simp] theorem execTrkRebuild_keep (g : HeadId) (s : State) : KeepNext s (execTrkRebuild g s) := by
  simp only [execTrkRebuild]
  (repeat' split) <;> simp +contextual (maxDischargeDepth := 60) [Keep]

@[simp] theorem execTrackPullinTimeout_keep (g : HeadId) (s : State) : KeepNext s (execTrackPullinTimeout g s) := by
  simp only [execTrackPullinTimeout]
  (repeat' split) <;> simp +contextual (maxDischargeDepth := 60) [Keep]

@[simp] theorem execAcqTimeout_keep (g : HeadId) (s : State) : KeepNext s (execAcqTimeout g s) := by
  simp only [execAcqTimeout]
  (repeat' split) <;> simp +contextual (maxDischargeDepth := 60) [Keep]

@[simp] theorem execConfirmTimeout_keep (g : HeadId) (s : State) : KeepNext s (execConfirmTimeout g s) := by
  simp only [execConfirmTimeout]
  (repeat' split) <;> simp +contextual (maxDischargeDepth := 60) [Keep]

@[simp] theorem execLensKickTimeout_keep (g : HeadId) (s : State) : KeepNext s (execLensKickTimeout g s) := by
  simp only [execLensKickTimeout]
  (repeat' split) <;> simp +contextual (maxDischargeDepth := 60) [Keep]

@[simp] theorem execLensBrakeTimeout_keep (g : HeadId) (s : State) : KeepNext s (execLensBrakeTimeout g s) := by
  simp only [execLensBrakeTimeout]
  (repeat' split) <;> simp +contextual (maxDischargeDepth := 60) [Keep]

@[simp] theorem execLensLockTimeout_keep (g : HeadId) (s : State) : KeepNext s (execLensLockTimeout g s) := by
  simp only [execLensLockTimeout]
  (repeat' split) <;> simp +contextual (maxDischargeDepth := 60) [Keep]

@[simp] theorem State.seekMove_keep (s : State) (g : HeadId) : Keep s (State.seekMove s g) := by
  simp only [State.seekMove]
  (repeat' split) <;> simp +contextual (maxDischargeDepth := 60) [Keep]

@[simp] theorem execSeekStart_keep (g : HeadId) (s : State) : KeepNext s (execSeekStart g s) := by
  simp only [execSeekStart]
  (repeat' split) <;> simp +contextual (maxDischargeDepth := 60) [Keep]

@[simp] theorem execSledSettleEnd_keep (g : HeadId) (s : State) : KeepNext s (execSledSettleEnd g s) := by
  simp only [execSledSettleEnd]
  (repeat' split) <;> simp +contextual (maxDischargeDepth := 60) [Keep]

@[simp] theorem execBlendEnd_keep (g : HeadId) (l : Fin 3) (s : State) : KeepNext s (execBlendEnd g l s) := by
  simp only [execBlendEnd]
  (repeat' split) <;> simp +contextual (maxDischargeDepth := 60) [Keep]

@[simp] theorem execRunoutFetchDone_keep (g : HeadId) (l : Fin 3) (ok : Bool) (s : State) : KeepNext s (execRunoutFetchDone g l ok s) := by
  simp only [execRunoutFetchDone]
  (repeat' split) <;> simp +contextual (maxDischargeDepth := 60) [Keep]

@[simp] theorem execTrkCommit_keep (g : HeadId) (s : State) : KeepNext s (execTrkCommit g s) := by
  simp only [execTrkCommit]
  (repeat' split) <;> simp +contextual (maxDischargeDepth := 60) [Keep]

end Sys2Proof.Machine
end

