-- ==== Sys2Proof/Laws/KeepMailbox.lean ====
section
/-! SUPPORT. What the operations and meanings of Sys2Proof/Machine/Mailbox.lean leave as it was. -/

namespace Sys2Proof.Machine
set_option Elab.async false

@[simp] theorem State.addReq_keep (s : State) (b : BayId) (r : MailReq) : Keep s (State.addReq s b r) := by
  simp only [State.addReq]
  (repeat' split) <;> simp +contextual (maxDischargeDepth := 60) [Keep]

@[simp] theorem State.setStage_keep (s : State) (b : BayId) (tag : BitVec 16) (g : HeadId) (st : ReqStage) : Keep s (State.setStage s b tag g st) := by
  simp only [State.setStage]
  (repeat' split) <;> simp +contextual (maxDischargeDepth := 60) [Keep]

@[simp] theorem State.actPosition_keep (s : State) (g : HeadId) (tag : BitVec 16) (sl : BitVec 5) (track : BitVec 18) (k : BeamId) : Keep s (State.actPosition s g tag sl track k) := by
  simp only [State.actPosition]
  (repeat' split) <;> simp +contextual (maxDischargeDepth := 60) [Keep]

@[simp] theorem State.servePosition_keep (s : State) (g : HeadId) : Keep s (State.servePosition s g) := by
  simp only [State.servePosition]
  (repeat' split) <;> simp +contextual (maxDischargeDepth := 60) [Keep]

@[simp] theorem State.serveHead_keep (s : State) (g : HeadId) : Keep s (State.serveHead s g) := by
  simp only [State.serveHead]
  (repeat' split) <;> simp +contextual (maxDischargeDepth := 60) [Keep]

@[simp] theorem execPosition_keep (b : BayId) (tag : BitVec 16) (h : Fin 2) (sl : BitVec 5) (track : BitVec 18) (k : BeamId) (s : State) : KeepNext s (execPosition b tag h sl track k s) := by
  simp only [execPosition]
  (repeat' split) <;> simp +contextual (maxDischargeDepth := 60) [Keep]

@[simp] theorem execReadWindow_keep (b : BayId) (tag : BitVec 16) (h : Fin 2) (track : BitVec 18) (frame count : BitVec 32) (s : State) : KeepNext s (execReadWindow b tag h track frame count s) := by
  simp only [execReadWindow]
  (repeat' split) <;> simp +contextual (maxDischargeDepth := 60) [Keep]

@[simp] theorem execWriteWindow_keep (b : BayId) (tag : BitVec 16) (h : Fin 2) (track : BitVec 18) (frame count : BitVec 32) (s : State) : KeepNext s (execWriteWindow b tag h track frame count s) := by
  simp only [execWriteWindow]
  (repeat' split) <;> simp +contextual (maxDischargeDepth := 60) [Keep]

@[simp] theorem State.cancelPosition_keep (s : State) (g : HeadId) : Keep s (State.cancelPosition s g) := by
  simp only [State.cancelPosition]
  (repeat' split) <;> simp +contextual (maxDischargeDepth := 60) [Keep]

@[simp] theorem execCancel_keep (b : BayId) (tag : BitVec 16) (s : State) : KeepNext s (execCancel b tag s) := by
  simp only [execCancel]
  (repeat' split) <;> simp +contextual (maxDischargeDepth := 60) [Keep]

end Sys2Proof.Machine
end

