-- ==== Sys2Proof/Laws/KeepReadChannel.lean ====
section
/-! SUPPORT. What the operations and meanings of Sys2Proof/Machine/ReadChannel.lean leave as it was. -/

namespace Sys2Proof.Machine
set_option Elab.async false

@[simp] theorem State.adoptBeam_keep (s : State) (g : HeadId) (k : BeamId) : Keep s (State.adoptBeam s g k) := by
  simp only [State.adoptBeam]
  (repeat' split) <;> simp +contextual (maxDischargeDepth := 60) [Keep]

@[simp] theorem State.collect_keep (s : State) : Keep s (State.collect s) := by
  simp only [State.collect]
  (repeat' split) <;> simp +contextual (maxDischargeDepth := 60) [Keep]

@[simp] theorem State.deliver_keep (s : State) (g : HeadId) (k : BeamId) (num : Nat) (at_ : Int) (st : FrameStatus) (mismatch erased : Bool) (alt : Option Int) (raw : List Int) : Keep s (State.deliver s g k num at_ st mismatch erased alt raw) := by
  simp only [State.deliver]
  (repeat' split) <;> simp +contextual (maxDischargeDepth := 60) [Keep]

@[simp] theorem State.toResync_keep (s : State) (g : HeadId) (k : BeamId) : Keep s (State.toResync s g k) := by
  simp only [State.toResync]
  (repeat' split) <;> simp +contextual (maxDischargeDepth := 60) [Keep]

@[simp] theorem State.anchor_keep (s : State) (g : HeadId) (k : BeamId) (d : Int) : Keep s (State.anchor s g k d) := by
  simp only [State.anchor]
  (repeat' split) <;> simp +contextual (maxDischargeDepth := 60) [Keep]

@[simp] theorem State.nextSync_keep (s : State) (g : HeadId) (k : BeamId) : Keep s (State.nextSync s g k) := by
  simp only [State.nextSync]
  (repeat' split) <;> simp +contextual (maxDischargeDepth := 60) [Keep]

@[simp] theorem State.missFrame_keep (s : State) (g : HeadId) (k : BeamId) (num : Nat) (at_ : Int) (mismatch blank : Bool) (alt : Option Int) (raw : List Int) : Keep s (State.missFrame s g k num at_ mismatch blank alt raw) := by
  simp only [State.missFrame]
  (repeat' split) <;> simp +contextual (maxDischargeDepth := 60) [Keep]

@[simp] theorem State.judge_keep (s : State) (g : HeadId) (k : BeamId) (i : SyncIn) (cand : Option (Int × Fin 4)) : Keep s (State.judge s g k i cand) := by
  simp only [State.judge]
  (repeat' split) <;> simp +contextual (maxDischargeDepth := 60) [Keep]

@[simp] theorem State.unresolved_keep (s : State) (g : HeadId) (k : BeamId) (p : PendFrame) : Keep s (State.unresolved s g k p) := by
  simp only [State.unresolved]
  (repeat' split) <;> simp +contextual (maxDischargeDepth := 60) [Keep]

@[simp] theorem State.resolveAt_keep (s : State) (g : HeadId) (k : BeamId) (i : SyncIn) (d : Int) (ty : Fin 4) : Keep s (State.resolveAt s g k i d ty) := by
  simp only [State.resolveAt]
  (repeat' split) <;> simp +contextual (maxDischargeDepth := 60) [Keep]

@[simp] theorem State.challenge_keep (s : State) (g : HeadId) (k : BeamId) (i : SyncIn) (p : PendFrame) (cand : Option (Int × Fin 4)) : Keep s (State.challenge s g k i p cand) := by
  simp only [State.challenge]
  (repeat' split) <;> simp +contextual (maxDischargeDepth := 60) [Keep]

@[simp] theorem execBeamWindowStart_keep (g : HeadId) (k : BeamId) (s : State) : KeepNext s (execBeamWindowStart g k s) := by
  simp only [execBeamWindowStart]
  (repeat' split) <;> simp +contextual (maxDischargeDepth := 60) [Keep]

@[simp] theorem execBeamWindowEnd_keep (g : HeadId) (k : BeamId) (s : State) : KeepNext s (execBeamWindowEnd g k s) := by
  simp only [execBeamWindowEnd]
  (repeat' split) <;> simp +contextual (maxDischargeDepth := 60) [Keep]

@[simp] theorem execWedgeHeader_keep (g : HeadId) (k : BeamId) (h : HeaderIn) (s : State) : KeepNext s (execWedgeHeader g k h s) := by
  simp only [execWedgeHeader]
  (repeat' split) <;> simp +contextual (maxDischargeDepth := 60) [Keep]

@[simp] theorem execSyncSearch_keep (g : HeadId) (k : BeamId) (i : SyncIn) (s : State) : KeepNext s (execSyncSearch g k i s) := by
  simp only [execSyncSearch]
  (repeat' split) <;> simp +contextual (maxDischargeDepth := 60) [Keep]

@[simp] theorem execDefectStart_keep (g : HeadId) (k : BeamId) (at_ : BitVec 32) (s : State) : KeepNext s (execDefectStart g k at_ s) := by
  simp only [execDefectStart]
  (repeat' split) <;> simp +contextual (maxDischargeDepth := 60) [Keep]

@[simp] theorem State.longDefect_keep (s : State) (g : HeadId) (k : BeamId) : Keep s (State.longDefect s g k) := by
  simp only [State.longDefect]
  (repeat' split) <;> simp +contextual (maxDischargeDepth := 60) [Keep]

@[simp] theorem execDefectEnd_keep (g : HeadId) (k : BeamId) (at_ : BitVec 32) (coastBits : BitVec 16) (s : State) : KeepNext s (execDefectEnd g k at_ coastBits s) := by
  simp only [execDefectEnd]
  (repeat' split) <;> simp +contextual (maxDischargeDepth := 60) [Keep]

@[simp] theorem execCoastLimit_keep (g : HeadId) (k : BeamId) (s : State) : KeepNext s (execCoastLimit g k s) := by
  simp only [execCoastLimit]
  (repeat' split) <;> simp +contextual (maxDischargeDepth := 60) [Keep]

@[simp] theorem execResliceRequest_keep (g : HeadId) (k : BeamId) (frame : BitVec 32) (offset : BitVec 6) (s : State) : KeepNext s (execResliceRequest g k frame offset s) := by
  simp only [execResliceRequest]
  (repeat' split) <;> simp +contextual (maxDischargeDepth := 60) [Keep]

@[simp] theorem State.commitChan_keep (s : State) (g : HeadId) : Keep s (State.commitChan s g) := by
  simp only [State.commitChan]
  (repeat' split) <;> simp +contextual (maxDischargeDepth := 60) [Keep]

@[simp] theorem execChanCommit_keep (g : HeadId) (s : State) : KeepNext s (execChanCommit g s) := by
  simp only [execChanCommit]
  (repeat' split) <;> simp +contextual (maxDischargeDepth := 60) [Keep]

@[simp] theorem execChanClearStats_keep (g : HeadId) (s : State) : KeepNext s (execChanClearStats g s) := by
  simp only [execChanClearStats]
  (repeat' split) <;> simp +contextual (maxDischargeDepth := 60) [Keep]

end Sys2Proof.Machine
end

