-- ==== Sys2Proof/Laws/KeepWedge.lean ====
section
/-! SUPPORT. What the operations and meanings of Sys2Proof/Machine/Wedge.lean leave as it was. -/

namespace Sys2Proof.Machine
set_option Elab.async false

@[simp] theorem State.fixRecord_keep (s : State) (e : Extent) (at_ : Nat) : Keep s (State.fixRecord s e at_) := by
  simp only [State.fixRecord]
  (repeat' split) <;> simp +contextual (maxDischargeDepth := 60) [Keep]

@[simp] theorem State.startNext_keep (s : State) (g : HeadId) (w : WindowPos) : Keep s (State.startNext s g w) := by
  simp only [State.startNext]
  (repeat' split) <;> simp +contextual (maxDischargeDepth := 60) [Keep]

@[simp] theorem State.markWritten_keep (s : State) (g : HeadId) (w : WindowPos) (done : Nat) : Keep s (State.markWritten s g w done) := by
  simp only [State.markWritten]
  (repeat' split) <;> simp +contextual (maxDischargeDepth := 60) [Keep]

@[simp] theorem State.recordStep_keep (s : State) (g : HeadId) (w : WindowPos) : Keep s (State.recordStep s g w) := by
  simp only [State.recordStep]
  (repeat' split) <;> simp +contextual (maxDischargeDepth := 60) [Keep]

@[simp] theorem State.streamWedge_keep (s : State) (g : HeadId) (done : Nat) (ns : Nat) : Keep s (State.streamWedge s g done ns) := by
  simp only [State.streamWedge]
  (repeat' split) <;> simp +contextual (maxDischargeDepth := 60) [Keep]

@[simp] theorem State.startWindows_keep (s : State) (b : BayId) (w : Nat) : Keep s (State.startWindows s b w) := by
  simp only [State.startWindows]
  (repeat' split) <;> simp +contextual (maxDischargeDepth := 60) [Keep]

@[simp] theorem State.endWrite_keep (s : State) (g : HeadId) : Keep s (State.endWrite s g) := by
  simp only [State.endWrite]
  repeat' first
    | exact Keep.refl _
    | assumption
    | exact id
    | rw [keepNext_next]
    | (simp +contextual (maxDischargeDepth := 60) [Keep]; done)
    | split
    | refine Keep.trans ?_ (foldl_keep _ (fun _ _ => ?_) _ _)
    | refine Keep.trans ?_ (State.modHead_keep ..)
    | refine Keep.trans ?_ (State.modWr_keep ..)
    | refine Keep.trans ?_ (State.raiseHigh_keep ..)
    | refine Keep.trans ?_ (State.failCluster_keep ..)

@[simp] theorem State.closeOver_keep (s : State) (g : HeadId) : Keep s (State.closeOver s g) := by
  simp only [State.closeOver]
  (repeat' split) <;> simp +contextual (maxDischargeDepth := 60) [Keep]

@[simp] theorem execWedgeTick_keep (b : BayId) (w : BitVec 10) (revNs : BitVec 32) (s : State) : KeepNext s (execWedgeTick b w revNs s) := by
  simp only [execWedgeTick]
  (repeat' split) <;> simp +contextual (maxDischargeDepth := 60) [Keep]

end Sys2Proof.Machine
end

