-- ==== Sys2Proof/Laws/KeepRecording.lean ====
section
/-! SUPPORT. What the operations and meanings of Sys2Proof/Machine/Recording.lean leave as it was. -/

namespace Sys2Proof.Machine
set_option Elab.async false

@[simp] theorem execWritingEntry_keep (b : BayId) (s : State) : KeepNext s (execWritingEntry b s) := by
  simp only [execWritingEntry]
  (repeat' split) <;> simp +contextual (maxDischargeDepth := 60) [Keep]

@[simp] theorem execSessionIdleExpiry_keep (g : HeadId) (s : State) : KeepNext s (execSessionIdleExpiry g s) := by
  simp only [execSessionIdleExpiry]
  (repeat' split) <;> simp +contextual (maxDischargeDepth := 60) [Keep]

@[simp] theorem State.startStreams_keep (s : State) (g : HeadId) (sl : BitVec 5) (track frame : Nat) (runs : Vector (List (BitVec 4 × BitVec 4)) 4) : Keep s (State.startStreams s g sl track frame runs) := by
  simp only [State.startStreams]
  (repeat' split) <;> simp +contextual (maxDischargeDepth := 60) [Keep]

@[simp] theorem State.relocateMissed_keep (s : State) (g : HeadId) (frame : Nat) : Keep s (State.relocateMissed s g frame) := by
  simp only [State.relocateMissed]
  (repeat' split) <;> simp +contextual (maxDischargeDepth := 60) [Keep]

@[simp] theorem State.closeHead_keep (s : State) (g : HeadId) : Keep s (State.closeHead s g) := by
  simp only [State.closeHead]
  (repeat' split) <;> simp +contextual (maxDischargeDepth := 60) [Keep]

@[simp] theorem execWriteWindowOpen_keep (g : HeadId) (runs : Vector (List (BitVec 4 × BitVec 4)) 4) (s : State) : KeepNext s (execWriteWindowOpen g runs s) := by
  simp only [execWriteWindowOpen]
  (repeat' split) <;> simp +contextual (maxDischargeDepth := 60) [Keep]

@[simp] theorem execOpcNow_keep (g : HeadId) (s : State) : KeepNext s (execOpcNow g s) := by
  simp only [execOpcNow]
  (repeat' split) <;> simp +contextual (maxDischargeDepth := 60) [Keep]

@[simp] theorem execOpcRunStart_keep (g : HeadId) (outer : Bool) (turn : BitVec 10) (s : State) : KeepNext s (execOpcRunStart g outer turn s) := by
  simp only [execOpcRunStart]
  (repeat' split) <;> simp +contextual (maxDischargeDepth := 60) [Keep]

@[simp] theorem State.putOpc_keep (s : State) (g : HeadId) (k : BeamId) (run : OpcRun) (p : Nat) : Keep s (State.putOpc s g k run p) := by
  simp only [State.putOpc]
  (repeat' split) <;> simp +contextual (maxDischargeDepth := 60) [Keep]

@[simp] theorem execOpcRunDone_keep (g : HeadId) (k : BeamId) (steps : Vector OpcStep 8) (s : State) : KeepNext s (execOpcRunDone g k steps s) := by
  simp only [execOpcRunDone]
  (repeat' split) <;> simp +contextual (maxDischargeDepth := 60) [Keep]

@[simp] theorem execCodewordVerdict_keep (seq : BitVec 64) (cluster : Fin 72) (cw : Fin 32) (w : BitVec 12) (frameFailed : Bool) (headers : Option CopyRead) (s : State) : KeepNext s (execCodewordVerdict seq cluster cw w frameFailed headers s) := by
  simp only [execCodewordVerdict]
  (repeat' split) <;> simp +contextual (maxDischargeDepth := 60) [Keep]

@[simp] theorem execRecordVerdict_keep (seq : BitVec 64) (copies : Vector CopyRead 4) (s : State) : KeepNext s (execRecordVerdict seq copies s) := by
  simp only [execRecordVerdict]
  (repeat' split) <;> simp +contextual (maxDischargeDepth := 60) [Keep]

@[simp] theorem State.anchorDone_keep (s : State) (d : BitVec 128) (ok : Bool) : Keep s (State.anchorDone s d ok) := by
  simp only [State.anchorDone]
  repeat' first
    | exact Keep.refl _
    | assumption
    | exact id
    | rw [keepNext_next]
    | (simp +contextual (maxDischargeDepth := 60) [Keep]; done)
    | split
    | refine Keep.trans ?_ (foldl_keep _ (fun _ _ => ?_) _ _)
    | refine Keep.trans ?_ (State.modCmd_keep ..)
    | refine Keep.trans ?_ (State.finish_keep ..)

@[simp] theorem State.appendAnchor_keep (s : State) (b : BayId) (copies rewrites : Vector (Vector CopyRead 4) 3) : Keep s (State.appendAnchor s b copies rewrites) := by
  simp only [State.appendAnchor]
  (repeat' split) <;> simp +contextual (maxDischargeDepth := 60) [Keep]

@[simp] theorem State.endMount_keep (s : State) (b : BayId) : Keep s (State.endMount s b) := by
  simp only [State.endMount]
  (repeat' split) <;> simp +contextual (maxDischargeDepth := 60) [Keep]

@[simp] theorem execAnchorAppend_keep (b : BayId) (copies rewrites : Vector (Vector CopyRead 4) 3) (s : State) : KeepNext s (execAnchorAppend b copies rewrites s) := by
  simp only [execAnchorAppend]
  (repeat' split) <;> simp +contextual (maxDischargeDepth := 60) [Keep]

@[simp] theorem execMapCheckpoint_keep (b : BayId) (sl : BitVec 5) (frame : BitVec 32) (s : State) : KeepNext s (execMapCheckpoint b sl frame s) := by
  simp only [execMapCheckpoint]
  (repeat' split) <;> simp +contextual (maxDischargeDepth := 60) [Keep]

@[simp] theorem State.commitWr_keep (s : State) (g : HeadId) : Keep s (State.commitWr s g) := by
  simp only [State.commitWr]
  (repeat' split) <;> simp +contextual (maxDischargeDepth := 60) [Keep]

@[simp] theorem State.commitVchan_keep (s : State) (g : HeadId) : Keep s (State.commitVchan s g) := by
  simp only [State.commitVchan]
  (repeat' split) <;> simp +contextual (maxDischargeDepth := 60) [Keep]

@[simp] theorem execWrCommit_keep (g : HeadId) (s : State) : KeepNext s (execWrCommit g s) := by
  simp only [execWrCommit]
  (repeat' split) <;> simp +contextual (maxDischargeDepth := 60) [Keep]

@[simp] theorem execVchanCommit_keep (g : HeadId) (s : State) : KeepNext s (execVchanCommit g s) := by
  simp only [execVchanCommit]
  (repeat' split) <;> simp +contextual (maxDischargeDepth := 60) [Keep]

@[simp] theorem execVchanClearStats_keep (g : HeadId) (s : State) : KeepNext s (execVchanClearStats g s) := by
  simp only [execVchanClearStats]
  (repeat' split) <;> simp +contextual (maxDischargeDepth := 60) [Keep]

end Sys2Proof.Machine
end

