-- ==== Sys2Proof/Laws/KeepDecoding.lean ====
section
/-! SUPPORT. What the operations and meanings of Sys2Proof/Machine/Decoding.lean leave as it was. -/

namespace Sys2Proof.Machine
set_option Elab.async false

@[simp] theorem execDecodeStart_keep (i : Fin 20) (s : State) : KeepNext s (execDecodeStart i s) := by
  simp only [execDecodeStart]
  (repeat' split) <;> simp +contextual (maxDischargeDepth := 60) [Keep]

@[simp] theorem State.decoderSpare_keep (s : State) : Keep s (State.decoderSpare s) := by
  simp only [State.decoderSpare]
  (repeat' split) <;> simp +contextual (maxDischargeDepth := 60) [Keep]

@[simp] theorem State.retireDecoder_keep (s : State) (i : Fin 20) : Keep s (State.retireDecoder s i) := by
  simp only [State.retireDecoder]
  (repeat' split) <;> simp +contextual (maxDischargeDepth := 60) [Keep]

@[simp] theorem State.releaseFrames_keep (s : State) (c : Codeword) : Keep s (State.releaseFrames s c) := by
  simp only [State.releaseFrames]
  (repeat' split) <;> simp +contextual (maxDischargeDepth := 60) [Keep]

@[simp] theorem State.passInfo_keep (s : State) (c : Codeword) (info : List Byte) : Keep s (State.passInfo s c info) := by
  simp only [State.passInfo]
  (repeat' split) <;> simp +contextual (maxDischargeDepth := 60) [Keep]

@[simp] theorem State.converge_keep (s : State) (c : Codeword) (info : List Byte) : Keep s (State.converge s c info) := by
  simp only [State.converge]
  (repeat' split) <;> simp +contextual (maxDischargeDepth := 60) [Keep]

@[simp] theorem State.unrecovered_keep (s : State) (c : Codeword) : Keep s (State.unrecovered s c) := by
  simp only [State.unrecovered]
  (repeat' split) <;> simp +contextual (maxDischargeDepth := 60) [Keep]

@[simp] theorem State.commitRaw_keep (s : State) (g : HeadId) (l : List (Nat × Int)) : Keep s (State.commitRaw s g l) := by
  simp only [State.commitRaw]
  (repeat' split) <;> simp +contextual (maxDischargeDepth := 60) [Keep]

@[simp] theorem State.sweepPoint_keep (s : State) (g : HeadId) (x : Sweep) (c : Codeword) (point : Nat) : Keep s (State.sweepPoint s g x c point) := by
  simp only [State.sweepPoint]
  (repeat' split) <;> simp +contextual (maxDischargeDepth := 60) [Keep]

@[simp] theorem State.sweepStartFor_keep (s : State) (c : Codeword) : Keep s (State.sweepStartFor s c) := by
  simp only [State.sweepStartFor]
  (repeat' split) <;> simp +contextual (maxDischargeDepth := 60) [Keep]

@[simp] theorem State.sweepStop_keep (s : State) (g : HeadId) : Keep s (State.sweepStop s g) := by
  simp only [State.sweepStop]
  (repeat' split) <;> simp +contextual (maxDischargeDepth := 60) [Keep]

@[simp] theorem State.enterStep_keep (s : State) (c : Codeword) (n : Nat) : Keep s (State.enterStep s c n) := by
  simp only [State.enterStep]
  (repeat' split) <;> simp +contextual (maxDischargeDepth := 60) [Keep]

@[simp] theorem State.removeCw_keep (s : State) (c : Codeword) : Keep s (State.removeCw s c) := by
  simp only [State.removeCw]
  (repeat' split) <;> simp +contextual (maxDischargeDepth := 60) [Keep]

@[simp] theorem State.climb_keep (s : State) (c : Codeword) : Keep s (State.climb s c) := by
  simp only [State.climb]
  (repeat' split) <;> simp +contextual (maxDischargeDepth := 60) [Keep]

@[simp] theorem State.reread_keep (s : State) (c : Codeword) : Keep s (State.reread s c) := by
  simp only [State.reread]
  (repeat' split) <;> simp +contextual (maxDischargeDepth := 60) [Keep]

@[simp] theorem State.decodeFailed_keep (s : State) (c : Codeword) : Keep s (State.decodeFailed s c) := by
  simp only [State.decodeFailed]
  (repeat' split) <;> simp +contextual (maxDischargeDepth := 60) [Keep]

@[simp] theorem execDecodeDone_keep (i : Fin 20) (decoderOk checkerOk : Bool) (iters : BitVec 6) (unsat : BitVec 12) (info : List Byte) (s : State) : KeepNext s (execDecodeDone i decoderOk checkerOk iters unsat info s) := by
  simp only [execDecodeDone]
  (repeat' split) <;> simp +contextual (maxDischargeDepth := 60) [Keep]

@[simp] theorem execLadderAgeExpiry_keep (cw : BitVec 64) (s : State) : KeepNext s (execLadderAgeExpiry cw s) := by
  simp only [execLadderAgeExpiry]
  (repeat' split) <;> simp +contextual (maxDischargeDepth := 60) [Keep]

@[simp] theorem execLadderStepDone_keep (cw : BitVec 64) (converged : Bool) (info : List Byte) (s : State) : KeepNext s (execLadderStepDone cw converged info s) := by
  simp only [execLadderStepDone]
  (repeat' split) <;> simp +contextual (maxDischargeDepth := 60) [Keep]

@[simp] theorem execSweepSettleEnd_keep (g : HeadId) (s : State) : KeepNext s (execSweepSettleEnd g s) := by
  simp only [execSweepSettleEnd]
  (repeat' split) <;> simp +contextual (maxDischargeDepth := 60) [Keep]

@[simp] theorem State.commitDecode_keep (s : State) : Keep s (State.commitDecode s) := by
  simp only [State.commitDecode]
  (repeat' split) <;> simp +contextual (maxDischargeDepth := 60) [Keep]

@[simp] theorem execDecodeCommit_keep (s : State) : KeepNext s (execDecodeCommit s) := by
  simp only [execDecodeCommit]
  (repeat' split) <;> simp +contextual (maxDischargeDepth := 60) [Keep]

@[simp] theorem execDecodeClearStats_keep (s : State) : KeepNext s (execDecodeClearStats s) := by
  simp only [execDecodeClearStats]
  (repeat' split) <;> simp +contextual (maxDischargeDepth := 60) [Keep]

end Sys2Proof.Machine
end

