-- ==== Sys2Proof/Laws/KeepSpindle.lean ====
section
/-! SUPPORT. What the operations and meanings of Sys2Proof/Machine/Spindle.lean leave as it was. -/

namespace Sys2Proof.Machine
set_option Elab.async false

@[simp] theorem State.enterRun_keep (s : State) (b : BayId) : Keep s (State.enterRun s b) := by
  simp only [State.enterRun]
  (repeat' split) <;> simp +contextual (maxDischargeDepth := 60) [Keep]

@[simp] theorem State.enterAlign_keep (s : State) (b : BayId) : Keep s (State.enterAlign s b) := by
  simp only [State.enterAlign]
  (repeat' split) <;> simp +contextual (maxDischargeDepth := 60) [Keep]

@[simp] theorem State.enterRamp_keep (s : State) (b : BayId) (v : Int) : Keep s (State.enterRamp s b v) := by
  simp only [State.enterRamp]
  (repeat' split) <;> simp +contextual (maxDischargeDepth := 60) [Keep]

@[simp] theorem State.enterSense_keep (s : State) (b : BayId) : Keep s (State.enterSense s b) := by
  simp only [State.enterSense]
  (repeat' split) <;> simp +contextual (maxDischargeDepth := 60) [Keep]

@[simp] theorem State.observerLoss_keep (s : State) (b : BayId) (cause : Nat) : Keep s (State.observerLoss s b cause) := by
  simp only [State.observerLoss]
  (repeat' split) <;> simp +contextual (maxDischargeDepth := 60) [Keep]

@[simp] theorem State.regenStep_keep (s : State) (b : BayId) (vinMv : Nat) : Keep s (State.regenStep s b vinMv) := by
  simp only [State.regenStep]
  (repeat' split) <;> simp +contextual (maxDischargeDepth := 60) [Keep]

@[simp] theorem State.angleStep_keep (s : State) (b : BayId) (speed : Int) : Keep s (State.angleStep s b speed) := by
  simp only [State.angleStep]
  (repeat' split) <;> simp +contextual (maxDischargeDepth := 60) [Keep]

@[simp] theorem State.lossStep_keep (s : State) (b : BayId) (i : PwmIn) : Keep s (State.lossStep s b i) := by
  simp only [State.lossStep]
  (repeat' split) <;> simp +contextual (maxDischargeDepth := 60) [Keep]

@[simp] theorem State.coastStep_keep (s : State) (b : BayId) (i : PwmIn) : Keep s (State.coastStep s b i) := by
  simp only [State.coastStep]
  (repeat' split) <;> simp +contextual (maxDischargeDepth := 60) [Keep]

@[simp] theorem State.brakeStep_keep (s : State) (b : BayId) (i : PwmIn) : Keep s (State.brakeStep s b i) := by
  simp only [State.brakeStep]
  (repeat' split) <;> simp +contextual (maxDischargeDepth := 60) [Keep]

@[simp] theorem State.agreeStep_keep (s : State) (b : BayId) (i : PwmIn) : Keep s (State.agreeStep s b i) := by
  simp only [State.agreeStep]
  (repeat' split) <;> simp +contextual (maxDischargeDepth := 60) [Keep]

@[simp] theorem State.measure_keep (s : State) (b : BayId) (i : PwmIn) : Keep s (State.measure s b i) := by
  simp only [State.measure]
  (repeat' split) <;> simp +contextual (maxDischargeDepth := 60) [Keep]

@[simp] theorem execPwmPeriod_keep (b : BayId) (i : PwmIn) (s : State) : KeepNext s (execPwmPeriod b i s) := by
  simp only [execPwmPeriod]
  (repeat' split) <;> simp +contextual (maxDischargeDepth := 60) [Keep]

@[simp] theorem State.runLoop_keep (s : State) (b : BayId) (i : SpeedIn) : Keep s (State.runLoop s b i) := by
  simp only [State.runLoop]
  (repeat' split) <;> simp +contextual (maxDischargeDepth := 60) [Keep]

@[simp] theorem State.rampLoop_keep (s : State) (b : BayId) : Keep s (State.rampLoop s b) := by
  simp only [State.rampLoop]
  (repeat' split) <;> simp +contextual (maxDischargeDepth := 60) [Keep]

@[simp] theorem execSpeedLoopPeriod_keep (b : BayId) (i : SpeedIn) (s : State) : KeepNext s (execSpeedLoopPeriod b i s) := by
  simp only [execSpeedLoopPeriod]
  (repeat' split) <;> simp +contextual (maxDischargeDepth := 60) [Keep]

@[simp] theorem execSpindleStart_keep (b : BayId) (s : State) : KeepNext s (execSpindleStart b s) := by
  simp only [execSpindleStart]
  (repeat' split) <;> simp +contextual (maxDischargeDepth := 60) [Keep]

@[simp] theorem execDriveStart_keep (b : BayId) (s : State) : KeepNext s (execDriveStart b s) := by
  simp only [execDriveStart]
  (repeat' split) <;> simp +contextual (maxDischargeDepth := 60) [Keep]

@[simp] theorem execSpindleStop_keep (b : BayId) (s : State) : KeepNext s (execSpindleStop b s) := by
  simp only [execSpindleStop]
  (repeat' split) <;> simp +contextual (maxDischargeDepth := 60) [Keep]

@[simp] theorem execSpindleClearFault_keep (b : BayId) (s : State) : KeepNext s (execSpindleClearFault b s) := by
  simp only [execSpindleClearFault]
  (repeat' split) <;> simp +contextual (maxDischargeDepth := 60) [Keep]

@[simp] theorem execSpindleReverseWrite_keep (b : BayId) (v : Bool) (s : State) : KeepNext s (execSpindleReverseWrite b v s) := by
  simp only [execSpindleReverseWrite]
  (repeat' split) <;> simp +contextual (maxDischargeDepth := 60) [Keep]

@[simp] theorem execTargetRpmWrite_keep (b : BayId) (rpm : BitVec 13) (s : State) : KeepNext s (execTargetRpmWrite b rpm s) := by
  simp only [execTargetRpmWrite]
  (repeat' split) <;> simp +contextual (maxDischargeDepth := 60) [Keep]

@[simp] theorem execSenseEnd_keep (b : BayId) (i : SenseIn) (s : State) : KeepNext s (execSenseEnd b i s) := by
  simp only [execSenseEnd]
  (repeat' split) <;> simp +contextual (maxDischargeDepth := 60) [Keep]

@[simp] theorem execBrakeTimeout_keep (b : BayId) (s : State) : KeepNext s (execBrakeTimeout b s) := by
  simp only [execBrakeTimeout]
  (repeat' split) <;> simp +contextual (maxDischargeDepth := 60) [Keep]

@[simp] theorem execAlignEnd_keep (b : BayId) (s : State) : KeepNext s (execAlignEnd b s) := by
  simp only [execAlignEnd]
  (repeat' split) <;> simp +contextual (maxDischargeDepth := 60) [Keep]

@[simp] theorem execSpindleCoastTimeout_keep (b : BayId) (s : State) : KeepNext s (execSpindleCoastTimeout b s) := by
  simp only [execSpindleCoastTimeout]
  (repeat' split) <;> simp +contextual (maxDischargeDepth := 60) [Keep]

@[simp] theorem execTorqueRestored_keep (b : BayId) (s : State) : KeepNext s (execTorqueRestored b s) := by
  simp only [execTorqueRestored]
  (repeat' split) <;> simp +contextual (maxDischargeDepth := 60) [Keep]

@[simp] theorem execStopBrakeEnd_keep (b : BayId) (s : State) : KeepNext s (execStopBrakeEnd b s) := by
  simp only [execStopBrakeEnd]
  (repeat' split) <;> simp +contextual (maxDischargeDepth := 60) [Keep]

@[simp] theorem execFieldWeakenLimit_keep (b : BayId) (s : State) : KeepNext s (execFieldWeakenLimit b s) := by
  simp only [execFieldWeakenLimit]
  (repeat' split) <;> simp +contextual (maxDischargeDepth := 60) [Keep]

@[simp] theorem execSpindleOvercurrent_keep (b : BayId) (s : State) : KeepNext s (execSpindleOvercurrent b s) := by
  simp only [execSpindleOvercurrent]
  (repeat' split) <;> simp +contextual (maxDischargeDepth := 60) [Keep]

@[simp] theorem State.axisHot_keep (s : State) (a : AxisId) : Keep s (State.axisHot s a) := by
  simp only [State.axisHot]
  (repeat' split) <;> simp +contextual (maxDischargeDepth := 60) [Keep]

@[simp] theorem State.bayHot_keep (s : State) (b : BayId) : Keep s (State.bayHot s b) := by
  simp only [State.bayHot]
  (repeat' split) <;> simp +contextual (maxDischargeDepth := 60) [Keep]

@[simp] theorem execBridgeOvertemp_keep (die : Fin 2) (s : State) : KeepNext s (execBridgeOvertemp die s) := by
  simp only [execBridgeOvertemp]
  (repeat' split) <;> simp +contextual (maxDischargeDepth := 60) [Keep]

@[simp] theorem execSpindlePhaseOpen_keep (b : BayId) (s : State) : KeepNext s (execSpindlePhaseOpen b s) := by
  simp only [execSpindlePhaseOpen]
  (repeat' split) <;> simp +contextual (maxDischargeDepth := 60) [Keep]

@[simp] theorem execSpindleCommit_keep (b : BayId) (s : State) : KeepNext s (execSpindleCommit b s) := by
  simp only [execSpindleCommit]
  (repeat' split) <;> simp +contextual (maxDischargeDepth := 60) [Keep]

end Sys2Proof.Machine
end

