-- ==== Sys2Proof/Laws/KeepCalib.lean ====
section
/-! SUPPORT. What the operations and meanings of Sys2Proof/Machine/Calib.lean leave as it was. -/

namespace Sys2Proof.Machine
set_option Elab.async false

@[simp] theorem State.modCalib_keep (s : State) (f : CalibSt → CalibSt) : Keep s (State.modCalib s f) := by
  simp only [State.modCalib]
  (repeat' split) <;> simp +contextual (maxDischargeDepth := 60) [Keep]

@[simp] theorem execTrimTempRecompute_keep (g : HeadId) (adc : BitVec 16) (s : State) : KeepNext s (execTrimTempRecompute g adc s) := by
  simp only [execTrimTempRecompute]
  (repeat' split) <;> simp +contextual (maxDischargeDepth := 60) [Keep]

@[simp] theorem State.addDelta_keep (s : State) (g : HeadId) (key : Nat) (d : Int) : Keep s (State.addDelta s g key d) := by
  simp only [State.addDelta]
  (repeat' split) <;> simp +contextual (maxDischargeDepth := 60) [Keep]

@[simp] theorem State.learnTrim_keep (s : State) (g : HeadId) (key : Nat) (d : Int) : Keep s (State.learnTrim s g key d) := by
  simp only [State.learnTrim]
  (repeat' split) <;> simp +contextual (maxDischargeDepth := 60) [Keep]

@[simp] theorem State.trialStart_keep (s : State) (g : HeadId) (syndrome : Nat) : Keep s (State.trialStart s g syndrome) := by
  simp only [State.trialStart]
  (repeat' split) <;> simp +contextual (maxDischargeDepth := 60) [Keep]

@[simp] theorem execTrialPhaseEnd_keep (g : HeadId) (fraction syndrome : BitVec 16) (s : State) : KeepNext s (execTrialPhaseEnd g fraction syndrome s) := by
  simp only [execTrialPhaseEnd]
  (repeat' split) <;> simp +contextual (maxDischargeDepth := 60) [Keep]

@[simp] theorem execHeadSetNvWrite_keep (s : State) : KeepNext s (execHeadSetNvWrite s) := by
  simp only [execHeadSetNvWrite]
  (repeat' split) <;> simp +contextual (maxDischargeDepth := 60) [Keep]

@[simp] theorem State.action_keep (s : State) (n : Nat) : Keep s (State.action s n) := by
  simp only [State.action]
  (repeat' split) <;> simp +contextual (maxDischargeDepth := 60) [Keep]

@[simp] theorem State.reportMargin_keep (s : State) (data : List Nat) (e : Ev) (bit : Nat) : Keep s (State.reportMargin s data e bit) := by
  simp only [State.reportMargin]
  (repeat' split) <;> simp +contextual (maxDischargeDepth := 60) [Keep]

@[simp] theorem State.takeStep_keep (s : State) (i : MarginIn) (k step : Nat) : Keep s (State.takeStep s i k step) := by
  simp only [State.takeStep]
  (repeat' split) <;> simp +contextual (maxDischargeDepth := 60) [Keep]

@[simp] theorem State.settleMargins_keep (s : State) (l : List Nat) : Keep s (State.settleMargins s l) := by
  simp only [State.settleMargins]
  (repeat' split) <;> simp +contextual (maxDischargeDepth := 60) [Keep]

@[simp] theorem State.restoreMargins_keep (s : State) (i : MarginIn) (short : List Nat) : Keep s (State.restoreMargins s i short) := by
  simp only [State.restoreMargins]
  (repeat' split) <;> simp +contextual (maxDischargeDepth := 60) [Keep]

@[simp] theorem State.trackGood_keep (s : State) (i : MarginIn) : Keep s (State.trackGood s i) := by
  simp only [State.trackGood]
  (repeat' split) <;> simp +contextual (maxDischargeDepth := 60) [Keep]

@[simp] theorem State.restartGood_keep (s : State) (l : List Nat) : Keep s (State.restartGood s l) := by
  simp only [State.restartGood]
  (repeat' split) <;> simp +contextual (maxDischargeDepth := 60) [Keep]

@[simp] theorem State.undoStep_keep (s : State) : Keep s (State.undoStep s) := by
  simp only [State.undoStep]
  (repeat' split) <;> simp +contextual (maxDischargeDepth := 60) [Keep]

@[simp] theorem execMarginEvaluation_keep (i : MarginIn) (s : State) : KeepNext s (execMarginEvaluation i s) := by
  simp only [execMarginEvaluation]
  (repeat' split) <;> simp +contextual (maxDischargeDepth := 60) [Keep]

@[simp] theorem execSpeedStepApply_keep (b : BayId) (s : State) : KeepNext s (execSpeedStepApply b s) := by
  simp only [execSpeedStepApply]
  (repeat' split) <;> simp +contextual (maxDischargeDepth := 60) [Keep]

@[simp] theorem execTrendEvaluation_keep (t : Trend) (value : BitVec 32) (s : State) : KeepNext s (execTrendEvaluation t value s) := by
  simp only [execTrendEvaluation]
  (repeat' split) <;> simp +contextual (maxDischargeDepth := 60) [Keep]

@[simp] theorem execCalibClearStats_keep (s : State) : KeepNext s (execCalibClearStats s) := by
  simp only [execCalibClearStats]
  (repeat' split) <;> simp +contextual (maxDischargeDepth := 60) [Keep]

end Sys2Proof.Machine
end

