-- ==== Sys2Proof/Laws/KeepChainPorts.lean ====
section
/-! SUPPORT. What the operations and meanings of Sys2Proof/Machine/ChainPorts.lean leave as it was. -/

namespace Sys2Proof.Machine
set_option Elab.async false

@[simp] theorem State.chainRelease_keep (s : State) : Keep s (State.chainRelease s) := by
  simp only [State.chainRelease]
  (repeat' split) <;> simp +contextual (maxDischargeDepth := 60) [Keep]

@[simp] theorem State.chainHold_keep (s : State) : Keep s (State.chainHold s) := by
  simp only [State.chainHold]
  (repeat' split) <;> simp +contextual (maxDischargeDepth := 60) [Keep]

@[simp] theorem State.sendHello_keep (s : State) (i : Fin 2) : Keep s (State.sendHello s i) := by
  simp only [State.sendHello]
  (repeat' split) <;> simp +contextual (maxDischargeDepth := 60) [Keep]

@[simp] theorem State.enterUp_keep (s : State) (i : Fin 2) : Keep s (State.enterUp s i) := by
  simp only [State.enterUp]
  (repeat' split) <;> simp +contextual (maxDischargeDepth := 60) [Keep]

@[simp] theorem State.cutPort_keep (s : State) (i : Fin 2) (l : Nat × Nat) : Keep s (State.cutPort s i l) := by
  simp only [State.cutPort]
  (repeat' split) <;> simp +contextual (maxDischargeDepth := 60) [Keep]

@[simp] theorem State.linkDown_keep (s : State) (l : Nat × Nat) : Keep s (State.linkDown s l) := by
  simp only [State.linkDown]
  (repeat' split) <;> simp +contextual (maxDischargeDepth := 60) [Keep]

@[simp] theorem State.leaveUp_keep (s : State) (i : Fin 2) (st : PortState) : Keep s (State.leaveUp s i st) := by
  simp only [State.leaveUp]
  repeat' first
    | exact Keep.refl _
    | assumption
    | exact id
    | rw [keepNext_next]
    | (simp +contextual (maxDischargeDepth := 60) [Keep]; done)
    | split
    | refine Keep.trans ?_ (foldl_keep _ (fun _ _ => ?_) _ _)
    | refine Keep.trans ?_ (State.logEv_keep ..)
    | refine Keep.trans ?_ (State.modPort_keep ..)
    | refine Keep.trans ?_ (State.sendOn_keep ..)
    | refine Keep.trans ?_ (State.linkDown_keep ..)

@[simp] theorem State.sendAck_keep (s : State) (i : Fin 2) : Keep s (State.sendAck s i) := by
  simp only [State.sendAck]
  (repeat' split) <;> simp +contextual (maxDischargeDepth := 60) [Keep]

@[simp] theorem State.badCrc_keep (s : State) (i : Fin 2) : Keep s (State.badCrc s i) := by
  simp only [State.badCrc]
  (repeat' split) <;> simp +contextual (maxDischargeDepth := 60) [Keep]

@[simp] theorem State.linkTake_keep (s : State) (p : PacketIn) : Keep s (State.linkTake s p).2 := by
  simp only [State.linkTake]
  (repeat' split) <;> simp +contextual (maxDischargeDepth := 60) [Keep]

@[simp] theorem State.forward_keep (s : State) (p : PacketIn) (type : Nat) : Keep s (State.forward s p type) := by
  simp only [State.forward]
  (repeat' split) <;> simp +contextual (maxDischargeDepth := 60) [Keep]

@[simp] theorem State.receive_keep (s : State) (p : PacketIn) (type : Nat) (act : State → State) (h : ∀ t, Keep t (act t)) :
    Keep s (State.receive s p type act) := by
  simp only [State.receive]
  (repeat' split) <;> first
    | exact State.linkTake_keep ..
    | exact (State.linkTake_keep ..).trans (h _)
    | exact (State.linkTake_keep ..).trans (State.forward_keep ..)

@[simp] theorem execKeepalive_keep (p : PacketIn) (s : State) : KeepNext s (execKeepalive p s) := by
  simp only [execKeepalive]
  (repeat' split) <;> simp +contextual (maxDischargeDepth := 60) [Keep]

@[simp] theorem execChainTrainTimeout_keep (p : Port) (s : State) : KeepNext s (execChainTrainTimeout p s) := by
  simp only [execChainTrainTimeout]
  (repeat' split) <;> simp +contextual (maxDischargeDepth := 60) [Keep]

@[simp] theorem execKeepaliveTimeout_keep (p : Port) (s : State) : KeepNext s (execKeepaliveTimeout p s) := by
  simp only [execKeepaliveTimeout]
  (repeat' split) <;> simp +contextual (maxDischargeDepth := 60) [Keep]

@[simp] theorem execKeepaliveTimer_keep (p : Port) (s : State) : KeepNext s (execKeepaliveTimer p s) := by
  simp only [execKeepaliveTimer]
  (repeat' split) <;> simp +contextual (maxDischargeDepth := 60) [Keep]

@[simp] theorem execHelloTimer_keep (p : Port) (s : State) : KeepNext s (execHelloTimer p s) := by
  simp only [execHelloTimer]
  (repeat' split) <;> simp +contextual (maxDischargeDepth := 60) [Keep]

@[simp] theorem State.takeHello_keep (s : State) (p : PacketIn) : Keep s (State.takeHello s p) := by
  simp only [State.takeHello]
  (repeat' split) <;> simp +contextual (maxDischargeDepth := 60) [Keep]

@[simp] theorem execHello_keep (p : PacketIn) (s : State) : KeepNext s (execHello p s) := by
  simp only [execHello]
  (repeat' split) <;> simp +contextual (maxDischargeDepth := 60) [Keep]

@[simp] theorem execLinkState_keep (p : PacketIn) (s : State) : KeepNext s (execLinkState p s) := by
  simp only [execLinkState]
  (repeat' split) <;> simp +contextual (maxDischargeDepth := 60) [Keep]

@[simp] theorem State.replayFrom_keep (s : State) (i : Fin 2) (seq : Nat) : Keep s (State.replayFrom s i seq) := by
  have key : ∀ (f : PortSt → PortSt) (l : List Sent) (n : Nat),
      Keep s ((l.foldl (fun t e => t.emit (.chain (ixPort i) e.bytes)) (s.modPort i f)).addSat .chain CHAIN.replays n) := fun f l n =>
    ((State.modPort_keep ..).trans (foldl_keep _ (fun t e => State.emit_keep ..) _ _)).trans (State.addSat_keep ..)
  dsimp only [State.replayFrom]
  split
  · exact (key _ _ _).trans (State.leaveUp_keep ..)
  · exact key _ _ _

@[simp] theorem execLinkAck_keep (p : PacketIn) (s : State) : KeepNext s (execLinkAck p s) := by
  simp only [execLinkAck]
  (repeat' split) <;> simp +contextual (maxDischargeDepth := 60) [Keep]

@[simp] theorem State.retrainPort_keep (s : State) (i : Fin 2) : Keep s (State.retrainPort s i) := by
  simp only [State.retrainPort]
  (repeat' split) <;> simp +contextual (maxDischargeDepth := 60) [Keep]

@[simp] theorem execChainRetrain_keep (s : State) : KeepNext s (execChainRetrain s) := by
  simp only [execChainRetrain]
  (repeat' split) <;> simp +contextual (maxDischargeDepth := 60) [Keep]

@[simp] theorem execChainEnableWrite_keep (v : Bool) (s : State) : KeepNext s (execChainEnableWrite v s) := by
  simp only [execChainEnableWrite]
  (repeat' split) <;> simp +contextual (maxDischargeDepth := 60) [Keep]

@[simp] theorem execChainClearStats_keep (s : State) : KeepNext s (execChainClearStats s) := by
  simp only [execChainClearStats]
  (repeat' split) <;> simp +contextual (maxDischargeDepth := 60) [Keep]

end Sys2Proof.Machine
end

