-- ==== Sys2Proof/Laws/KeepCipher.lean ====
section
/-! SUPPORT. What the operations and meanings of Sys2Proof/Machine/Cipher.lean leave as it was. -/

namespace Sys2Proof.Machine
set_option Elab.async false

@[simp] theorem State.modCipher_keep (s : State) (f : Cipher → Cipher) : Keep s (State.modCipher s f) := by
  simp only [State.modCipher]
  (repeat' split) <;> simp +contextual (maxDischargeDepth := 60) [Keep]

@[simp] theorem State.setSlot_keep (s : State) (n : Nat) (r : SlotRec) : Keep s (State.setSlot s n r) := by
  simp only [State.setSlot]
  (repeat' split) <;> simp +contextual (maxDischargeDepth := 60) [Keep]

@[simp] theorem State.uncache_keep (s : State) (n : Nat) : Keep s (State.uncache s n) := by
  simp only [State.uncache]
  (repeat' split) <;> simp +contextual (maxDischargeDepth := 60) [Keep]

@[simp] theorem State.loseSlot_keep (s : State) (n : Nat) : Keep s (State.loseSlot s n) := by
  simp only [State.loseSlot]
  (repeat' split) <;> simp +contextual (maxDischargeDepth := 60) [Keep]

@[simp] theorem State.meterCipher_keep (s : State) (ns : BitVec 32) : Keep s (State.meterCipher s ns) := by
  simp only [State.meterCipher]
  (repeat' split) <;> simp +contextual (maxDischargeDepth := 60) [Keep]

@[simp] theorem State.failReq_keep (s : State) (r : CipherReq) (status : Nat) : Keep s (State.failReq s r status) := by
  simp only [State.failReq]
  (repeat' split) <;> simp +contextual (maxDischargeDepth := 60) [Keep]

@[simp] theorem State.failReqs_keep (s : State) (l : List CipherReq) (status : Nat) : Keep s (State.failReqs s l status) := by
  simp only [State.failReqs]
  (repeat' split) <;> simp +contextual (maxDischargeDepth := 60) [Keep]

@[simp] theorem State.dataIn_keep (s : State) (id : Nat) : Keep s (State.dataIn s id) := by
  simp only [State.dataIn]
  (repeat' split) <;> simp +contextual (maxDischargeDepth := 60) [Keep]

@[simp] theorem State.finishReq_keep (s : State) (r : CipherReq) (key : List Byte) : Keep s (State.finishReq s r key) := by
  simp only [State.finishReq]
  (repeat' split) <;> simp +contextual (maxDischargeDepth := 60) [Keep]

@[simp] theorem State.modCore_keep (s : State) (i : Fin 8) (f : CipherCore → CipherCore) : Keep s (State.modCore s i f) := by
  simp only [State.modCore]
  (repeat' split) <;> simp +contextual (maxDischargeDepth := 60) [Keep]

@[simp] theorem State.serveCores_keep (s : State) (z0 : Nat) : Keep s (State.serveCores s z0) := by
  induction z0 generalizing s with
  | zero => 
    simp only [State.serveCores]
    repeat' first
      | exact Keep.refl _
      | assumption
      | exact id
      | rw [keepNext_next]
      | (simp +contextual (maxDischargeDepth := 60) [Keep]; done)
      | split
      | refine Keep.trans ?_ (foldl_keep _ (fun _ _ => ?_) _ _)
      | refine Keep.trans ?_ (State.incSat_keep ..)
      | refine Keep.trans ?_ (State.modCipher_keep ..)
      | refine Keep.trans ?_ (State.failReq_keep ..)
      | refine Keep.trans ?_ (State.failReqs_keep ..)
      | refine Keep.trans ?_ (State.modCore_keep ..)
  | succ _ ih =>
    simp only [State.serveCores]
    repeat' first
      | exact Keep.refl _
      | assumption
      | exact id
      | rw [keepNext_next]
      | (simp +contextual (maxDischargeDepth := 60) [Keep]; done)
      | refine Keep.trans ?_ (ih _)
      | split
      | refine Keep.trans ?_ (foldl_keep _ (fun _ _ => ?_) _ _)
      | refine Keep.trans ?_ (State.incSat_keep ..)
      | refine Keep.trans ?_ (State.modCipher_keep ..)
      | refine Keep.trans ?_ (State.failReq_keep ..)
      | refine Keep.trans ?_ (State.failReqs_keep ..)
      | refine Keep.trans ?_ (State.modCore_keep ..)

@[simp] theorem State.wantSlot_keep (s : State) (slot : Nat) : Keep s (State.wantSlot s slot) := by
  simp only [State.wantSlot]
  (repeat' split) <;> simp +contextual (maxDischargeDepth := 60) [Keep]

@[simp] theorem State.applyOp_keep (s : State) (o : KeyOp) : Keep s (State.applyOp s o) := by
  simp only [State.applyOp]
  (repeat' split) <;> simp +contextual (maxDischargeDepth := 60) [Keep]

@[simp] theorem State.applyOps_keep (s : State) (z0 : Nat) : Keep s (State.applyOps s z0) := by
  induction z0 generalizing s with
  | zero => 
    simp only [State.applyOps]
    repeat' first
      | exact Keep.refl _
      | assumption
      | exact id
      | rw [keepNext_next]
      | (simp +contextual (maxDischargeDepth := 60) [Keep]; done)
      | split
      | refine Keep.trans ?_ (foldl_keep _ (fun _ _ => ?_) _ _)
      | refine Keep.trans ?_ (State.wantSlot_keep ..)
      | refine Keep.trans ?_ (State.applyOp_keep ..)
  | succ _ ih =>
    simp only [State.applyOps]
    repeat' first
      | exact Keep.refl _
      | assumption
      | exact id
      | rw [keepNext_next]
      | (simp +contextual (maxDischargeDepth := 60) [Keep]; done)
      | refine Keep.trans ?_ (ih _)
      | split
      | refine Keep.trans ?_ (foldl_keep _ (fun _ _ => ?_) _ _)
      | refine Keep.trans ?_ (State.wantSlot_keep ..)
      | refine Keep.trans ?_ (State.applyOp_keep ..)

@[simp] theorem State.pump_keep (s : State) : Keep s (State.pump s) := by
  simp only [State.pump]
  (repeat' split) <;> simp +contextual (maxDischargeDepth := 60) [Keep]

@[simp] theorem State.postReq_keep (s : State) (r : CipherReq) : Keep s (State.postReq s r) := by
  simp only [State.postReq]
  (repeat' split) <;> simp +contextual (maxDischargeDepth := 60) [Keep]

@[simp] theorem execCipherRequest_keep (cmd : BitVec 64) (decrypt : Bool) (slot : BitVec 16) (nsid : BitVec 32) (lba : BitVec 64) (buffer : BitVec 37) (data : List Byte) (s : State) : KeepNext s (execCipherRequest cmd decrypt slot nsid lba buffer data s) := by
  simp only [execCipherRequest]
  (repeat' split) <;> simp +contextual (maxDischargeDepth := 60) [Keep]

@[simp] theorem State.cacheKey_keep (s : State) (slot : Nat) (key : List Byte) : Keep s (State.cacheKey s slot key) := by
  simp only [State.cacheKey]
  (repeat' split) <;> simp +contextual (maxDischargeDepth := 60) [Keep]

@[simp] theorem execSlotFetchDone_keep (slot : BitVec 16) (recordOk : Bool) (s : State) : KeepNext s (execSlotFetchDone slot recordOk s) := by
  simp only [execSlotFetchDone]
  (repeat' split) <;> simp +contextual (maxDischargeDepth := 60) [Keep]

@[simp] theorem State.slotLost_keep (s : State) (n : Nat) : Keep s (State.slotLost s n) := by
  simp only [State.slotLost]
  (repeat' split) <;> simp +contextual (maxDischargeDepth := 60) [Keep]

@[simp] theorem execCipherUnitDone_keep (core : Fin 8) (isMatch : Bool) (s : State) : KeepNext s (execCipherUnitDone core isMatch s) := by
  simp only [execCipherUnitDone]
  (repeat' split) <;> simp +contextual (maxDischargeDepth := 60) [Keep]

@[simp] theorem State.enterKeygen_keep (s : State) : Keep s (State.enterKeygen s) := by
  simp only [State.enterKeygen]
  (repeat' split) <;> simp +contextual (maxDischargeDepth := 60) [Keep]

@[simp] theorem State.clearReqs_keep (s : State) : Keep s (State.clearReqs s) := by
  simp only [State.clearReqs]
  (repeat' split) <;> simp +contextual (maxDischargeDepth := 60) [Keep]

@[simp] theorem State.dropLoads_keep (s : State) (status : Nat) : Keep s (State.dropLoads s status) := by
  simp only [State.dropLoads]
  (repeat' split) <;> simp +contextual (maxDischargeDepth := 60) [Keep]

@[simp] theorem execCipherAlarm_keep (src : AlarmSource) (s : State) : KeepNext s (execCipherAlarm src s) := by
  simp only [execCipherAlarm]
  (repeat' split) <;> simp +contextual (maxDischargeDepth := 60) [Keep]

@[simp] theorem execCipherRearm_keep (s : State) : KeepNext s (execCipherRearm s) := by
  simp only [execCipherRearm]
  (repeat' split) <;> simp +contextual (maxDischargeDepth := 60) [Keep]

@[simp] theorem execKeygenDone_keep (s : State) : KeepNext s (execKeygenDone s) := by
  simp only [execKeygenDone]
  (repeat' split) <;> simp +contextual (maxDischargeDepth := 60) [Keep]

@[simp] theorem State.cipherOff_keep (s : State) : Keep s (State.cipherOff s) := by
  simp only [State.cipherOff]
  (repeat' split) <;> simp +contextual (maxDischargeDepth := 60) [Keep]

@[simp] theorem State.cipherOn_keep (s : State) : Keep s (State.cipherOn s) := by
  simp only [State.cipherOn]
  (repeat' split) <;> simp +contextual (maxDischargeDepth := 60) [Keep]

@[simp] theorem execCipherClearStats_keep (s : State) : KeepNext s (execCipherClearStats s) := by
  simp only [execCipherClearStats]
  (repeat' split) <;> simp +contextual (maxDischargeDepth := 60) [Keep]

@[simp] theorem execNamespaceCreate_keep (cmd : BitVec 64) (s : State) : KeepNext s (execNamespaceCreate cmd s) := by
  simp only [execNamespaceCreate]
  (repeat' split) <;> simp +contextual (maxDischargeDepth := 60) [Keep]

@[simp] theorem execNamespaceDelete_keep (cmd : BitVec 64) (s : State) : KeepNext s (execNamespaceDelete cmd s) := by
  simp only [execNamespaceDelete]
  (repeat' split) <;> simp +contextual (maxDischargeDepth := 60) [Keep]

@[simp] theorem execNamespaceQuery_keep (cmd : BitVec 64) (s : State) : KeepNext s (execNamespaceQuery cmd s) := by
  simp only [execNamespaceQuery]
  (repeat' split) <;> simp +contextual (maxDischargeDepth := 60) [Keep]

@[simp] theorem State.takeOp_keep (s : State) (o : KeyOp) : Keep s (State.takeOp s o) := by
  simp only [State.takeOp]
  (repeat' split) <;> simp +contextual (maxDischargeDepth := 60) [Keep]

@[simp] theorem execKeyLoad_keep (cmd : BitVec 64) (s : State) : KeepNext s (execKeyLoad cmd s) := by
  simp only [execKeyLoad]
  (repeat' split) <;> simp +contextual (maxDischargeDepth := 60) [Keep]

@[simp] theorem execKeyErase_keep (cmd : BitVec 64) (s : State) : KeepNext s (execKeyErase cmd s) := by
  simp only [execKeyErase]
  (repeat' split) <;> simp +contextual (maxDischargeDepth := 60) [Keep]

@[simp] theorem execKeyQuery_keep (cmd : BitVec 64) (s : State) : KeepNext s (execKeyQuery cmd s) := by
  simp only [execKeyQuery]
  (repeat' split) <;> simp +contextual (maxDischargeDepth := 60) [Keep]

end Sys2Proof.Machine
end

