-- ==== Sys2Proof/Laws/KeepMount.lean ====
section
/-! SUPPORT. What the operations and meanings of Sys2Proof/Machine/Mount.lean leave as it was. -/

namespace Sys2Proof.Machine
set_option Elab.async false

@[simp] theorem State.seenSeq_keep (s : State) (n : Nat) : Keep s (State.seenSeq s n) := by
  simp only [State.seenSeq]
  (repeat' split) <;> simp +contextual (maxDischargeDepth := 60) [Keep]

@[simp] theorem State.loadDisc_keep (s : State) (d : BitVec 128) : Keep s (State.loadDisc s d) := by
  simp only [State.loadDisc]
  (repeat' split) <;> simp +contextual (maxDischargeDepth := 60) [Keep]

@[simp] theorem State.remount_keep (s : State) (b : BayId) (g : HeadId) : Keep s (State.remount s b g) := by
  simp only [State.remount]
  (repeat' split) <;> simp +contextual (maxDischargeDepth := 60) [Keep]

@[simp] theorem State.beginMount_keep (s : State) (b : BayId) (disc : BitVec 128) : Keep s (State.beginMount s b disc) := by
  simp only [State.beginMount]
  (repeat' split) <;> simp +contextual (maxDischargeDepth := 60) [Keep]

@[simp] theorem execMountStart_keep (b : BayId) (disc : BitVec 128) (s : State) : KeepNext s (execMountStart b disc s) := by
  simp only [execMountStart]
  (repeat' split) <;> simp +contextual (maxDischargeDepth := 60) [Keep]

@[simp] theorem State.applyMount_keep (s : State) (b : BayId) (d : BitVec 128) : Keep s (State.applyMount s b d) := by
  simp only [State.applyMount]
  (repeat' split) <;> simp +contextual (maxDischargeDepth := 60) [Keep]

@[simp] theorem State.unload_keep (s : State) (b : BayId) : Keep s (State.unload s b) := by
  simp only [State.unload]
  (repeat' split) <;> simp +contextual (maxDischargeDepth := 60) [Keep]

@[simp] theorem State.mountEnds_keep (s : State) (b : BayId) (st : MountState) : Keep s (State.mountEnds s b st) := by
  simp only [State.mountEnds]
  (repeat' split) <;> simp +contextual (maxDischargeDepth := 60) [Keep]

@[simp] theorem State.mountDecided_keep (s : State) (b : BayId) : Keep s (State.mountDecided s b) := by
  simp only [State.mountDecided]
  (repeat' split) <;> simp +contextual (maxDischargeDepth := 60) [Keep]

@[simp] theorem State.mountCheckpoint_keep (s : State) (b : BayId) (readable : Bool) (covered : BitVec 64) (highWater : Vector (BitVec 32) 24) (entries : List CkptEntryIn) : Keep s (State.mountCheckpoint s b readable covered highWater entries) := by
  simp only [State.mountCheckpoint]
  (repeat' split) <;> simp +contextual (maxDischargeDepth := 60) [Keep]

@[simp] theorem State.mountChain_keep (s : State) (b : BayId) (records : List RecordIn) : Keep s (State.mountChain s b records) := by
  simp only [State.mountChain]
  (repeat' split) <;> simp +contextual (maxDischargeDepth := 60) [Keep]

@[simp] theorem State.mountForward_keep (s : State) (b : BayId) (records : List RecordIn) (highWater : Vector (BitVec 32) 24) : Keep s (State.mountForward s b records highWater) := by
  simp only [State.mountForward]
  (repeat' split) <;> simp +contextual (maxDischargeDepth := 60) [Keep]

@[simp] theorem State.mountApplied_keep (s : State) (b : BayId) : Keep s (State.mountApplied s b) := by
  simp only [State.mountApplied]
  (repeat' split) <;> simp +contextual (maxDischargeDepth := 60) [Keep]

@[simp] theorem State.mountAppended_keep (s : State) (b : BayId) : Keep s (State.mountAppended s b) := by
  simp only [State.mountAppended]
  (repeat' split) <;> simp +contextual (maxDischargeDepth := 60) [Keep]

@[simp] theorem State.mountRead_keep (s : State) (b : BayId) (r : MountRead) : Keep s (State.mountRead s b r) := by
  simp only [State.mountRead]
  (repeat' split) <;> simp +contextual (maxDischargeDepth := 60) [Keep]

@[simp] theorem execMountStageDone_keep (b : BayId) (r : MountRead) (s : State) : KeepNext s (execMountStageDone b r s) := by
  simp only [execMountStageDone]
  (repeat' split) <;> simp +contextual (maxDischargeDepth := 60) [Keep]

@[simp] theorem execDiscUnload_keep (b : BayId) (s : State) : KeepNext s (execDiscUnload b s) := by
  simp only [execDiscUnload]
  (repeat' split) <;> simp +contextual (maxDischargeDepth := 60) [Keep]

end Sys2Proof.Machine
end

