-- ==== Sys2Proof/Laws/KeepDram.lean ====
section
/-! SUPPORT. What the operations and meanings of Sys2Proof/Machine/Dram.lean leave as it was. -/

namespace Sys2Proof.Machine
set_option Elab.async false

theorem foldl_wf (l m : List Host.Cell) (h : Memory.wf m = true) :
    Memory.wf (l.foldl (fun m x => memWrite m x.1 [x.2]) m) = true := by
  induction l generalizing m with
  | nil => exact h
  | cons c l ih => exact ih _ (wf_memWrite _ _ h)

/-- A resilvered channel leaves the DRAM in its canonical form. -/
theorem resilvered_wf (s : State) (c : DramChan) (h : Memory.wf s.dram = true) : Memory.wf (s.resilvered c) = true :=
  foldl_wf _ _ (wf_filter _ h)


@[simp] theorem State.poolsBack_keep (s : State) (c : DramChan) : Keep s (State.poolsBack s c) := by
  simp only [State.poolsBack]
  (repeat' split) <;> simp +contextual (maxDischargeDepth := 60) [Keep]

@[simp] theorem State.beginTraining_keep (s : State) (c : DramChan) : Keep s (State.beginTraining s c) := by
  simp only [State.beginTraining]
  (repeat' split) <;> simp +contextual (maxDischargeDepth := 60) [Keep]

@[simp] theorem execDramTrain_keep (c : DramChan) (s : State) : KeepNext s (execDramTrain c s) := by
  simp only [execDramTrain]
  (repeat' split) <;> simp +contextual (maxDischargeDepth := 60) [Keep]

@[simp] theorem State.chanFailed_keep (s : State) (c : DramChan) (e : Ev) : Keep s (State.chanFailed s c e) := by
  simp only [State.chanFailed]
  (repeat' split) <;> simp +contextual (maxDischargeDepth := 60) [Keep]

@[simp] theorem execTrainingDone_keep (c : DramChan) (pass matchesConfig : Bool) (imt mmt : BitVec 12) (s : State) : KeepNext s (execTrainingDone c pass matchesConfig imt mmt s) := by
  simp only [execTrainingDone]
  (repeat' split) <;> simp +contextual (maxDischargeDepth := 60) [Keep]

@[simp] theorem execDramSwitch_keep (c : DramChan) (s : State) : KeepNext s (execDramSwitch c s) := by
  simp only [execDramSwitch]
  (repeat' split) <;> simp +contextual (maxDischargeDepth := 60) [Keep]

@[simp] theorem State.restartRead_keep (s : State) (id : Nat) : Keep s (State.restartRead s id) := by
  simp only [State.restartRead]
  (repeat' split) <;> simp +contextual (maxDischargeDepth := 60) [Keep]

@[simp] theorem State.loseCmd_keep (s : State) (id : Nat) : Keep s (State.loseCmd s id) := by
  simp only [State.loseCmd]
  (repeat' split) <;> simp +contextual (maxDischargeDepth := 60) [Keep]

@[simp] theorem State.frozenCmd_keep (s : State) (id : Nat) : Keep s (State.frozenCmd s id) := by
  simp only [State.frozenCmd]
  (repeat' split) <;> simp +contextual (maxDischargeDepth := 60) [Keep]

@[simp] theorem State.frozenStores_keep (s : State) (c : DramChan) : Keep s (State.frozenStores s c) := by
  simp only [State.frozenStores]
  (repeat' split) <;> simp +contextual (maxDischargeDepth := 60) [Keep]

@[simp] theorem State.frozenData_keep (s : State) (c : DramChan) : Keep s (State.frozenData s c) := by
  simp only [State.frozenData]
  (repeat' split) <;> simp +contextual (maxDischargeDepth := 60) [Keep]

@[simp] theorem State.freeze_keep (s : State) (c : DramChan) : Keep s (State.freeze s c) := by
  simp only [State.freeze]
  (repeat' split) <;> simp +contextual (maxDischargeDepth := 60) [Keep]

@[simp] theorem execSwitchDone_keep (c : DramChan) (trainOk : Bool) (s : State) : KeepNext s (execSwitchDone c trainOk s) := by
  simp only [execSwitchDone]
  (repeat' split) <;> simp +contextual (maxDischargeDepth := 60) [Keep]

@[simp] theorem execDeviceAlert_keep (c : DramChan) (clearedByRetry : Bool) (s : State) : KeepNext s (execDeviceAlert c clearedByRetry s) := by
  simp only [execDeviceAlert]
  (repeat' split) <;> simp +contextual (maxDischargeDepth := 60) [Keep]

@[simp] theorem State.loseContexts_keep (s : State) (off : Nat) : Keep s (State.loseContexts s off) := by
  simp only [State.loseContexts]
  (repeat' split) <;> simp +contextual (maxDischargeDepth := 60) [Keep]

@[simp] theorem State.loseMap_keep (s : State) (b : BayId) : Keep s (State.loseMap s b) := by
  simp only [State.loseMap]
  (repeat' split) <;> simp +contextual (maxDischargeDepth := 60) [Keep]

@[simp] theorem State.loseBlock_keep (s : State) (c : Cmd) (i : Nat) : Keep s (State.loseBlock s c i) := by
  simp only [State.loseBlock]
  (repeat' split) <;> simp +contextual (maxDischargeDepth := 60) [Keep]

@[simp] theorem State.loseBufBurst_keep (s : State) (a : Nat) : Keep s (State.loseBufBurst s a) := by
  simp only [State.loseBufBurst]
  (repeat' split) <;> simp +contextual (maxDischargeDepth := 60) [Keep]

@[simp] theorem State.losePage_keep (s : State) (a : Nat) : Keep s (State.losePage s a) := by
  simp only [State.losePage]
  (repeat' split) <;> simp +contextual (maxDischargeDepth := 60) [Keep]

@[simp] theorem State.loseBurst_keep (s : State) (a : Nat) : Keep s (State.loseBurst s a) := by
  simp only [State.loseBurst]
  (repeat' split) <;> simp +contextual (maxDischargeDepth := 60) [Keep]

@[simp] theorem State.markDevice_keep (s : State) (c : DramChan) (rank device : Nat) : Keep s (State.markDevice s c rank device) := by
  simp only [State.markDevice]
  (repeat' split) <;> simp +contextual (maxDischargeDepth := 60) [Keep]

@[simp] theorem State.blameDevice_keep (s : State) (a device : Nat) : Keep s (State.blameDevice s a device) := by
  simp only [State.blameDevice]
  (repeat' split) <;> simp +contextual (maxDischargeDepth := 60) [Keep]

@[simp] theorem State.correctable_keep (s : State) (a : Nat) (devs : List (Nat × Nat)) : Keep s (State.correctable s a devs) := by
  simp only [State.correctable]
  (repeat' split) <;> simp +contextual (maxDischargeDepth := 60) [Keep]

@[simp] theorem State.uncorrectable_keep (s : State) (a : Nat) : Keep s (State.uncorrectable s a) := by
  simp only [State.uncorrectable]
  (repeat' split) <;> simp +contextual (maxDischargeDepth := 60) [Keep]

@[simp] theorem State.readBurst_keep (s : State) (a : Nat) (e : BurstErrors) : Keep s (State.readBurst s a e) := by
  simp only [State.readBurst]
  (repeat' split) <;> simp +contextual (maxDischargeDepth := 60) [Keep]

@[simp] theorem execDramBurstRead_keep (addr : BitVec 37) (errs : BurstErrors) (s : State) : KeepNext s (execDramBurstRead addr errs s) := by
  simp only [execDramBurstRead]
  (repeat' split) <;> simp +contextual (maxDischargeDepth := 60) [Keep]

@[simp] theorem execDiagnoseDone_keep (c : DramChan) (r : DiagResult) (s : State) : KeepNext s (execDiagnoseDone c r s) := by
  simp only [execDiagnoseDone]
  (repeat' split) <;> simp +contextual (maxDischargeDepth := 60) [Keep]

@[simp] theorem execResilverDone_keep (c : DramChan) (s : State) : KeepNext s (execResilverDone c s) := by
  simp only [execResilverDone]
  split
  · exact (keepNext_next ..).mpr (Keep.refl s)
  · refine (keepNext_next ..).mpr (Keep.trans ?_ (State.poolsBack_keep ..))
    have h : Keep s { s with dram := s.resilvered c } := ⟨rfl, rfl, rfl, rfl, rfl, rfl, id, resilvered_wf s c⟩
    exact (h.trans (State.modDram_keep ..)).trans (State.setSta_keep ..)

@[simp] theorem State.scrubWrap_keep (s : State) : Keep s (State.scrubWrap s) := by
  simp only [State.scrubWrap]
  (repeat' split) <;> simp +contextual (maxDischargeDepth := 60) [Keep]

@[simp] theorem State.scrubSram_keep (s : State) (bits : Nat) (source : BitVec 16) : Keep s (State.scrubSram s bits source) := by
  simp only [State.scrubSram]
  (repeat' split) <;> simp +contextual (maxDischargeDepth := 60) [Keep]

@[simp] theorem execScrubInterval_keep (sram : Bool) (errs : BurstErrors) (sramBits : Fin 3) (source : BitVec 16) (s : State) : KeepNext s (execScrubInterval sram errs sramBits source s) := by
  simp only [execScrubInterval]
  (repeat' split) <;> simp +contextual (maxDischargeDepth := 60) [Keep]

@[simp] theorem execTrefiWindow_keep (c : DramChan) (bank : BitVec 6) (acts : Vector (BitVec 12) 5) (s : State) : KeepNext s (execTrefiWindow c bank acts s) := by
  simp only [execTrefiWindow]
  (repeat' split) <;> simp +contextual (maxDischargeDepth := 60) [Keep]

@[simp] theorem execMarkClear_keep (c : DramChan) (sub rank : Fin 2) (s : State) : KeepNext s (execMarkClear c sub rank s) := by
  simp only [execMarkClear]
  (repeat' split) <;> simp +contextual (maxDischargeDepth := 60) [Keep]

@[simp] theorem execCeClearTable_keep (s : State) : KeepNext s (execCeClearTable s) := by
  simp only [execCeClearTable]
  (repeat' split) <;> simp +contextual (maxDischargeDepth := 60) [Keep]

@[simp] theorem execDramcClearStats_keep (c : DramChan) (s : State) : KeepNext s (execDramcClearStats c s) := by
  simp only [execDramcClearStats]
  (repeat' split) <;> simp +contextual (maxDischargeDepth := 60) [Keep]

@[simp] theorem execMemprotClearStats_keep (s : State) : KeepNext s (execMemprotClearStats s) := by
  simp only [execMemprotClearStats]
  (repeat' split) <;> simp +contextual (maxDischargeDepth := 60) [Keep]

@[simp] theorem State.dramOff_keep (s : State) (c : DramChan) : Keep s (State.dramOff s c) := by
  simp only [State.dramOff]
  split
  · exact Keep.refl s
  · exact ((State.modDram_keep ..).trans (State.frozenData_keep ..)).trans ⟨rfl, rfl, rfl, rfl, rfl, rfl, id, wf_filter _⟩

@[simp] theorem State.dramOn_keep (s : State) (c : DramChan) : Keep s (State.dramOn s c) := by
  simp only [State.dramOn]
  (repeat' split) <;> simp +contextual (maxDischargeDepth := 60) [Keep]

end Sys2Proof.Machine
end

