-- ==== Sys2Proof/Laws/KeepChain.lean ====
section
/-! SUPPORT. What the operations and meanings of Sys2Proof/Machine/Chain.lean leave as it was. -/

namespace Sys2Proof.Machine
set_option Elab.async false

@[simp] theorem State.windowMiss_keep (s : State) (p : PacketIn) : Keep s (State.windowMiss s p) := by
  simp only [State.windowMiss]
  (repeat' split) <;> simp +contextual (maxDischargeDepth := 60) [Keep]

@[simp] theorem State.respond_keep (s : State) (p : PacketIn) (type status flags : Nat) (payload : List Byte) : Keep s (State.respond s p type status flags payload) := by
  simp only [State.respond]
  (repeat' split) <;> simp +contextual (maxDischargeDepth := 60) [Keep]

@[simp] theorem execChainWrite_keep (p : PacketIn) (s : State) : KeepNext s (execChainWrite p s) := by
  simp only [execChainWrite]
  repeat' first
    | exact Keep.refl _
    | assumption
    | exact id
    | rw [keepNext_next]
    | (simp +contextual (maxDischargeDepth := 60) [Keep]; done)
    | split
    | refine Keep.trans ?_ (foldl_keep _ (fun _ _ => ?_) _ _)
    | refine Keep.trans ?_ (State.store_keep ..)
    | refine Keep.trans ?_ (State.served_keep ..)
    | refine Keep.trans ?_ (State.receive_keep _ _ _ _ (fun _ => ?_))
    | refine Keep.trans ?_ (State.windowMiss_keep ..)
    | refine Keep.trans ?_ (State.respond_keep ..)

@[simp] theorem execReadReq_keep (p : PacketIn) (length : BitVec 16) (s : State) : KeepNext s (execReadReq p length s) := by
  simp only [execReadReq]
  repeat' first
    | exact Keep.refl _
    | assumption
    | exact id
    | rw [keepNext_next]
    | (simp +contextual (maxDischargeDepth := 60) [Keep]; done)
    | split
    | refine Keep.trans ?_ (foldl_keep _ (fun _ _ => ?_) _ _)
    | refine Keep.trans ?_ (State.served_keep ..)
    | refine Keep.trans ?_ (State.receive_keep _ _ _ _ (fun _ => ?_))
    | refine Keep.trans ?_ (State.windowMiss_keep ..)
    | refine Keep.trans ?_ (State.respond_keep ..)

@[simp] theorem State.adoptChain_keep (s : State) : Keep s (State.adoptChain s) := by
  simp only [State.adoptChain]
  (repeat' split) <;> simp +contextual (maxDischargeDepth := 60) [Keep]

@[simp] theorem State.commitChain_keep (s : State) : Keep s (State.commitChain s) := by
  simp only [State.commitChain]
  (repeat' split) <;> simp +contextual (maxDischargeDepth := 60) [Keep]

@[simp] theorem execChainCommit_keep (s : State) : KeepNext s (execChainCommit s) := by
  simp only [execChainCommit]
  (repeat' split) <;> simp +contextual (maxDischargeDepth := 60) [Keep]

@[simp] theorem State.endRequest_keep (s : State) (tag : Nat) (ok : Bool) : Keep s (State.endRequest s tag ok) := by
  simp only [State.endRequest]
  (repeat' split) <;> simp +contextual (maxDischargeDepth := 60) [Keep]

@[simp] theorem execReadResp_keep (p : PacketIn) (s : State) : KeepNext s (execReadResp p s) := by
  simp only [execReadResp]
  (repeat' split) <;> simp +contextual (maxDischargeDepth := 60) [Keep]

@[simp] theorem execWriteAck_keep (p : PacketIn) (s : State) : KeepNext s (execWriteAck p s) := by
  simp only [execWriteAck]
  (repeat' split) <;> simp +contextual (maxDischargeDepth := 60) [Keep]

@[simp] theorem execErrorResp_keep (p : PacketIn) (s : State) : KeepNext s (execErrorResp p s) := by
  simp only [execErrorResp]
  (repeat' split) <;> simp +contextual (maxDischargeDepth := 60) [Keep]

@[simp] theorem execReqTimeout_keep (tag : BitVec 16) (s : State) : KeepNext s (execReqTimeout tag s) := by
  simp only [execReqTimeout]
  (repeat' split) <;> simp +contextual (maxDischargeDepth := 60) [Keep]

@[simp] theorem State.releaseCopy_keep (s : State) (m : MirrorMsg) : Keep s (State.releaseCopy s m) := by
  simp only [State.releaseCopy]
  split
  · rename_i b n h
    cases hr : s.releaseBuf b.ref .chain with
    | none => exact Keep.refl s
    | some t => exact State.releaseBuf_keep _ _ _ t hr
  · exact Keep.refl s

@[simp] theorem State.logMirror_keep (s : State) (m : MirrorMsg) (status : Nat) : Keep s (State.logMirror s m status) := by
  simp only [State.logMirror]
  (repeat' split) <;> simp +contextual (maxDischargeDepth := 60) [Keep]

@[simp] theorem State.messageOutcome_keep (s : State) (m : MirrorMsg) (status : Nat) : Keep s (State.messageOutcome s m status) := by
  simp only [State.messageOutcome]
  (repeat' split) <;> simp +contextual (maxDischargeDepth := 60) [Keep]

@[simp] theorem State.sendMessage_keep (s : State) (m : MirrorMsg) (slot : Nat) (c : Cmd) : Keep s (State.sendMessage s m slot c) := by
  simp only [State.sendMessage]
  (repeat' split) <;> simp +contextual (maxDischargeDepth := 60) [Keep]

@[simp] theorem execMirrorMessageSend_keep (m : Fin 64) (s : State) : KeepNext s (execMirrorMessageSend m s) := by
  simp only [execMirrorMessageSend]
  (repeat' split) <;> simp +contextual (maxDischargeDepth := 60) [Keep]

@[simp] theorem execMirrorDone_keep (p : PacketIn) (s : State) : KeepNext s (execMirrorDone p s) := by
  simp only [execMirrorDone]
  repeat' first
    | exact Keep.refl _
    | assumption
    | exact id
    | rw [keepNext_next]
    | (simp +contextual (maxDischargeDepth := 60) [Keep]; done)
    | split
    | refine Keep.trans ?_ (foldl_keep _ (fun _ _ => ?_) _ _)
    | refine Keep.trans ?_ (State.modChain_keep ..)
    | refine Keep.trans ?_ (State.receive_keep _ _ _ _ (fun _ => ?_))
    | refine Keep.trans ?_ (State.messageOutcome_keep ..)

@[simp] theorem execMirrorTimeout_keep (msg : BitVec 64) (s : State) : KeepNext s (execMirrorTimeout msg s) := by
  simp only [execMirrorTimeout]
  (repeat' split) <;> simp +contextual (maxDischargeDepth := 60) [Keep]

@[simp] theorem State.answer_keep (s : State) (m : PeerMsg) (status : Nat) : Keep s (State.answer s m status) := by
  simp only [State.answer]
  (repeat' split) <;> simp +contextual (maxDischargeDepth := 60) [Keep]

@[simp] theorem State.takeMessage_keep (s : State) (m : PeerMsg) : Keep s (State.takeMessage s m) := by
  simp only [State.takeMessage]
  (repeat' split) <;> simp +contextual (maxDischargeDepth := 60) [Keep]

@[simp] theorem State.takeMessages_keep (s : State) (origin : Nat) (z0 : Nat) : Keep s (State.takeMessages s origin z0) := by
  induction z0 generalizing s with
  | zero => 
    simp only [State.takeMessages]
    repeat' first
      | exact Keep.refl _
      | assumption
      | exact id
      | rw [keepNext_next]
      | (simp +contextual (maxDischargeDepth := 60) [Keep]; done)
      | split
      | refine Keep.trans ?_ (foldl_keep _ (fun _ _ => ?_) _ _)
      | refine Keep.trans ?_ (State.takeMessage_keep ..)
  | succ _ ih =>
    simp only [State.takeMessages]
    repeat' first
      | exact Keep.refl _
      | assumption
      | exact id
      | rw [keepNext_next]
      | (simp +contextual (maxDischargeDepth := 60) [Keep]; done)
      | refine Keep.trans ?_ (ih _)
      | split
      | refine Keep.trans ?_ (foldl_keep _ (fun _ _ => ?_) _ _)
      | refine Keep.trans ?_ (State.takeMessage_keep ..)

@[simp] theorem State.firstPacket_keep (s : State) (p : PacketIn) (slot : Nat) : Keep s (State.firstPacket s p slot) := by
  simp only [State.firstPacket]
  (repeat' split) <;> simp +contextual (maxDischargeDepth := 60) [Keep]

@[simp] theorem State.nextPacket_keep (s : State) (p : PacketIn) (slot off : Nat) : Keep s (State.nextPacket s p slot off) := by
  simp only [State.nextPacket]
  (repeat' split) <;> simp +contextual (maxDischargeDepth := 60) [Keep]

@[simp] theorem State.mirrorMiss_keep (s : State) (p : PacketIn) : Keep s (State.mirrorMiss s p) := by
  simp only [State.mirrorMiss]
  (repeat' split) <;> simp +contextual (maxDischargeDepth := 60) [Keep]

@[simp] theorem State.mirrorJoin_keep (s : State) (p : PacketIn) (rel : Nat) : Keep s (State.mirrorJoin s p rel) := by
  simp only [State.mirrorJoin]
  (repeat' split) <;> simp +contextual (maxDischargeDepth := 60) [Keep]

@[simp] theorem State.mirrorPacket_keep (p : PacketIn) (s : State) : Keep s (State.mirrorPacket p s) := by
  simp only [State.mirrorPacket]
  (repeat' split) <;> simp +contextual (maxDischargeDepth := 60) [Keep]

@[simp] theorem execMirrorWrite_keep (p : PacketIn) (s : State) : KeepNext s (execMirrorWrite p s) := by
  simp only [execMirrorWrite]
  (repeat' split) <;> simp +contextual (maxDischargeDepth := 60) [Keep]

@[simp] theorem execTimeSyncTimer_keep (s : State) : KeepNext s (execTimeSyncTimer s) := by
  simp only [execTimeSyncTimer]
  (repeat' split) <;> simp +contextual (maxDischargeDepth := 60) [Keep]

@[simp] theorem execTimeSync_keep (p : PacketIn) (t2 : BitVec 64) (s : State) : KeepNext s (execTimeSync p t2 s) := by
  simp only [execTimeSync]
  (repeat' split) <;> simp +contextual (maxDischargeDepth := 60) [Keep]

@[simp] theorem State.correctTime_keep (s : State) (o : Int) : Keep s (State.correctTime s o) := by
  simp only [State.correctTime]
  (repeat' split) <;> simp +contextual (maxDischargeDepth := 60) [Keep]

@[simp] theorem execTimeReply_keep (p : PacketIn) (t1 t4 : BitVec 64) (s : State) : KeepNext s (execTimeReply p t1 t4 s) := by
  simp only [execTimeReply]
  (repeat' split) <;> simp +contextual (maxDischargeDepth := 60) [Keep]

end Sys2Proof.Machine
end

