-- ==== Sys2Proof/Laws/KeepEngines.lean ====
section
/-! SUPPORT. What the operations and meanings of Sys2Proof/Machine/Engines.lean leave as it was. -/

namespace Sys2Proof.Machine
set_option Elab.async false

@[simp] theorem State.sampleFlags_keep (s : State) (g : HeadId) (i : StrobeIn) (l : Fin 6) : Keep s (State.sampleFlags s g i l) := by
  simp only [State.sampleFlags]
  (repeat' split) <;> simp +contextual (maxDischargeDepth := 60) [Keep]

@[simp] theorem State.adoptEng_keep (s : State) (g : HeadId) (l : Fin 6) : Keep s (State.adoptEng s g l) := by
  simp only [State.adoptEng]
  (repeat' split) <;> simp +contextual (maxDischargeDepth := 60) [Keep]

@[simp] theorem State.adoptFoc_keep (s : State) (g : HeadId) : Keep s (State.adoptFoc s g) := by
  simp only [State.adoptFoc]
  (repeat' split) <;> simp +contextual (maxDischargeDepth := 60) [Keep]

@[simp] theorem State.applyCmd_keep (s : State) (g : HeadId) (l : Fin 6) : Keep s (State.applyCmd s g l) := by
  simp only [State.applyCmd]
  (repeat' split) <;> simp +contextual (maxDischargeDepth := 60) [Keep]

@[simp] theorem State.driveOverride_keep (s : State) (g : HeadId) (l : Fin 6) : Keep s (State.driveOverride s g l) := by
  simp only [State.driveOverride]
  (repeat' split) <;> simp +contextual (maxDischargeDepth := 60) [Keep]

@[simp] theorem State.startSample_keep (s : State) (g : HeadId) (x : Sensed) (l : Fin 6) : Keep s (State.startSample s g x l) := by
  simp only [State.startSample]
  (repeat' split) <;> simp +contextual (maxDischargeDepth := 60) [Keep]

@[simp] theorem State.learnStrobe_keep (s : State) (g : HeadId) (l : Fin 3) : Keep s (State.learnStrobe s g l) := by
  simp only [State.learnStrobe]
  (repeat' split) <;> simp +contextual (maxDischargeDepth := 60) [Keep]

@[simp] theorem State.driveSa_keep (s : State) (g : HeadId) : Keep s (State.driveSa s g) := by
  simp only [State.driveSa]
  (repeat' split) <;> simp +contextual (maxDischargeDepth := 60) [Keep]

@[simp] theorem State.driveSled_keep (s : State) (g : HeadId) : Keep s (State.driveSled s g) := by
  simp only [State.driveSled]
  (repeat' split) <;> simp +contextual (maxDischargeDepth := 60) [Keep]

@[simp] theorem State.reconfirm_keep (s : State) (g : HeadId) : Keep s (State.reconfirm s g) := by
  simp only [State.reconfirm]
  (repeat' split) <;> simp +contextual (maxDischargeDepth := 60) [Keep]

@[simp] theorem State.closeSample_keep (s : State) (g : HeadId) (l : Fin 6) : Keep s (State.closeSample s g l) := by
  simp only [State.closeSample]
  (repeat' split) <;> simp +contextual (maxDischargeDepth := 60) [Keep]

@[simp] theorem State.eachLoop_keep (s : State) (f : State → Fin 6 → State) (h : ∀ t l, Keep t (f t l)) :
    Keep s (State.eachLoop s f) := by
  simp only [State.eachLoop]
  exact foldl_keep _ h _ _

@[simp] theorem State.strobeIn_keep (s : State) (g : HeadId) (i : StrobeIn) : Keep s (State.strobeIn s g i) := by
  simp only [State.strobeIn]
  (repeat' split) <;> simp +contextual (maxDischargeDepth := 60) [Keep]

@[simp] theorem State.strobeRun_keep (s : State) (g : HeadId) (x : Sensed) (i : StrobeIn) : Keep s (State.strobeRun s g x i) := by
  simp only [State.strobeRun]
  (repeat' split) <;> simp +contextual (maxDischargeDepth := 60) [Keep]

@[simp] theorem State.strobeOut_keep (s : State) (g : HeadId) : Keep s (State.strobeOut s g) := by
  simp only [State.strobeOut]
  (repeat' split) <;> simp +contextual (maxDischargeDepth := 60) [Keep]

@[simp] theorem State.strobe_keep (s : State) (g : HeadId) (i : StrobeIn) : Keep s (State.strobe s g i) := by
  simp only [State.strobe]
  (repeat' split) <;> simp +contextual (maxDischargeDepth := 60) [Keep]

@[simp] theorem execHeadStrobe_keep (g : HeadId) (i : StrobeIn) (s : State) : KeepNext s (execHeadStrobe g i s) := by
  simp only [execHeadStrobe]
  (repeat' split) <;> simp +contextual (maxDischargeDepth := 60) [Keep]

@[simp] theorem State.miss_keep (s : State) (g : HeadId) (l : Fin 6) : Keep s (State.miss s g l) := by
  simp only [State.miss]
  (repeat' split) <;> simp +contextual (maxDischargeDepth := 60) [Keep]

@[simp] theorem execSampleMiss_keep (g : HeadId) (e : EngId) (s : State) : KeepNext s (execSampleMiss g e s) := by
  simp only [execSampleMiss]
  (repeat' split) <;> simp +contextual (maxDischargeDepth := 60) [Keep]

@[simp] theorem State.commitEng_keep (s : State) (g : HeadId) (l : Fin 6) (clear : Bool) : Keep s (State.commitEng s g l clear) := by
  simp only [State.commitEng]
  (repeat' split) <;> simp +contextual (maxDischargeDepth := 60) [Keep]

@[simp] theorem execEngCommit_keep (g : HeadId) (e : EngId) (action : BitVec 2) (s : State) : KeepNext s (execEngCommit g e action s) := by
  simp only [execEngCommit]
  (repeat' split) <;> simp +contextual (maxDischargeDepth := 60) [Keep]

@[simp] theorem execEngClearStats_keep (g : HeadId) (e : EngId) (s : State) : KeepNext s (execEngClearStats g e s) := by
  simp only [execEngClearStats]
  (repeat' split) <;> simp +contextual (maxDischargeDepth := 60) [Keep]

end Sys2Proof.Machine
end

