-- ==== Sys2Proof/Laws/KeepHeadLink.lean ====
section
/-! SUPPORT. What the operations and meanings of Sys2Proof/Machine/HeadLink.lean leave as it was. -/

namespace Sys2Proof.Machine
set_option Elab.async false

@[simp] theorem State.streamFault_keep (s : State) (g : HeadId) (k : BeamId) (flags : Nat) : Keep s (State.streamFault s g k flags) := by
  simp only [State.streamFault]
  (repeat' split) <;> simp +contextual (maxDischargeDepth := 60) [Keep]

@[simp] theorem State.laneTrain_keep (s : State) (g : HeadId) (k : BeamId) (n : Nat) : Keep s (State.laneTrain s g k n) := by
  simp only [State.laneTrain]
  (repeat' split) <;> simp +contextual (maxDischargeDepth := 60) [Keep]

@[simp] theorem State.laneBad_keep (s : State) (g : HeadId) (k : BeamId) : Keep s (State.laneBad s g k) := by
  simp only [State.laneBad]
  (repeat' split) <;> simp +contextual (maxDischargeDepth := 60) [Keep]

@[simp] theorem State.laneCheck_keep (s : State) (g : HeadId) : Keep s (State.laneCheck s g) := by
  simp only [State.laneCheck]
  (repeat' split) <;> simp +contextual (maxDischargeDepth := 60) [Keep]

@[simp] theorem State.linkFlags_keep (s : State) (g : HeadId) (k : BeamId) (f : BitVec 16) : Keep s (State.linkFlags s g k f) := by
  simp only [State.linkFlags]
  (repeat' split) <;> simp +contextual (maxDischargeDepth := 60) [Keep]

@[simp] theorem State.goodFrame_keep (s : State) (g : HeadId) (k : BeamId) (w : Vector (BitVec 16) 8) : Keep s (State.goodFrame s g k w) := by
  simp only [State.goodFrame]
  (repeat' split) <;> simp +contextual (maxDischargeDepth := 60) [Keep]

@[simp] theorem execStatusFrame_keep (g : HeadId) (lane : BeamId) (w : Vector (BitVec 16) 8) (s : State) : KeepNext s (execStatusFrame g lane w s) := by
  simp only [execStatusFrame]
  (repeat' split) <;> simp +contextual (maxDischargeDepth := 60) [Keep]

@[simp] theorem execLaneTrainTimeout_keep (g : HeadId) (lane : BeamId) (s : State) : KeepNext s (execLaneTrainTimeout g lane s) := by
  simp only [execLaneTrainTimeout]
  (repeat' split) <;> simp +contextual (maxDischargeDepth := 60) [Keep]

@[simp] theorem execLaneFrameTimeout_keep (g : HeadId) (lane : BeamId) (s : State) : KeepNext s (execLaneFrameTimeout g lane s) := by
  simp only [execLaneFrameTimeout]
  (repeat' split) <;> simp +contextual (maxDischargeDepth := 60) [Keep]

@[simp] theorem execLinkRetrain_keep (g : HeadId) (s : State) : KeepNext s (execLinkRetrain g s) := by
  simp only [execLinkRetrain]
  (repeat' split) <;> simp +contextual (maxDischargeDepth := 60) [Keep]

@[simp] theorem execLinkClearCounts_keep (g : HeadId) (s : State) : KeepNext s (execLinkClearCounts g s) := by
  simp only [execLinkClearCounts]
  (repeat' split) <;> simp +contextual (maxDischargeDepth := 60) [Keep]

@[simp] theorem execCoilFault_keep (g : HeadId) (c : Coil) (shorted : Bool) (s : State) : KeepNext s (execCoilFault g c shorted s) := by
  simp only [execCoilFault]
  (repeat' split) <;> simp +contextual (maxDischargeDepth := 60) [Keep]

end Sys2Proof.Machine
end

