-- ==== Sys2Proof/Laws/KeepDomains.lean ====
section
/-! SUPPORT. What the operations and meanings of Sys2Proof/Machine/Domains.lean leave as it was. -/

namespace Sys2Proof.Machine
set_option Elab.async false

@[simp] theorem State.clearStatus_keep (s : State) (d : Nat) : Keep s (State.clearStatus s d) := by
  simp only [State.clearStatus]
  (repeat' split) <;> simp +contextual (maxDischargeDepth := 60) [Keep]

@[simp] theorem State.dropMove_keep (s : State) (g : HeadId) : Keep s (State.dropMove s g) := by
  simp only [State.dropMove]
  (repeat' split) <;> simp +contextual (maxDischargeDepth := 60) [Keep]

@[simp] theorem State.headOff_keep (s : State) (g : HeadId) : Keep s (State.headOff s g) := by
  simp only [State.headOff]
  (repeat' split) <;> simp +contextual (maxDischargeDepth := 60) [Keep]

@[simp] theorem State.signalOff_keep (s : State) (b : BayId) : Keep s (State.signalOff s b) := by
  simp only [State.signalOff]
  (repeat' split) <;> simp +contextual (maxDischargeDepth := 60) [Keep]

@[simp] theorem State.headOn_keep (s : State) (g : HeadId) : Keep s (State.headOn s g) := by
  simp only [State.headOn]
  (repeat' split) <;> simp +contextual (maxDischargeDepth := 60) [Keep]

@[simp] theorem State.signalOn_keep (s : State) (b : BayId) : Keep s (State.signalOn s b) := by
  simp only [State.signalOn]
  (repeat' split) <;> simp +contextual (maxDischargeDepth := 60) [Keep]

@[simp] theorem State.axisOff_keep (s : State) (a : AxisId) : Keep s (State.axisOff s a) := by
  simp only [State.axisOff]
  (repeat' split) <;> simp +contextual (maxDischargeDepth := 60) [Keep]

@[simp] theorem State.axisOn_keep (s : State) (a : AxisId) : Keep s (State.axisOn s a) := by
  simp only [State.axisOn]
  (repeat' split) <;> simp +contextual (maxDischargeDepth := 60) [Keep]

@[simp] theorem State.motorOff_keep (s : State) (b : BayId) : Keep s (State.motorOff s b) := by
  simp only [State.motorOff]
  (repeat' split) <;> simp +contextual (maxDischargeDepth := 60) [Keep]

@[simp] theorem State.motorOn_keep (s : State) (b : BayId) : Keep s (State.motorOn s b) := by
  simp only [State.motorOn]
  (repeat' split) <;> simp +contextual (maxDischargeDepth := 60) [Keep]

@[simp] theorem State.transportOff_keep (s : State) : Keep s (State.transportOff s) := by
  simp only [State.transportOff]
  (repeat' split) <;> simp +contextual (maxDischargeDepth := 60) [Keep]

@[simp] theorem State.transportOn_keep (s : State) : Keep s (State.transportOn s) := by
  simp only [State.transportOn]
  (repeat' split) <;> simp +contextual (maxDischargeDepth := 60) [Keep]

@[simp] theorem State.decodersOff_keep (s : State) : Keep s (State.decodersOff s) := by
  simp only [State.decodersOff]
  (repeat' split) <;> simp +contextual (maxDischargeDepth := 60) [Keep]

@[simp] theorem State.queueOff_keep (s : State) : Keep s (State.queueOff s) := by
  simp only [State.queueOff]
  (repeat' split) <;> simp +contextual (maxDischargeDepth := 60) [Keep]

@[simp] theorem State.queueOn_keep (s : State) : Keep s (State.queueOn s) := by
  simp only [State.queueOn]
  (repeat' split) <;> simp +contextual (maxDischargeDepth := 60) [Keep]

@[simp] theorem State.domainOff_keep (s : State) (d : Nat) : Keep s (State.domainOff s d) := by
  simp only [State.domainOff]
  (repeat' split) <;> simp +contextual (maxDischargeDepth := 60) [Keep]

@[simp] theorem State.domainOn_keep (s : State) (d : Nat) : Keep s (State.domainOn s d) := by
  simp only [State.domainOn]
  (repeat' split) <;> simp +contextual (maxDischargeDepth := 60) [Keep]

@[simp] theorem State.railOff_keep (s : State) (d : Nat) : Keep s (State.railOff s d) := by
  simp only [State.railOff]
  (repeat' split) <;> simp +contextual (maxDischargeDepth := 60) [Keep]

@[simp] theorem State.railOn_keep (s : State) (d : Nat) : Keep s (State.railOn s d) := by
  simp only [State.railOn]
  (repeat' split) <;> simp +contextual (maxDischargeDepth := 60) [Keep]

end Sys2Proof.Machine
end

