-- ==== Sys2Proof/Laws/KeepFlash.lean ====
section
/-! SUPPORT. What the operations and meanings of Sys2Proof/Machine/Flash.lean leave as it was. -/

namespace Sys2Proof.Machine
set_option Elab.async false

@[simp] theorem State.modNv_keep (s : State) (f : Nv → Nv) : Keep s (State.modNv s f) := by
  simp only [State.modNv]
  (repeat' split) <;> simp +contextual (maxDischargeDepth := 60) [Keep]

@[simp] theorem State.bootAppend_keep (s : State) (kind reason : Nat) : Keep s (State.bootAppend s kind reason) := by
  simp only [State.bootAppend]
  (repeat' split) <;> simp +contextual (maxDischargeDepth := 60) [Keep]

@[simp] theorem State.takeCopy_keep (s : State) (c : Option (Fin 2)) (conflict : Bool) : Keep s (State.takeCopy s c conflict) := by
  simp only [State.takeCopy]
  (repeat' split) <;> simp +contextual (maxDischargeDepth := 60) [Keep]

@[simp] theorem State.beginProgram_keep (s : State) (target : Fin 2) (host : List Section) (version : Nat) (byHost : Bool) : Keep s (State.beginProgram s target host version byHost) := by
  simp only [State.beginProgram]
  (repeat' split) <;> simp +contextual (maxDischargeDepth := 60) [Keep]

end Sys2Proof.Machine
end

