-- ==== Sys2Proof/Laws/KeepEdt.lean ====
section
/-! SUPPORT. What the operations and meanings of Sys2Proof/Machine/Edt.lean leave as it was. -/

namespace Sys2Proof.Machine
set_option Elab.async false

@[simp] theorem State.writeEdt_keep (s : State) : Keep s (State.writeEdt s) := by
  simp only [State.writeEdt]
  (repeat' split) <;> simp +contextual (maxDischargeDepth := 60) [Keep]

end Sys2Proof.Machine
end

