-- ==== Sys2Proof/Laws/KeepFirmware.lean ====
section
/-! SUPPORT. What the operations and meanings of Sys2Proof/Machine/Firmware.lean leave as it was. -/

namespace Sys2Proof.Machine
set_option Elab.async false

@[simp] theorem execFwActivate_keep (cmd : BitVec 64) (s : State) : KeepNext s (execFwActivate cmd s) := by
  simp only [execFwActivate]
  (repeat' split) <;> simp +contextual (maxDischargeDepth := 60) [Keep]

@[simp] theorem execFwCoreBReady_keep (selfCheckOk : Bool) (s : State) : KeepNext s (execFwCoreBReady selfCheckOk s) := by
  simp only [execFwCoreBReady]
  (repeat' split) <;> simp +contextual (maxDischargeDepth := 60) [Keep]

@[simp] theorem execFwWatchdogExpiry_keep (s : State) : KeepNext s (execFwWatchdogExpiry s) := by
  simp only [execFwWatchdogExpiry]
  (repeat' split) <;> simp +contextual (maxDischargeDepth := 60) [Keep]

@[simp] theorem execFwCoreAStandby_keep (s : State) : KeepNext s (execFwCoreAStandby s) := by
  simp only [execFwCoreAStandby]
  (repeat' split) <;> simp +contextual (maxDischargeDepth := 60) [Keep]

end Sys2Proof.Machine
end

