-- ==== Sys2Proof/Laws/KeepPaths.lean ====
section
/-! SUPPORT. What the operations and meanings of Sys2Proof/Machine/Paths.lean leave as it was. -/

namespace Sys2Proof.Machine
set_option Elab.async false

@[simp] theorem State.modPath_keep (s : State) (p : MgmtPath) (f : PathSt → PathSt) : Keep s (State.modPath s p f) := by
  simp only [State.modPath]
  (repeat' split) <;> simp +contextual (maxDischargeDepth := 60) [Keep]

@[simp] theorem State.mboxDone_keep (s : State) : Keep s (State.mboxDone s) := by
  simp only [State.mboxDone]
  (repeat' split) <;> simp +contextual (maxDischargeDepth := 60) [Keep]

@[simp] theorem State.reply_keep (s : State) (p : MgmtPath) (status : Nat) (data : List Byte) : Keep s (State.reply s p status data) := by
  simp only [State.reply]
  (repeat' split) <;> simp +contextual (maxDischargeDepth := 60) [Keep]

@[simp] theorem State.startRequest_keep (s : State) (p : MgmtPath) : Keep s (State.startRequest s p) := by
  simp only [State.startRequest]
  (repeat' split) <;> simp +contextual (maxDischargeDepth := 60) [Keep]

@[simp] theorem State.mboxGo_keep (s : State) : Keep s (State.mboxGo s) := by
  simp only [State.mboxGo]
  (repeat' split) <;> simp +contextual (maxDischargeDepth := 60) [Keep]

@[simp] theorem State.runOp_keep (s : State) (p : MgmtPath) (op : Nat) (f : List Byte → State) (h : ∀ l, Keep s (f l)) :
    Keep s (State.runOp s p op f) := by
  simp only [State.runOp]
  (repeat' split) <;> first | exact Keep.refl s | exact h _ | exact State.reply_keep ..

end Sys2Proof.Machine
end

