-- ==== Sys2Proof/Laws/KeepManagement.lean ====
section
/-! SUPPORT. What the operations and meanings of Sys2Proof/Machine/Management.lean leave as it was. -/

namespace Sys2Proof.Machine
set_option Elab.async false

@[simp] theorem execMailboxGo_keep (s : State) : KeepNext s (execMailboxGo s) := by
  simp only [execMailboxGo]
  (repeat' split) <;> simp +contextual (maxDischargeDepth := 60) [Keep]

@[simp] theorem execSmbBlockWrite_keep (bytes : List Byte) (pecOk : Bool) (s : State) : KeepNext s (execSmbBlockWrite bytes pecOk s) := by
  simp only [execSmbBlockWrite]
  (repeat' split) <;> simp +contextual (maxDischargeDepth := 60) [Keep]

@[simp] theorem execSmbStart_keep (s : State) : KeepNext s (execSmbStart s) := by
  simp only [execSmbStart]
  (repeat' split) <;> simp +contextual (maxDischargeDepth := 60) [Keep]

@[simp] theorem execSmbStatusRead_keep (s : State) : KeepNext s (execSmbStatusRead s) := by
  simp only [execSmbStatusRead]
  (repeat' split) <;> simp +contextual (maxDischargeDepth := 60) [Keep]

@[simp] theorem execSmbBlockRead_keep (s : State) : KeepNext s (execSmbBlockRead s) := by
  simp only [execSmbBlockRead]
  (repeat' split) <;> simp +contextual (maxDischargeDepth := 60) [Keep]

@[simp] theorem execLogRead_keep (p : MgmtPath) (s : State) : KeepNext s (execLogRead p s) := by
  simp only [execLogRead, keepNext_next]
  refine State.runOp_keep _ _ _ _ (fun l => ?_)
  (repeat' split) <;> first
    | exact State.reply_keep ..
    | exact ((State.draw_keep ..).trans (State.draw_keep ..)).trans (State.reply_keep ..)

@[simp] theorem execMeterRead_keep (p : MgmtPath) (s : State) : KeepNext s (execMeterRead p s) := by
  simp only [execMeterRead]
  repeat' first
    | exact Keep.refl _
    | assumption
    | exact id
    | rw [keepNext_next]
    | (simp +contextual (maxDischargeDepth := 60) [Keep]; done)
    | split
    | refine Keep.trans ?_ (foldl_keep _ (fun _ _ => ?_) _ _)
    | refine Keep.trans ?_ (State.accrueMounted_keep ..)
    | refine Keep.trans ?_ (State.meterTaken_keep ..)
    | refine Keep.trans ?_ (State.reply_keep ..)
    | refine State.runOp_keep _ _ _ _ (fun _ => ?_)

@[simp] theorem execSensorRead_keep (p : MgmtPath) (s : State) : KeepNext s (execSensorRead p s) := by
  simp only [execSensorRead]
  (repeat' split) <;> simp +contextual (maxDischargeDepth := 60) [Keep]

@[simp] theorem execEvents_keep (p : MgmtPath) (s : State) : KeepNext s (execEvents p s) := by
  simp only [execEvents]
  repeat' first
    | exact Keep.refl _
    | assumption
    | exact id
    | rw [keepNext_next]
    | (simp +contextual (maxDischargeDepth := 60) [Keep]; done)
    | split
    | refine Keep.trans ?_ (foldl_keep _ (fun _ _ => ?_) _ _)
    | refine Keep.trans ?_ (State.reply_keep ..)
    | refine State.runOp_keep _ _ _ _ (fun _ => ?_)

@[simp] theorem execNvRead_keep (p : MgmtPath) (s : State) : KeepNext s (execNvRead p s) := by
  simp only [execNvRead]
  repeat' first
    | exact Keep.refl _
    | assumption
    | exact id
    | rw [keepNext_next]
    | (simp +contextual (maxDischargeDepth := 60) [Keep]; done)
    | split
    | refine Keep.trans ?_ (foldl_keep _ (fun _ _ => ?_) _ _)
    | refine Keep.trans ?_ (State.reply_keep ..)
    | refine State.runOp_keep _ _ _ _ (fun _ => ?_)

@[simp] theorem State.endImage_keep (s : State) (p : MgmtPath) : Keep s (State.endImage s p) := by
  simp only [State.endImage]
  (repeat' split) <;> simp +contextual (maxDischargeDepth := 60) [Keep]

@[simp] theorem State.placePiece_keep (s : State) (p : MgmtPath) (off : Nat) (first : Bool) (data : List Byte) : Keep s (State.placePiece s p off first data) := by
  simp only [State.placePiece]
  (repeat' split) <;> simp +contextual (maxDischargeDepth := 60) [Keep]

@[simp] theorem State.nvPiece_keep (s : State) (p : MgmtPath) (l : List Byte) : Keep s (State.nvPiece s p l) := by
  simp only [State.nvPiece]
  (repeat' split) <;> simp +contextual (maxDischargeDepth := 60) [Keep]

@[simp] theorem execNvWrite_keep (p : MgmtPath) (s : State) : KeepNext s (execNvWrite p s) := by
  simp only [execNvWrite]
  (repeat' split) <;> simp +contextual (maxDischargeDepth := 60) [Keep]

@[simp] theorem execNvWriteHoldTimeout_keep (s : State) : KeepNext s (execNvWriteHoldTimeout s) := by
  simp only [execNvWriteHoldTimeout]
  (repeat' split) <;> simp +contextual (maxDischargeDepth := 60) [Keep]

@[simp] theorem execModuleImageWrite_keep (s : State) : KeepNext s (execModuleImageWrite s) := by
  simp only [execModuleImageWrite]
  (repeat' split) <;> simp +contextual (maxDischargeDepth := 60) [Keep]

@[simp] theorem execNvProgramDone_keep (verified : Bool) (s : State) : KeepNext s (execNvProgramDone verified s) := by
  simp only [execNvProgramDone]
  (repeat' split) <;> simp +contextual (maxDischargeDepth := 60) [Keep]

@[simp] theorem execMeterSnapshot_keep (s : State) : KeepNext s (execMeterSnapshot s) := by
  simp only [execMeterSnapshot]
  (repeat' split) <;> simp +contextual (maxDischargeDepth := 60) [Keep]

end Sys2Proof.Machine
end

