-- ==== Sys2Proof/Laws/KeepOperands.lean ====
section
/-! SUPPORT. What the operations and meanings of Sys2Proof/Machine/Operands.lean leave as it was. -/

namespace Sys2Proof.Machine
set_option Elab.async false

@[simp] theorem State.readBy_keep (s : State) (i : Fin 3) (a : Nat) : Keep s (State.readBy s i a).2 := by
  simp only [State.readBy]
  (repeat' split) <;> simp +contextual (maxDischargeDepth := 60) [Keep]

end Sys2Proof.Machine
end

