-- ==== Sys2Proof/Laws/KeepPower.lean ====
section
/-! SUPPORT. What the operations and meanings of Sys2Proof/Machine/Power.lean leave as it was. -/

namespace Sys2Proof.Machine
set_option Elab.async false

@[simp] theorem State.writeError_keep (s : State) (i : Iface) (kind a : Nat) : Keep s (State.writeError s i kind a) := by
  simp only [State.writeError]
  (repeat' split) <;> simp +contextual (maxDischargeDepth := 60) [Keep]

@[simp] theorem State.latchLow_keep (s : State) (i : Iface) (addr : Nat) (v : BitVec 32) : Keep s (State.latchLow s i addr v) := by
  simp only [State.latchLow]
  (repeat' split) <;> simp +contextual (maxDischargeDepth := 60) [Keep]

@[simp] theorem State.takeLow_keep (s : State) (i : Iface) (addr present : Nat) : Keep s (State.takeLow s i addr present).2 := by
  simp only [State.takeLow]
  (repeat' split) <;> simp +contextual (maxDischargeDepth := 60) [Keep]

@[simp] theorem State.setOn_keep (s : State) (d : Nat) (v : Bool) : Keep s (State.setOn s d v) := by
  simp only [State.setOn]
  (repeat' split) <;> simp +contextual (maxDischargeDepth := 60) [Keep]

@[simp] theorem State.domainBit_keep (s : State) (d : Nat) (v : Bool) : Keep s (State.domainBit s d v) := by
  simp only [State.domainBit]
  (repeat' split) <;> simp +contextual (maxDischargeDepth := 60) [Keep]

@[simp] theorem execDomainWrite_keep (i : Iface) (high : Bool) (value : BitVec 32) (s : State) : KeepNext s (execDomainWrite i high value s) := by
  simp only [execDomainWrite]
  (repeat' split) <;> simp +contextual (maxDischargeDepth := 60) [Keep]

@[simp] theorem execDomainSwitchDone_keep (d : Fin 20) (s : State) : KeepNext s (execDomainSwitchDone d s) := by
  simp only [execDomainSwitchDone]
  (repeat' split) <;> simp +contextual (maxDischargeDepth := 60) [Keep]

@[simp] theorem execCapWrite_keep (v : BitVec 17) (s : State) : KeepNext s (execCapWrite v s) := by
  simp only [execCapWrite]
  (repeat' split) <;> simp +contextual (maxDischargeDepth := 60) [Keep]

@[simp] theorem execGovernorScan_keep (s : State) : KeepNext s (execGovernorScan s) := by
  simp only [execGovernorScan]
  (repeat' split) <;> simp +contextual (maxDischargeDepth := 60) [Keep]

@[simp] theorem execPowerMeasure_keep (mw : BitVec 17) (below98For100ms : Bool) (s : State) : KeepNext s (execPowerMeasure mw below98For100ms s) := by
  simp only [execPowerMeasure]
  (repeat' split) <;> simp +contextual (maxDischargeDepth := 60) [Keep]

@[simp] theorem execThermalWarn_keep (temp : BitVec 16) (s : State) : KeepNext s (execThermalWarn temp s) := by
  simp only [execThermalWarn]
  (repeat' split) <;> simp +contextual (maxDischargeDepth := 60) [Keep]

@[simp] theorem execThermalWarnClear_keep (s : State) : KeepNext s (execThermalWarnClear s) := by
  simp only [execThermalWarnClear]
  (repeat' split) <;> simp +contextual (maxDischargeDepth := 60) [Keep]

@[simp] theorem State.axisBridgeOff_keep (s : State) (a : AxisId) : Keep s (State.axisBridgeOff s a) := by
  simp only [State.axisBridgeOff]
  (repeat' split) <;> simp +contextual (maxDischargeDepth := 60) [Keep]

@[simp] theorem State.driveBridgeOff_keep (s : State) (b : BayId) : Keep s (State.driveBridgeOff s b) := by
  simp only [State.driveBridgeOff]
  (repeat' split) <;> simp +contextual (maxDischargeDepth := 60) [Keep]

@[simp] theorem State.headBridgesOff_keep (s : State) (g : HeadId) : Keep s (State.headBridgesOff s g) := by
  simp only [State.headBridgesOff]
  (repeat' split) <;> simp +contextual (maxDischargeDepth := 60) [Keep]

@[simp] theorem State.bayBridgesOff_keep (s : State) (b : BayId) : Keep s (State.bayBridgesOff s b) := by
  simp only [State.bayBridgesOff]
  (repeat' split) <;> simp +contextual (maxDischargeDepth := 60) [Keep]

@[simp] theorem State.bridgesOff_keep (s : State) : Keep s (State.bridgesOff s) := by
  simp only [State.bridgesOff]
  (repeat' split) <;> simp +contextual (maxDischargeDepth := 60) [Keep]

@[simp] theorem State.powerFailure_keep (s : State) : Keep s (State.powerFailure s) := by
  simp only [State.powerFailure]
  (repeat' split) <;> simp +contextual (maxDischargeDepth := 60) [Keep]

@[simp] theorem execPwrGoodDeassert_keep (s : State) : KeepNext s (execPwrGoodDeassert s) := by
  simp only [execPwrGoodDeassert]
  (repeat' split) <;> simp +contextual (maxDischargeDepth := 60) [Keep]

@[simp] theorem execVinUndervolt_keep (vin : BitVec 16) (s : State) : KeepNext s (execVinUndervolt vin s) := by
  simp only [execVinUndervolt]
  (repeat' split) <;> simp +contextual (maxDischargeDepth := 60) [Keep]

@[simp] theorem State.restartDrives_keep (s : State) : Keep s (State.restartDrives s) := by
  simp only [State.restartDrives]
  (repeat' split) <;> simp +contextual (maxDischargeDepth := 60) [Keep]

@[simp] theorem execPowerFailEnd_keep (s : State) : KeepNext s (execPowerFailEnd s) := by
  simp only [execPowerFailEnd]
  (repeat' split) <;> simp +contextual (maxDischargeDepth := 60) [Keep]

@[simp] theorem execReferenceLost_keep (s : State) : KeepNext s (execReferenceLost s) := by
  simp only [execReferenceLost]
  (repeat' split) <;> simp +contextual (maxDischargeDepth := 60) [Keep]

@[simp] theorem execTimebaseOffsetWrite_keep (i : Iface) (high : Bool) (value : BitVec 32) (s : State) : KeepNext s (execTimebaseOffsetWrite i high value s) := by
  simp only [execTimebaseOffsetWrite]
  (repeat' split) <;> simp +contextual (maxDischargeDepth := 60) [Keep]

end Sys2Proof.Machine
end

