-- ==== Sys2Proof/Laws/KeepRegWrite.lean ====
section
/-! SUPPORT. What the operations and meanings of Sys2Proof/Machine/RegWrite.lean leave as it was. -/

namespace Sys2Proof.Machine
set_option Elab.async false

@[simp] theorem State.run_keep (s : State) (f : State → Host.Outcome State Fault Refusal) (h : ∀ t, KeepNext t (f t)) :
    Keep s (State.run s f) := by
  obtain ⟨t, ht, hk⟩ := h s
  simp only [State.run, ht]
  exact hk

@[simp] theorem State.commitTag_keep (s : State) (tag : Nat) : Keep s (State.commitTag s tag) := by
  simp only [State.commitTag]
  (repeat' split) <;> simp +contextual (maxDischargeDepth := 60) [Keep]

@[simp] theorem State.globalGroup_keep (s : State) (tag : Nat) : Keep s (State.globalGroup s tag) := by
  simp only [State.globalGroup]
  (repeat' split) <;> simp +contextual (maxDischargeDepth := 60) [Keep]

@[simp] theorem State.globalCommit_keep (s : State) (first last : Nat) : Keep s (State.globalCommit s first last) := by
  simp only [State.globalCommit]
  (repeat' split) <;> simp +contextual (maxDischargeDepth := 60) [Keep]

@[simp] theorem State.clearW1c_keep (s : State) (b : Blk) (f : Field) (v : Nat) : Keep s (State.clearW1c s b f v) := by
  simp only [State.clearW1c]
  (repeat' split) <;> simp +contextual (maxDischargeDepth := 60) [Keep]

@[simp] theorem State.putSpindle_keep (s : State) (n : BayId) (f : Field) (v : Nat) : Keep s (State.putSpindle s n f v) := by
  simp only [State.putSpindle]
  (repeat' split) <;> simp +contextual (maxDischargeDepth := 60) [Keep]

@[simp] theorem State.putAxis_keep (s : State) (a : AxisId) (f : Field) (v : Nat) : Keep s (State.putAxis s a f v) := by
  simp only [State.putAxis]
  (repeat' split) <;> simp +contextual (maxDischargeDepth := 60) [Keep]

@[simp] theorem State.putTransport_keep (s : State) (n : Fin 4) (f : Field) (v : Nat) : Keep s (State.putTransport s n f v) := by
  simp only [State.putTransport]
  (repeat' split) <;> simp +contextual (maxDischargeDepth := 60) [Keep]

@[simp] theorem State.putBufpool_keep (s : State) (f : Field) (v : Nat) : Keep s (State.putBufpool s f v) := by
  simp only [State.putBufpool]
  (repeat' split) <;> simp +contextual (maxDischargeDepth := 60) [Keep]

@[simp] theorem State.putCcache_keep (s : State) (f : Field) (v : Nat) : Keep s (State.putCcache s f v) := by
  simp only [State.putCcache]
  (repeat' split) <;> simp +contextual (maxDischargeDepth := 60) [Keep]

@[simp] theorem State.putChain_keep (s : State) (f : Field) (v : Nat) : Keep s (State.putChain s f v) := by
  simp only [State.putChain]
  (repeat' split) <;> simp +contextual (maxDischargeDepth := 60) [Keep]

@[simp] theorem State.putField_keep (s : State) (b : Blk) (f : Field) (v : Nat) : Keep s (State.putField s b f v) := by
  cases b with
  | spindle n => exact State.putSpindle_keep ..
  | sled g => exact State.putAxis_keep ..
  | sa g => exact State.putAxis_keep ..
  | taxis n => exact State.putTransport_keep ..
  | bufpool => exact State.putBufpool_keep ..
  | ccache => exact State.putCcache_keep ..
  | chain => exact State.putChain_keep ..
  | pool p =>
    show Keep s (if f = POOL.enable then s.run (execPoolEnableWrite p (v == 1)) else s.setFld (.pool p) f v)
    split
    · exact State.run_keep _ _ (fun t => execPoolEnableWrite_keep ..)
    · exact State.setFld_keep ..
  | quota r =>
    show Keep s (if f = QUOTA.limit r.val then s.run (execQuotaLimitWrite r (BitVec.ofNat 24 v)) else s.setFld (.quota r) f v)
    split
    · exact State.run_keep _ _ (fun t => execQuotaLimitWrite_keep ..)
    · exact State.setFld_keep ..
  | power =>
    show Keep s (if f = POWER.cap_mw then s.run (execCapWrite (BitVec.ofNat 17 v)) else (s.setFld .power f v).scanGrants)
    split
    · exact State.run_keep _ _ (fun t => execCapWrite_keep ..)
    · exact (State.setFld_keep ..).trans (State.scanGrants_keep ..)
  | link g =>
    show Keep s (if f = LINK.lane_enable then (s.setFld (.link g) f v).laneCheck g else s.setFld (.link g) f v)
    split
    · exact (State.setFld_keep ..).trans (State.laneCheck_keep ..)
    · exact State.setFld_keep ..
  | _ => exact State.setFld_keep ..

@[simp] theorem State.axisCommand_keep (s : State) (a : AxisId) (f : Field) : Keep s (State.axisCommand s a f) := by
  simp only [State.axisCommand]
  (repeat' split) <;> simp +contextual (maxDischargeDepth := 60) [Keep]

@[simp] theorem State.command_keep (s : State) (b : Blk) (f : Field) (w : Nat) : Keep s (State.command s b f w) := by
  simp only [State.command]
  (repeat' split) <;> simp +contextual (maxDischargeDepth := 60) [Keep]

theorem State.writeField_keep (b : Blk) (m v : Nat) (r : Bool × State) (f : Field) : Keep r.2 (State.writeField b m v r f).2 := by
  simp only [State.writeField]
  (repeat' split) <;> first
    | exact Keep.refl _
    | exact State.clearW1c_keep ..
    | exact State.orSta_keep ..
    | exact State.setFld_keep ..
    | exact State.putField_keep ..

@[simp] theorem State.writeCommand_keep (b : Blk) (w : Nat) (s : State) (f : Field) : Keep s (State.writeCommand b w s f) := by
  simp only [State.writeCommand]
  (repeat' split) <;> simp +contextual (maxDischargeDepth := 60) [Keep]

theorem foldl_keep_snd {α : Type} (f : Bool × State → α → Bool × State) (h : ∀ r x, Keep r.2 (f r x).2) (l : List α)
    (r : Bool × State) : Keep r.2 (l.foldl f r).2 := by
  induction l generalizing r with
  | nil => exact Keep.refl r.2
  | cons a l ih => exact (h r a).trans (ih (f r a))

@[simp] theorem State.writeFields_keep (s : State) (b : Blk) (a m v : Nat) : Keep s (State.writeFields s b a m v).2 :=
  (foldl_keep_snd _ (fun r x => State.writeField_keep b m v r x) _ (false, s)).trans
    (foldl_keep _ (fun t x => State.writeCommand_keep ..) _ _)

@[simp] theorem State.writeRequest_keep (s : State) (off v : Nat) : Keep s (State.writeRequest s off v) := by
  simp only [State.writeRequest]
  (repeat' split) <;> simp +contextual (maxDischargeDepth := 60) [Keep]

@[simp] theorem State.writeMerged_keep (s : State) (i : Iface) (a m v merged : Nat) : Keep s (State.writeMerged s i a m v merged).2 := by
  simp only [State.writeMerged]
  (repeat' split) <;> simp +contextual (maxDischargeDepth := 60) [Keep]

@[simp] theorem State.writeWord_keep (s : State) (i : Iface) (a m v : Nat) : Keep s (State.writeWord s i a m v).2 := by
  simp only [State.writeWord]
  (repeat' split) <;> simp +contextual (maxDischargeDepth := 60) [Keep]

@[simp] theorem execGlobalCommit_keep (first last : BitVec 16) (s : State) : KeepNext s (execGlobalCommit first last s) := by
  simp only [execGlobalCommit]
  (repeat' split) <;> simp +contextual (maxDischargeDepth := 60) [Keep]

@[simp] theorem execRegisterWrite_keep (i : Iface) (addr : BitVec 26) (value : BitVec 32) (s : State) : KeepNext s (execRegisterWrite i addr value s) := by
  simp only [execRegisterWrite]
  (repeat' split) <;> simp +contextual (maxDischargeDepth := 60) [Keep]

@[simp] theorem execCompleterAbortRead_keep (addr : BitVec 64) (len : BitVec 16) (s : State) : KeepNext s (execCompleterAbortRead addr len s) := by
  simp only [execCompleterAbortRead]
  (repeat' split) <;> simp +contextual (maxDischargeDepth := 60) [Keep]

@[simp] theorem execLowWordRead_keep (i : Iface) (addr : BitVec 26) (s : State) : KeepNext s (execLowWordRead i addr s) := by
  simp only [execLowWordRead]
  (repeat' split) <;> simp +contextual (maxDischargeDepth := 60) [Keep]

end Sys2Proof.Machine
end

