-- ==== Sys2Proof/Laws/KeepStart.lean ====
section
/-! SUPPORT. What a start leaves as it was: the queue, the log's bound and the DRAM's canonical form, and the modes that it ends in. -/

namespace Sys2Proof.Machine
set_option Elab.async false

/-- What a start keeps. -/
@[reducible] def KeepQueue (s t : State) : Prop :=
  t.pending = s.pending ∧ (logBounded s.log.entries → logBounded t.log.entries) ∧
    (Memory.wf s.dram = true → Memory.wf t.dram = true)

theorem Keep.queue {s t : State} (h : Keep s t) : KeepQueue s t := ⟨h.1, h.2.2.2.2.2.2.1, h.2.2.2.2.2.2.2⟩

theorem KeepQueue.trans {s t u : State} (h : KeepQueue s t) (k : KeepQueue t u) : KeepQueue s u :=
  ⟨k.1.trans h.1, fun x => k.2.1 (h.2.1 x), fun x => k.2.2 (h.2.2 x)⟩

@[simp] theorem State.modMgmt_queue (s : State) (f : Mgmt → Mgmt) : KeepQueue s (s.modMgmt f) := ⟨rfl, id, id⟩

@[simp] theorem State.detachAll_keep (s : State) : Keep s s.detachAll :=
  foldl_keep _ (fun t f => State.resetQueues_keep t f false) _ s

@[simp] theorem State.domainsDown_keep (s : State) : Keep s s.domainsDown := foldl_keep _ (fun t d => State.domainOff_keep t d) _ s

@[simp] theorem State.sleepDrams_keep (s : State) : Keep s s.sleepDrams := ⟨rfl, rfl, rfl, rfl, rfl, rfl, id, id⟩

@[simp] theorem State.railsDown_keep (s : State) : Keep s s.railsDown := ⟨rfl, rfl, rfl, rfl, rfl, rfl, id, id⟩

@[simp] theorem State.allOff_keep (s : State) : Keep s s.allOff :=
  ((((State.domainsDown_keep s).trans (State.sleepDrams_keep _)).trans (State.clearStatus_keep _ 14)).trans
    (State.clearStatus_keep _ 13)).trans (State.railsDown_keep _)

@[simp] theorem State.allOn_keep (s : State) : Keep s s.allOn :=
  foldl_keep _ (fun t d => (State.setOn_keep t d true).trans (State.railOn_keep ..)) _ s

@[simp] theorem State.applyDefault_keep (s : State) (d : RegDefault) : Keep s (s.applyDefault d) := by
  simp only [State.applyDefault]
  split
  · exact State.logEv_keep ..
  · exact State.writeWord_keep ..

@[simp] theorem State.trainAtStart_keep (s : State) (i : StartIn) (c : DramChan) : Keep s (s.trainAtStart i c) := by
  simp only [State.trainAtStart]
  (repeat' split) <;> first
    | exact Keep.refl s
    | exact ((State.draw_keep ..).trans (State.draw_keep ..)).trans (State.run_keep _ _ (fun t => execTrainingDone_keep ..))
    | exact (State.modDram_keep ..).trans (State.chanFailed_keep ..)

@[simp] theorem State.loadNs_keep (s : State) (n : Ns) : Keep s (s.loadNs n) := by
  simp +contextual (maxDischargeDepth := 60) [State.loadNs, Keep]

@[simp] theorem State.loadStores_keep (s : State) : Keep s s.loadStores := ⟨rfl, rfl, rfl, rfl, rfl, rfl, id, id⟩

@[simp] theorem State.loadOwned_keep (s : State) : Keep s s.loadOwned :=
  (Keep.trans (t := { s with nss := [] }) ⟨rfl, rfl, rfl, rfl, rfl, rfl, id, id⟩ (foldl_keep _ State.loadNs_keep _ _)).trans
    (State.loadStores_keep _)

@[simp] theorem State.resumeSeq_keep (s : State) : Keep s s.resumeSeq := ⟨rfl, rfl, rfl, rfl, rfl, rfl, id, id⟩

@[simp] theorem State.lateDefaults_keep (s : State) : Keep s s.lateDefaults := foldl_keep _ State.applyDefault_keep _ _

@[simp] theorem State.commitAll_keep (s : State) : Keep s s.commitAll := foldl_keep _ State.commitTag_keep _ _

@[simp] theorem State.step7_keep (s : State) (first : Bool) : Keep s (s.step7 first) := by
  have h1 : Keep s s.lateDefaults.commitAll := (State.lateDefaults_keep s).trans (State.commitAll_keep _)
  have h2 : ∀ t : State, Keep s t → Keep s ((List.finRange 16).foldl State.recomputeTrims t.resumeSeq) :=
    fun t h => (h.trans (State.resumeSeq_keep t)).trans (foldl_keep _ State.recomputeTrims_keep _ _)
  simp only [State.step7]
  refine h2 _ ?_
  split
  · exact h1.trans (State.loadOwned_keep _)
  · exact h1

@[simp] theorem State.step6a_keep (s : State) (first : Bool) : Keep s (s.step6a first) := by
  simp only [State.step6a]
  have h : Keep s ((s.defaults.filter RegDefault.early).foldl State.applyDefault s) := foldl_keep _ State.applyDefault_keep _ _
  split
  · exact h.trans ⟨rfl, rfl, rfl, rfl, rfl, rfl, id, id⟩
  · exact h

@[simp] theorem State.step6b_keep (s : State) (i : StartIn) : Keep s (s.step6b i) :=
  ((State.allOn_keep s).trans (State.trainAtStart_keep _ i .a)).trans (State.trainAtStart_keep _ i .b)

/-! ### What a start leaves -/

/-- From s to t the queue, the log's bound and the DRAM's form are kept, and t's mode is legal. -/
def StartEnds (s t : State) : Prop := KeepQueue s t ∧ modeLegal t

theorem State.enterMinimal_ends (s : State) (reason : Nat) : StartEnds s (s.enterMinimal reason) := by
  have h1 : Keep s (s.detachAll).allOff := (State.detachAll_keep s).trans (State.allOff_keep _)
  have h2 : Keep s (if (s.detachAll).allOff.host.vfEnable then (s.detachAll).allOff.dropVfs else (s.detachAll).allOff) := by
    split
    · exact h1.trans (State.dropVfs_keep _)
    · exact h1
  simp only [State.enterMinimal]
  generalize (if (s.detachAll).allOff.host.vfEnable then (s.detachAll).allOff.dropVfs else (s.detachAll).allOff) = u at h2 ⊢
  generalize hv : State.modMgmt { u with minimal := true } (fun m => { m with
    started := false, reason := reason, fw := Config.otpFirmwareVersion, act := none, newAct := false, startStep := 3 }) = v
  have hk : Keep v ((v.writeEdt).logVec (srcBlock 0) .startFailed [reason] 9) := (State.writeEdt_keep v).trans (State.logVec_keep ..)
  subst hv
  refine ⟨h2.queue.trans (KeepQueue.trans ⟨rfl, id, id⟩ hk.queue), fun _ => ?_⟩
  exact hk.2.2.1

theorem State.failStart_ends (s : State) (reason : Nat) (direct : Bool) :
    StartEnds s (s.failStart reason direct) := by
  have h1 : Keep s ((s.bootAppend 3 reason).logEv (srcBlock 0) .startFailed [reason]) :=
    (State.bootAppend_keep s 3 reason).trans (State.logEv_keep ..)
  simp only [State.failStart]
  split
  · obtain ⟨hq, hm⟩ := State.enterMinimal_ends ((s.bootAppend 3 reason).logEv (srcBlock 0) .startFailed [reason]) reason
    exact ⟨h1.queue.trans hq, hm⟩
  · exact ⟨h1.queue.trans ⟨rfl, id, id⟩, fun _ => rfl⟩

theorem StartEnds.of_queue {s t u : State} (h : KeepQueue s t) (k : StartEnds t u) : StartEnds s u := ⟨h.trans k.1, k.2⟩

theorem State.startRuns_queue (s : State) : KeepQueue s s.startRuns := ⟨rfl, id, id⟩

theorem State.unload'_queue (s : State) (first : Bool) : KeepQueue s (s.unload' first) := ⟨rfl, id, id⟩

theorem State.latchStrap_queue (s : State) : KeepQueue s s.latchStrap := ⟨rfl, id, id⟩

theorem State.step6_keep (s : State) (i : StartIn) (first : Bool) :
    Keep s.startRuns (if i.domainsOk then (s.startRuns.step6a first).step6b i else s.startRuns.step6a first) := by
  split
  · exact (State.step6a_keep ..).trans (State.step6b_keep ..)
  · exact State.step6a_keep ..

/-- A start that completes leaves full mode: not minimal, where it did not begin in minimal mode. -/
theorem State.step8_ends (s : State) (h : s.minimal = false) : StartEnds s s.step8 := by
  have h1 := State.bootAppend_keep s 2 0
  generalize hv : (s.bootAppend 2 0).modMgmt (fun m => { m with started := true, startStep := 8, reason := 0 }) = v
  have hm : v.minimal = false := by
    subst hv
    exact h1.2.1.trans h
  have hq : KeepQueue s v := by
    subst hv
    exact h1.queue.trans ⟨rfl, id, id⟩
  have hk : Keep v ((v.writeEdt).logEv (srcBlock 0) .start []) := (State.writeEdt_keep v).trans (State.logEv_keep ..)
  have he : s.step8 = (v.writeEdt).logEv (srcBlock 0) .start [] := by
    subst hv
    rfl
  rw [he]
  refine ⟨hq.trans hk.queue, fun hmin => ?_⟩
  rw [hk.2.1, hm] at hmin
  exact absurd hmin (by simp)

theorem State.fromStep6_ends (s : State) (i : StartIn) (h : s.minimal = false) : StartEnds s (s.fromStep6 i) := by
  simp only [State.fromStep6]
  have hk := State.step6_keep s i (!s.regs.loaded)
  generalize (if i.domainsOk then (s.startRuns.step6a (!s.regs.loaded)).step6b i else s.startRuns.step6a (!s.regs.loaded)) = u at hk ⊢
  have hq : KeepQueue s u := (State.startRuns_queue s).trans hk.queue
  have hm : u.minimal = false := hk.2.1.trans h
  split
  · exact StartEnds.of_queue (hq.trans (State.unload'_queue u _)) (State.failStart_ends _ _ _)
  · have h7 := State.step7_keep u (!s.regs.loaded)
    exact StartEnds.of_queue (hq.trans h7.queue) (State.step8_ends _ (h7.2.1.trans hm))

theorem State.fromStep5_ends (s : State) (i : StartIn) (h : s.minimal = false) : StartEnds s (s.fromStep5 i) := by
  simp only [State.fromStep5]
  split
  · exact State.failStart_ends ..
  · exact StartEnds.of_queue (State.modMgmt_queue s _) (State.fromStep6_ends _ i h)

theorem State.startRecord_keep (s : State) : Keep s s.startRecord := by
  simp +contextual (maxDischargeDepth := 60) [State.startRecord, State.modNv, Keep]

theorem State.fromStep3_ends (s : State) (i : StartIn) : StartEnds s (s.fromStep3 i) := by
  simp only [State.fromStep3]
  have hk := State.startRecord_keep { s with minimal := false }
  generalize State.startRecord { s with minimal := false } = u at hk ⊢
  have hq : KeepQueue s (u.modNv (fun n => { n with noFlash := !i.flashOk })) :=
    KeepQueue.trans (t := { s with minimal := false }) ⟨rfl, id, id⟩ (hk.queue.trans ⟨rfl, id, id⟩)
  have hm : (u.modNv (fun n => { n with noFlash := !i.flashOk })).minimal = false := hk.2.1
  generalize u.modNv (fun n => { n with noFlash := !i.flashOk }) = v at hq hm ⊢
  (repeat' split)
  · exact StartEnds.of_queue hq (State.failStart_ends ..)
  · exact StartEnds.of_queue hq (State.failStart_ends ..)
  · exact StartEnds.of_queue hq (State.failStart_ends ..)
  · rename_i c conflict _
    have h4 := State.takeCopy_keep v c conflict
    exact StartEnds.of_queue (hq.trans h4.queue) (State.fromStep5_ends _ i (h4.2.1.trans hm))

theorem State.coldStart_ends (s : State) (i : StartIn) : StartEnds s (s.coldStart i) := by
  simp only [State.coldStart]
  have h1 := State.latchStrap_queue s
  generalize s.latchStrap = u at h1 ⊢
  refine StartEnds.of_queue ?_ (State.fromStep3_ends _ i)
  split
  · exact h1.trans (State.run_keep _ _ (fun t => execCipherAlarm_keep ..)).queue
  · exact h1

theorem State.warmDown_keep (s : State) : Keep s s.warmDown :=
  ((State.detachAll_keep s).trans (State.allOff_keep _)).trans (State.setSta_keep ..)

theorem State.warmForget_queue (s : State) : KeepQueue s s.warmForget := ⟨rfl, id, id⟩

theorem State.warmClear_queue (s : State) : KeepQueue s s.warmDown.warmForget :=
  (State.warmDown_keep s).queue.trans (State.warmForget_queue _)

theorem State.warmForget_minimal (s : State) : s.warmForget.minimal = s.minimal := rfl

theorem State.warmClear_minimal (s : State) : s.warmDown.warmForget.minimal = s.minimal := by
  rw [State.warmForget_minimal]
  exact (State.warmDown_keep s).2.1

/-- A warm start ends in a legal mode, whatever the mode that it found. -/
theorem State.warmStart_ends (s : State) (i : StartIn) : StartEnds s (s.warmStart i) := by
  have h1 := s.warmClear_queue
  have h2 := s.warmClear_minimal
  simp only [State.warmStart]
  generalize s.warmDown.warmForget = u at h1 h2 ⊢
  split
  · exact StartEnds.of_queue h1 (State.fromStep3_ends _ i)
  · rename_i hw
    refine StartEnds.of_queue h1 (State.fromStep5_ends _ i (h2.trans ?_))
    cases hm : s.minimal with
    | false => rfl
    | true => simp [hm] at hw

theorem State.coldReset_queue (s : State) : KeepQueue s s.coldReset :=
  ⟨rfl, fun _ => by simp [State.coldReset, State.reset, LogSt.reset, logBounded], fun _ => rfl⟩

theorem State.coldReset_legal (s : State) : modeLegal s.coldReset := fun h => by
  simp [State.coldReset, State.reset] at h


/-! ### The six commands of a start -/

/-- What every command leaves: the queue, the log's bound and the DRAM's form kept, and a legal mode where the mode was legal. -/
def Ends (s t : State) : Prop := KeepQueue s t ∧ (modeLegal s → modeLegal t)

theorem Ends.trans {s t u : State} (h : Ends s t) (k : Ends t u) : Ends s u := ⟨h.1.trans k.1, fun x => k.2 (h.2 x)⟩

theorem StartEnds.ends {s t : State} (h : StartEnds s t) : Ends s t := ⟨h.1, fun _ => h.2⟩

theorem Keep.ends {s t : State} (h : Keep s t) : Ends s t := by
  refine ⟨h.queue, fun hl hm => ?_⟩
  rw [h.2.1] at hm
  rw [h.2.2.1]
  exact hl hm

theorem Ends.refl (s : State) : Ends s s := (Keep.refl s).ends

/-- The command answers a next state, and what it leaves. -/
def EndsNext (s : State) (o : Host.Outcome State Fault Refusal) : Prop := ∃ t, o = .next t ∧ Ends s t

theorem KeepNext.ends {s : State} {o : Host.Outcome State Fault Refusal} (h : KeepNext s o) : EndsNext s o := by
  obtain ⟨t, rfl, k⟩ := h
  exact ⟨t, rfl, k.ends⟩

theorem Ends.next {s t : State} (h : Ends s t) : EndsNext s (.next t) := ⟨t, rfl, h⟩

theorem warmStart_ends' (s : State) (i : StartIn) : Ends s (s.warmStart i) := (s.warmStart_ends i).ends

theorem execRstNAssert_ends (s : State) : EndsNext s (execRstNAssert s) :=
  Ends.next ⟨s.coldReset_queue, fun _ => s.coldReset_legal⟩

theorem execColdStart_ends (i : StartIn) (s : State) : EndsNext s (execColdStart i s) := by
  simp only [execColdStart]
  split
  · exact (Ends.refl s).next
  · exact (State.coldStart_ends s i).ends.next

theorem execStartTimeout_ends (s : State) : EndsNext s (execStartTimeout s) := by
  simp only [execStartTimeout]
  split
  · exact (Ends.refl s).next
  · exact (StartEnds.of_queue (State.startRecord_keep s).queue (State.failStart_ends _ 7 false)).ends.next

theorem execWarmStart_ends (i : StartIn) (s : State) : EndsNext s (execWarmStart i s) := by
  simp only [execWarmStart]
  split
  · exact (Ends.refl s).next
  · exact (warmStart_ends' s i).next

theorem State.clearRefLost_keep (s : State) : Keep s { s with time := { s.time with refLost := false } } :=
  ⟨rfl, rfl, rfl, rfl, rfl, rfl, id, id⟩

theorem execReferenceRestored_ends (i : StartIn) (s : State) : EndsNext s (execReferenceRestored i s) := by
  simp only [execReferenceRestored]
  have h1 := (State.clearRefLost_keep s).trans (State.logEv_keep _ (srcBlock 2) .refRestored [])
  generalize State.logEv _ (srcBlock 2) .refRestored [] = u at h1 ⊢
  (repeat' split)
  · exact (Ends.refl s).next
  · exact (h1.ends.trans (warmStart_ends' u i)).next
  · exact h1.ends.next

theorem Ends.run {s t : State} {f : State → Host.Outcome State Fault Refusal} (h : Ends s t) (k : EndsNext t (f t)) :
    Ends s (t.run f) := by
  obtain ⟨u, hu, k⟩ := k
  simp only [State.run, hu]
  exact h.trans k

theorem State.restartOp_ends (s : State) (p : MgmtPath) (i : StartIn) (flags : Nat) : Ends s (s.restartOp p i flags) := by
  simp only [State.restartOp]
  have h1 : Keep s ((s.reply p 0 []).emit (.response p ((s.reply p 0 []).path p).response)) :=
    (State.reply_keep ..).trans (State.emit_keep ..)
  generalize (s.reply p 0 []).emit (.response p ((s.reply p 0 []).path p).response) = u at h1 ⊢
  have h2 : Keep s (if bitOf flags 0 then u.bootAppend 2 0 else u) := by
    split
    · exact h1.trans (State.bootAppend_keep ..)
    · exact h1
  generalize (if bitOf flags 0 then u.bootAppend 2 0 else u) = v at h2 ⊢
  (repeat' split)
  · exact h2.ends.trans (StartEnds.of_queue (State.startRecord_keep v).queue (State.failStart_ends _ 10 true)).ends
  · exact h2.ends.trans (warmStart_ends' v i)
  · exact (h2.ends.trans ⟨v.coldReset_queue, fun _ => v.coldReset_legal⟩).run (execColdStart_ends i _)

theorem execRestart_ends (p : MgmtPath) (i : StartIn) (s : State) : EndsNext s (execRestart p i s) := by
  refine Ends.next ?_
  simp only [State.runOp]
  (repeat' split)
  · exact (State.reply_keep ..).ends
  · exact Ends.refl s
  · exact State.restartOp_ends ..
  · exact (State.reply_keep ..).ends
  · exact Ends.refl s

end Sys2Proof.Machine
end

