-- ==== Sys2Proof/Laws/KeepTargetedTests.lean ====
section
/-! SUPPORT. What the operations and meanings of Sys2Proof/Machine/TargetedTests.lean leave as it was. -/

namespace Sys2Proof.Machine
set_option Elab.async false

@[simp] theorem State.engineTest_keep (s : State) (g : HeadId) (e : EngId) (pass : Bool) : Keep s (State.engineTest s g e pass) := by
  simp only [State.engineTest]
  (repeat' split) <;> simp +contextual (maxDischargeDepth := 60) [Keep]

@[simp] theorem State.decoderTest_keep (s : State) (i : Fin 20) (pass : Bool) : Keep s (State.decoderTest s i pass) := by
  simp only [State.decoderTest]
  (repeat' split) <;> simp +contextual (maxDischargeDepth := 60) [Keep]

@[simp] theorem State.cipherTest_keep (s : State) (i : Fin 8) (pass : Bool) : Keep s (State.cipherTest s i pass) := by
  simp only [State.cipherTest]
  (repeat' split) <;> simp +contextual (maxDischargeDepth := 60) [Keep]

@[simp] theorem State.spindleTest_keep (s : State) (b : BayId) (pass : Bool) : Keep s (State.spindleTest s b pass) := by
  simp only [State.spindleTest]
  (repeat' split) <;> simp +contextual (maxDischargeDepth := 60) [Keep]

@[simp] theorem State.axisTest_keep (s : State) (a : AxisId) (pass : Bool) : Keep s (State.axisTest s a pass) := by
  simp only [State.axisTest]
  (repeat' split) <;> simp +contextual (maxDischargeDepth := 60) [Keep]

@[simp] theorem State.sramTest_keep (s : State) (src : BitVec 16) (pass : Bool) : Keep s (State.sramTest s src pass) := by
  simp only [State.sramTest]
  (repeat' split) <;> simp +contextual (maxDischargeDepth := 60) [Keep]

@[simp] theorem execTargetedTestDone_keep (r : Resource) (pass : Bool) (s : State) : KeepNext s (execTargetedTestDone r pass s) := by
  simp only [execTargetedTestDone]
  (repeat' split) <;> simp +contextual (maxDischargeDepth := 60) [Keep]

end Sys2Proof.Machine
end

