-- ==== Sys2Proof/Laws/State.lean ====
section
/-! SUPPORT. What each small update of the state changes: one theorem for each, whose parts are simp lemmas for every field. -/

namespace Sys2Proof.Machine
set_option Elab.async false

/-! ### One element of a vector, and one entry of a table -/

@[simp] theorem vmod_get_self {α : Type} {n : Nat} (v : Vector α n) (i : Fin n) (f : α → α) : (vmod v i f)[i.val] = f v[i.val] := by
  simp [vmod]

theorem vmod_get {α : Type} {n : Nat} (v : Vector α n) (i : Fin n) (f : α → α) (j : Nat) (h : j < n) :
    (vmod v i f)[j] = if i.val = j then f v[j] else v[j] := by
  simp only [vmod, Vector.getElem_set]
  split
  · subst_vars
    rfl
  · rfl

theorem vmod_get_ne {α : Type} {n : Nat} (v : Vector α n) (i : Fin n) (f : α → α) (j : Fin n) (h : j ≠ i) :
    (vmod v i f)[j.val] = v[j.val] := by
  have h' : ¬ i.val = j.val := fun e => h (Fin.ext e.symm)
  rw [vmod_get, if_neg h']

theorem Tab.get?_put {α : Type} (t : Tab α) (k j : Nat) (v : α) : Tab.get? (Tab.put t k v) j = if k = j then some v else Tab.get? t j := by
  induction t with
  | nil => simp [Tab.put, Tab.get?]
  | cons p r ih =>
    obtain ⟨a, b⟩ := p
    simp only [Tab.put]
    split
    · rfl
    · split
      · rename_i h1 h2
        subst h2
        simp only [Tab.get?]
        split <;> rfl
      · rename_i h1 h2
        simp only [Tab.get?, ih]
        split
        · rename_i h3
          rw [if_neg (fun e => h2 (e.trans h3.symm))]
        · rfl

@[simp] theorem Tab.get_put {α : Type} (d : α) (t : Tab α) (k j : Nat) (v : α) :
    Tab.get d (Tab.put t k v) j = if k = j then v else Tab.get d t j := by
  simp only [Tab.get, Tab.get?_put]
  split <;> rfl

theorem Tab.get?_erase {α : Type} (t : Tab α) (k j : Nat) : Tab.get? (Tab.erase t k) j = if k = j then none else Tab.get? t j := by
  induction t with
  | nil => simp [Tab.erase, Tab.get?]
  | cons p r ih =>
    obtain ⟨a, b⟩ := p
    simp only [Tab.erase] at ih
    by_cases h : a = k
    · subst h
      simp only [Tab.erase, List.filter_cons, bne_self_eq_false, Bool.false_eq_true, if_false, ih, Tab.get?]
      split <;> rfl
    · have hb : (a != k) = true := by simpa using h
      simp only [Tab.erase, List.filter_cons, hb, if_true, Tab.get?, ih]
      split
      · rename_i h3
        rw [if_neg (fun e => h (h3.trans e.symm))]
      · rfl

theorem Tab.get_set {α : Type} [DecidableEq α] (d : α) (t : Tab α) (k j : Nat) (v : α) :
    Tab.get d (Tab.set d t k v) j = if k = j then v else Tab.get d t j := by
  simp only [Tab.set]
  split
  · rename_i h
    simp only [Tab.get, Tab.get?_erase]
    split
    · rw [h]
      rfl
    · rfl
  · simp

/-! ### Register fields -/

theorem State.sta_setSta (s : State) (b c : Blk) (f g : Field) (v : Nat) :
    (s.setSta b f v).sta c g = if regKey b f = regKey c g then v % 2 ^ f.width else s.sta c g := by
  simp [State.setSta, State.sta]

@[simp] theorem State.sta_setSta_self (s : State) (b : Blk) (f : Field) (v : Nat) : (s.setSta b f v).sta b f = v % 2 ^ f.width := by
  simp [State.sta_setSta]

theorem State.fld_setFld (s : State) (b c : Blk) (f g : Field) (v : Nat) :
    (s.setFld b f v).fld c g = if regKey b f = regKey c g then v % 2 ^ f.width else s.fld c g := by
  simp only [State.setFld, State.fld, State.unset, Tab.get_put]
  rfl

theorem State.act_setAct (s : State) (b c : Blk) (f g : Field) (v : Nat) :
    (s.setAct b f v).act c g = if regKey b f = regKey c g then v % 2 ^ f.width else s.act c g := by
  simp only [State.setAct, State.act, State.unset, Tab.get_put]
  rfl

@[simp] theorem State.fld_setSta (s : State) (b c : Blk) (f g : Field) (v : Nat) : (s.setSta b f v).fld c g = s.fld c g := rfl
@[simp] theorem State.act_setSta (s : State) (b c : Blk) (f g : Field) (v : Nat) : (s.setSta b f v).act c g = s.act c g := rfl
@[simp] theorem State.sta_setFld (s : State) (b c : Blk) (f g : Field) (v : Nat) : (s.setFld b f v).sta c g = s.sta c g := rfl
@[simp] theorem State.act_setFld (s : State) (b c : Blk) (f g : Field) (v : Nat) : (s.setFld b f v).act c g = s.act c g := rfl

/-! ### Updates -/

@[simp] theorem State.modHead_fields (s : State) (g : HeadId) (f : Head → Head) :
    (s.modHead g f).pending = s.pending ∧ (s.modHead g f).free = s.free ∧ (s.modHead g f).time = s.time ∧ (s.modHead g f).regs = s.regs ∧
    (s.modHead g f).log = s.log ∧ (s.modHead g f).power = s.power ∧ (s.modHead g f).heads = vmod s.heads g f ∧ (s.modHead g f).bays = s.bays ∧
    (s.modHead g f).sleds = s.sleds ∧ (s.modHead g f).sas = s.sas ∧ (s.modHead g f).trans = s.trans ∧ (s.modHead g f).encs = s.encs ∧
    (s.modHead g f).runoutStore = s.runoutStore ∧ (s.modHead g f).loadedDiscs = s.loadedDiscs ∧ (s.modHead g f).trims = s.trims ∧
    (s.modHead g f).beams = s.beams ∧ (s.modHead g f).replay = s.replay ∧ (s.modHead g f).wrs = s.wrs ∧ (s.modHead g f).extents = s.extents ∧
    (s.modHead g f).nextKey = s.nextKey ∧ (s.modHead g f).seqNext = s.seqNext ∧ (s.modHead g f).seqEnd = s.seqEnd ∧
    (s.modHead g f).decoders = s.decoders ∧ (s.modHead g f).codewords = s.codewords ∧ (s.modHead g f).nextCw = s.nextCw ∧
    (s.modHead g f).sweeps = s.sweeps ∧ (s.modHead g f).mounts = s.mounts ∧ (s.modHead g f).map = s.map ∧ (s.modHead g f).discStore = s.discStore ∧
    (s.modHead g f).host = s.host ∧ (s.modHead g f).funcs = s.funcs ∧ (s.modHead g f).sqs = s.sqs ∧ (s.modHead g f).cqs = s.cqs ∧
    (s.modHead g f).lines = s.lines ∧ (s.modHead g f).cmds = s.cmds ∧ (s.modHead g f).nextCmd = s.nextCmd ∧ (s.modHead g f).arb = s.arb ∧
    (s.modHead g f).selfTest = s.selfTest ∧ (s.modHead g f).bufs = s.bufs ∧ (s.modHead g f).poolWaits = s.poolWaits ∧
    (s.modHead g f).quotas = s.quotas ∧ (s.modHead g f).cache = s.cache ∧ (s.modHead g f).dram = s.dram ∧ (s.modHead g f).drams = s.drams ∧
    (s.modHead g f).ceTable = s.ceTable ∧ (s.modHead g f).marks = s.marks ∧ (s.modHead g f).devErrs = s.devErrs ∧
    (s.modHead g f).sramPos = s.sramPos ∧ (s.modHead g f).srams = s.srams ∧ (s.modHead g f).cipher = s.cipher ∧ (s.modHead g f).slots = s.slots ∧
    (s.modHead g f).nss = s.nss ∧ (s.modHead g f).chain = s.chain ∧ (s.modHead g f).calib = s.calib ∧ (s.modHead g f).nv = s.nv ∧
    (s.modHead g f).mgmt = s.mgmt ∧ (s.modHead g f).meter = s.meter ∧ (s.modHead g f).resHist = s.resHist ∧ (s.modHead g f).msix = s.msix ∧
    (s.modHead g f).msixFns = s.msixFns ∧ (s.modHead g f).minimal = s.minimal ∧ (s.modHead g f).out = s.out :=
  ⟨rfl, rfl, rfl, rfl, rfl, rfl, rfl, rfl, rfl, rfl, rfl, rfl, rfl, rfl, rfl, rfl, rfl, rfl, rfl, rfl, rfl, rfl, rfl, rfl, rfl, rfl, rfl, rfl, rfl, rfl, rfl, rfl, rfl, rfl, rfl, rfl, rfl, rfl, rfl, rfl, rfl, rfl, rfl, rfl, rfl, rfl, rfl, rfl, rfl, rfl, rfl, rfl, rfl, rfl, rfl, rfl, rfl, rfl, rfl, rfl, rfl, rfl⟩

@[simp] theorem State.modBay_fields (s : State) (b : BayId) (f : Bay → Bay) :
    (s.modBay b f).pending = s.pending ∧ (s.modBay b f).free = s.free ∧ (s.modBay b f).time = s.time ∧ (s.modBay b f).regs = s.regs ∧
    (s.modBay b f).log = s.log ∧ (s.modBay b f).power = s.power ∧ (s.modBay b f).heads = s.heads ∧ (s.modBay b f).bays = vmod s.bays b f ∧
    (s.modBay b f).sleds = s.sleds ∧ (s.modBay b f).sas = s.sas ∧ (s.modBay b f).trans = s.trans ∧ (s.modBay b f).encs = s.encs ∧
    (s.modBay b f).runoutStore = s.runoutStore ∧ (s.modBay b f).loadedDiscs = s.loadedDiscs ∧ (s.modBay b f).trims = s.trims ∧
    (s.modBay b f).beams = s.beams ∧ (s.modBay b f).replay = s.replay ∧ (s.modBay b f).wrs = s.wrs ∧ (s.modBay b f).extents = s.extents ∧
    (s.modBay b f).nextKey = s.nextKey ∧ (s.modBay b f).seqNext = s.seqNext ∧ (s.modBay b f).seqEnd = s.seqEnd ∧
    (s.modBay b f).decoders = s.decoders ∧ (s.modBay b f).codewords = s.codewords ∧ (s.modBay b f).nextCw = s.nextCw ∧
    (s.modBay b f).sweeps = s.sweeps ∧ (s.modBay b f).mounts = s.mounts ∧ (s.modBay b f).map = s.map ∧ (s.modBay b f).discStore = s.discStore ∧
    (s.modBay b f).host = s.host ∧ (s.modBay b f).funcs = s.funcs ∧ (s.modBay b f).sqs = s.sqs ∧ (s.modBay b f).cqs = s.cqs ∧
    (s.modBay b f).lines = s.lines ∧ (s.modBay b f).cmds = s.cmds ∧ (s.modBay b f).nextCmd = s.nextCmd ∧ (s.modBay b f).arb = s.arb ∧
    (s.modBay b f).selfTest = s.selfTest ∧ (s.modBay b f).bufs = s.bufs ∧ (s.modBay b f).poolWaits = s.poolWaits ∧
    (s.modBay b f).quotas = s.quotas ∧ (s.modBay b f).cache = s.cache ∧ (s.modBay b f).dram = s.dram ∧ (s.modBay b f).drams = s.drams ∧
    (s.modBay b f).ceTable = s.ceTable ∧ (s.modBay b f).marks = s.marks ∧ (s.modBay b f).devErrs = s.devErrs ∧ (s.modBay b f).sramPos = s.sramPos ∧
    (s.modBay b f).srams = s.srams ∧ (s.modBay b f).cipher = s.cipher ∧ (s.modBay b f).slots = s.slots ∧ (s.modBay b f).nss = s.nss ∧
    (s.modBay b f).chain = s.chain ∧ (s.modBay b f).calib = s.calib ∧ (s.modBay b f).nv = s.nv ∧ (s.modBay b f).mgmt = s.mgmt ∧
    (s.modBay b f).meter = s.meter ∧ (s.modBay b f).resHist = s.resHist ∧ (s.modBay b f).msix = s.msix ∧ (s.modBay b f).msixFns = s.msixFns ∧
    (s.modBay b f).minimal = s.minimal ∧ (s.modBay b f).out = s.out :=
  ⟨rfl, rfl, rfl, rfl, rfl, rfl, rfl, rfl, rfl, rfl, rfl, rfl, rfl, rfl, rfl, rfl, rfl, rfl, rfl, rfl, rfl, rfl, rfl, rfl, rfl, rfl, rfl, rfl, rfl, rfl, rfl, rfl, rfl, rfl, rfl, rfl, rfl, rfl, rfl, rfl, rfl, rfl, rfl, rfl, rfl, rfl, rfl, rfl, rfl, rfl, rfl, rfl, rfl, rfl, rfl, rfl, rfl, rfl, rfl, rfl, rfl, rfl⟩

@[simp] theorem State.modSled_fields (s : State) (g : HeadId) (f : Axis → Axis) :
    (s.modSled g f).pending = s.pending ∧ (s.modSled g f).free = s.free ∧ (s.modSled g f).time = s.time ∧ (s.modSled g f).regs = s.regs ∧
    (s.modSled g f).log = s.log ∧ (s.modSled g f).power = s.power ∧ (s.modSled g f).heads = s.heads ∧ (s.modSled g f).bays = s.bays ∧
    (s.modSled g f).sleds = vmod s.sleds g f ∧ (s.modSled g f).sas = s.sas ∧ (s.modSled g f).trans = s.trans ∧ (s.modSled g f).encs = s.encs ∧
    (s.modSled g f).runoutStore = s.runoutStore ∧ (s.modSled g f).loadedDiscs = s.loadedDiscs ∧ (s.modSled g f).trims = s.trims ∧
    (s.modSled g f).beams = s.beams ∧ (s.modSled g f).replay = s.replay ∧ (s.modSled g f).wrs = s.wrs ∧ (s.modSled g f).extents = s.extents ∧
    (s.modSled g f).nextKey = s.nextKey ∧ (s.modSled g f).seqNext = s.seqNext ∧ (s.modSled g f).seqEnd = s.seqEnd ∧
    (s.modSled g f).decoders = s.decoders ∧ (s.modSled g f).codewords = s.codewords ∧ (s.modSled g f).nextCw = s.nextCw ∧
    (s.modSled g f).sweeps = s.sweeps ∧ (s.modSled g f).mounts = s.mounts ∧ (s.modSled g f).map = s.map ∧ (s.modSled g f).discStore = s.discStore ∧
    (s.modSled g f).host = s.host ∧ (s.modSled g f).funcs = s.funcs ∧ (s.modSled g f).sqs = s.sqs ∧ (s.modSled g f).cqs = s.cqs ∧
    (s.modSled g f).lines = s.lines ∧ (s.modSled g f).cmds = s.cmds ∧ (s.modSled g f).nextCmd = s.nextCmd ∧ (s.modSled g f).arb = s.arb ∧
    (s.modSled g f).selfTest = s.selfTest ∧ (s.modSled g f).bufs = s.bufs ∧ (s.modSled g f).poolWaits = s.poolWaits ∧
    (s.modSled g f).quotas = s.quotas ∧ (s.modSled g f).cache = s.cache ∧ (s.modSled g f).dram = s.dram ∧ (s.modSled g f).drams = s.drams ∧
    (s.modSled g f).ceTable = s.ceTable ∧ (s.modSled g f).marks = s.marks ∧ (s.modSled g f).devErrs = s.devErrs ∧
    (s.modSled g f).sramPos = s.sramPos ∧ (s.modSled g f).srams = s.srams ∧ (s.modSled g f).cipher = s.cipher ∧ (s.modSled g f).slots = s.slots ∧
    (s.modSled g f).nss = s.nss ∧ (s.modSled g f).chain = s.chain ∧ (s.modSled g f).calib = s.calib ∧ (s.modSled g f).nv = s.nv ∧
    (s.modSled g f).mgmt = s.mgmt ∧ (s.modSled g f).meter = s.meter ∧ (s.modSled g f).resHist = s.resHist ∧ (s.modSled g f).msix = s.msix ∧
    (s.modSled g f).msixFns = s.msixFns ∧ (s.modSled g f).minimal = s.minimal ∧ (s.modSled g f).out = s.out :=
  ⟨rfl, rfl, rfl, rfl, rfl, rfl, rfl, rfl, rfl, rfl, rfl, rfl, rfl, rfl, rfl, rfl, rfl, rfl, rfl, rfl, rfl, rfl, rfl, rfl, rfl, rfl, rfl, rfl, rfl, rfl, rfl, rfl, rfl, rfl, rfl, rfl, rfl, rfl, rfl, rfl, rfl, rfl, rfl, rfl, rfl, rfl, rfl, rfl, rfl, rfl, rfl, rfl, rfl, rfl, rfl, rfl, rfl, rfl, rfl, rfl, rfl, rfl⟩

@[simp] theorem State.modSa_fields (s : State) (g : HeadId) (f : Axis → Axis) :
    (s.modSa g f).pending = s.pending ∧ (s.modSa g f).free = s.free ∧ (s.modSa g f).time = s.time ∧ (s.modSa g f).regs = s.regs ∧
    (s.modSa g f).log = s.log ∧ (s.modSa g f).power = s.power ∧ (s.modSa g f).heads = s.heads ∧ (s.modSa g f).bays = s.bays ∧
    (s.modSa g f).sleds = s.sleds ∧ (s.modSa g f).sas = vmod s.sas g f ∧ (s.modSa g f).trans = s.trans ∧ (s.modSa g f).encs = s.encs ∧
    (s.modSa g f).runoutStore = s.runoutStore ∧ (s.modSa g f).loadedDiscs = s.loadedDiscs ∧ (s.modSa g f).trims = s.trims ∧
    (s.modSa g f).beams = s.beams ∧ (s.modSa g f).replay = s.replay ∧ (s.modSa g f).wrs = s.wrs ∧ (s.modSa g f).extents = s.extents ∧
    (s.modSa g f).nextKey = s.nextKey ∧ (s.modSa g f).seqNext = s.seqNext ∧ (s.modSa g f).seqEnd = s.seqEnd ∧ (s.modSa g f).decoders = s.decoders ∧
    (s.modSa g f).codewords = s.codewords ∧ (s.modSa g f).nextCw = s.nextCw ∧ (s.modSa g f).sweeps = s.sweeps ∧ (s.modSa g f).mounts = s.mounts ∧
    (s.modSa g f).map = s.map ∧ (s.modSa g f).discStore = s.discStore ∧ (s.modSa g f).host = s.host ∧ (s.modSa g f).funcs = s.funcs ∧
    (s.modSa g f).sqs = s.sqs ∧ (s.modSa g f).cqs = s.cqs ∧ (s.modSa g f).lines = s.lines ∧ (s.modSa g f).cmds = s.cmds ∧
    (s.modSa g f).nextCmd = s.nextCmd ∧ (s.modSa g f).arb = s.arb ∧ (s.modSa g f).selfTest = s.selfTest ∧ (s.modSa g f).bufs = s.bufs ∧
    (s.modSa g f).poolWaits = s.poolWaits ∧ (s.modSa g f).quotas = s.quotas ∧ (s.modSa g f).cache = s.cache ∧ (s.modSa g f).dram = s.dram ∧
    (s.modSa g f).drams = s.drams ∧ (s.modSa g f).ceTable = s.ceTable ∧ (s.modSa g f).marks = s.marks ∧ (s.modSa g f).devErrs = s.devErrs ∧
    (s.modSa g f).sramPos = s.sramPos ∧ (s.modSa g f).srams = s.srams ∧ (s.modSa g f).cipher = s.cipher ∧ (s.modSa g f).slots = s.slots ∧
    (s.modSa g f).nss = s.nss ∧ (s.modSa g f).chain = s.chain ∧ (s.modSa g f).calib = s.calib ∧ (s.modSa g f).nv = s.nv ∧
    (s.modSa g f).mgmt = s.mgmt ∧ (s.modSa g f).meter = s.meter ∧ (s.modSa g f).resHist = s.resHist ∧ (s.modSa g f).msix = s.msix ∧
    (s.modSa g f).msixFns = s.msixFns ∧ (s.modSa g f).minimal = s.minimal ∧ (s.modSa g f).out = s.out :=
  ⟨rfl, rfl, rfl, rfl, rfl, rfl, rfl, rfl, rfl, rfl, rfl, rfl, rfl, rfl, rfl, rfl, rfl, rfl, rfl, rfl, rfl, rfl, rfl, rfl, rfl, rfl, rfl, rfl, rfl, rfl, rfl, rfl, rfl, rfl, rfl, rfl, rfl, rfl, rfl, rfl, rfl, rfl, rfl, rfl, rfl, rfl, rfl, rfl, rfl, rfl, rfl, rfl, rfl, rfl, rfl, rfl, rfl, rfl, rfl, rfl, rfl, rfl⟩

@[simp] theorem State.modTrans_fields (s : State) (n : Fin 4) (f : Transport → Transport) :
    (s.modTrans n f).pending = s.pending ∧ (s.modTrans n f).free = s.free ∧ (s.modTrans n f).time = s.time ∧ (s.modTrans n f).regs = s.regs ∧
    (s.modTrans n f).log = s.log ∧ (s.modTrans n f).power = s.power ∧ (s.modTrans n f).heads = s.heads ∧ (s.modTrans n f).bays = s.bays ∧
    (s.modTrans n f).sleds = s.sleds ∧ (s.modTrans n f).sas = s.sas ∧ (s.modTrans n f).trans = vmod s.trans n f ∧ (s.modTrans n f).encs = s.encs ∧
    (s.modTrans n f).runoutStore = s.runoutStore ∧ (s.modTrans n f).loadedDiscs = s.loadedDiscs ∧ (s.modTrans n f).trims = s.trims ∧
    (s.modTrans n f).beams = s.beams ∧ (s.modTrans n f).replay = s.replay ∧ (s.modTrans n f).wrs = s.wrs ∧ (s.modTrans n f).extents = s.extents ∧
    (s.modTrans n f).nextKey = s.nextKey ∧ (s.modTrans n f).seqNext = s.seqNext ∧ (s.modTrans n f).seqEnd = s.seqEnd ∧
    (s.modTrans n f).decoders = s.decoders ∧ (s.modTrans n f).codewords = s.codewords ∧ (s.modTrans n f).nextCw = s.nextCw ∧
    (s.modTrans n f).sweeps = s.sweeps ∧ (s.modTrans n f).mounts = s.mounts ∧ (s.modTrans n f).map = s.map ∧
    (s.modTrans n f).discStore = s.discStore ∧ (s.modTrans n f).host = s.host ∧ (s.modTrans n f).funcs = s.funcs ∧ (s.modTrans n f).sqs = s.sqs ∧
    (s.modTrans n f).cqs = s.cqs ∧ (s.modTrans n f).lines = s.lines ∧ (s.modTrans n f).cmds = s.cmds ∧ (s.modTrans n f).nextCmd = s.nextCmd ∧
    (s.modTrans n f).arb = s.arb ∧ (s.modTrans n f).selfTest = s.selfTest ∧ (s.modTrans n f).bufs = s.bufs ∧
    (s.modTrans n f).poolWaits = s.poolWaits ∧ (s.modTrans n f).quotas = s.quotas ∧ (s.modTrans n f).cache = s.cache ∧
    (s.modTrans n f).dram = s.dram ∧ (s.modTrans n f).drams = s.drams ∧ (s.modTrans n f).ceTable = s.ceTable ∧ (s.modTrans n f).marks = s.marks ∧
    (s.modTrans n f).devErrs = s.devErrs ∧ (s.modTrans n f).sramPos = s.sramPos ∧ (s.modTrans n f).srams = s.srams ∧
    (s.modTrans n f).cipher = s.cipher ∧ (s.modTrans n f).slots = s.slots ∧ (s.modTrans n f).nss = s.nss ∧ (s.modTrans n f).chain = s.chain ∧
    (s.modTrans n f).calib = s.calib ∧ (s.modTrans n f).nv = s.nv ∧ (s.modTrans n f).mgmt = s.mgmt ∧ (s.modTrans n f).meter = s.meter ∧
    (s.modTrans n f).resHist = s.resHist ∧ (s.modTrans n f).msix = s.msix ∧ (s.modTrans n f).msixFns = s.msixFns ∧
    (s.modTrans n f).minimal = s.minimal ∧ (s.modTrans n f).out = s.out :=
  ⟨rfl, rfl, rfl, rfl, rfl, rfl, rfl, rfl, rfl, rfl, rfl, rfl, rfl, rfl, rfl, rfl, rfl, rfl, rfl, rfl, rfl, rfl, rfl, rfl, rfl, rfl, rfl, rfl, rfl, rfl, rfl, rfl, rfl, rfl, rfl, rfl, rfl, rfl, rfl, rfl, rfl, rfl, rfl, rfl, rfl, rfl, rfl, rfl, rfl, rfl, rfl, rfl, rfl, rfl, rfl, rfl, rfl, rfl, rfl, rfl, rfl, rfl⟩

@[simp] theorem State.modEnc_fields (s : State) (i : Fin 2) (f : Encoder → Encoder) :
    (s.modEnc i f).pending = s.pending ∧ (s.modEnc i f).free = s.free ∧ (s.modEnc i f).time = s.time ∧ (s.modEnc i f).regs = s.regs ∧
    (s.modEnc i f).log = s.log ∧ (s.modEnc i f).power = s.power ∧ (s.modEnc i f).heads = s.heads ∧ (s.modEnc i f).bays = s.bays ∧
    (s.modEnc i f).sleds = s.sleds ∧ (s.modEnc i f).sas = s.sas ∧ (s.modEnc i f).trans = s.trans ∧ (s.modEnc i f).encs = vmod s.encs i f ∧
    (s.modEnc i f).runoutStore = s.runoutStore ∧ (s.modEnc i f).loadedDiscs = s.loadedDiscs ∧ (s.modEnc i f).trims = s.trims ∧
    (s.modEnc i f).beams = s.beams ∧ (s.modEnc i f).replay = s.replay ∧ (s.modEnc i f).wrs = s.wrs ∧ (s.modEnc i f).extents = s.extents ∧
    (s.modEnc i f).nextKey = s.nextKey ∧ (s.modEnc i f).seqNext = s.seqNext ∧ (s.modEnc i f).seqEnd = s.seqEnd ∧
    (s.modEnc i f).decoders = s.decoders ∧ (s.modEnc i f).codewords = s.codewords ∧ (s.modEnc i f).nextCw = s.nextCw ∧
    (s.modEnc i f).sweeps = s.sweeps ∧ (s.modEnc i f).mounts = s.mounts ∧ (s.modEnc i f).map = s.map ∧ (s.modEnc i f).discStore = s.discStore ∧
    (s.modEnc i f).host = s.host ∧ (s.modEnc i f).funcs = s.funcs ∧ (s.modEnc i f).sqs = s.sqs ∧ (s.modEnc i f).cqs = s.cqs ∧
    (s.modEnc i f).lines = s.lines ∧ (s.modEnc i f).cmds = s.cmds ∧ (s.modEnc i f).nextCmd = s.nextCmd ∧ (s.modEnc i f).arb = s.arb ∧
    (s.modEnc i f).selfTest = s.selfTest ∧ (s.modEnc i f).bufs = s.bufs ∧ (s.modEnc i f).poolWaits = s.poolWaits ∧
    (s.modEnc i f).quotas = s.quotas ∧ (s.modEnc i f).cache = s.cache ∧ (s.modEnc i f).dram = s.dram ∧ (s.modEnc i f).drams = s.drams ∧
    (s.modEnc i f).ceTable = s.ceTable ∧ (s.modEnc i f).marks = s.marks ∧ (s.modEnc i f).devErrs = s.devErrs ∧ (s.modEnc i f).sramPos = s.sramPos ∧
    (s.modEnc i f).srams = s.srams ∧ (s.modEnc i f).cipher = s.cipher ∧ (s.modEnc i f).slots = s.slots ∧ (s.modEnc i f).nss = s.nss ∧
    (s.modEnc i f).chain = s.chain ∧ (s.modEnc i f).calib = s.calib ∧ (s.modEnc i f).nv = s.nv ∧ (s.modEnc i f).mgmt = s.mgmt ∧
    (s.modEnc i f).meter = s.meter ∧ (s.modEnc i f).resHist = s.resHist ∧ (s.modEnc i f).msix = s.msix ∧ (s.modEnc i f).msixFns = s.msixFns ∧
    (s.modEnc i f).minimal = s.minimal ∧ (s.modEnc i f).out = s.out :=
  ⟨rfl, rfl, rfl, rfl, rfl, rfl, rfl, rfl, rfl, rfl, rfl, rfl, rfl, rfl, rfl, rfl, rfl, rfl, rfl, rfl, rfl, rfl, rfl, rfl, rfl, rfl, rfl, rfl, rfl, rfl, rfl, rfl, rfl, rfl, rfl, rfl, rfl, rfl, rfl, rfl, rfl, rfl, rfl, rfl, rfl, rfl, rfl, rfl, rfl, rfl, rfl, rfl, rfl, rfl, rfl, rfl, rfl, rfl, rfl, rfl, rfl, rfl⟩

@[simp] theorem State.modBeam_fields (s : State) (g : HeadId) (k : BeamId) (f : Beam → Beam) :
    (s.modBeam g k f).pending = s.pending ∧ (s.modBeam g k f).free = s.free ∧ (s.modBeam g k f).time = s.time ∧ (s.modBeam g k f).regs = s.regs ∧
    (s.modBeam g k f).log = s.log ∧ (s.modBeam g k f).power = s.power ∧ (s.modBeam g k f).heads = s.heads ∧ (s.modBeam g k f).bays = s.bays ∧
    (s.modBeam g k f).sleds = s.sleds ∧ (s.modBeam g k f).sas = s.sas ∧ (s.modBeam g k f).trans = s.trans ∧ (s.modBeam g k f).encs = s.encs ∧
    (s.modBeam g k f).runoutStore = s.runoutStore ∧ (s.modBeam g k f).loadedDiscs = s.loadedDiscs ∧ (s.modBeam g k f).trims = s.trims ∧
    (s.modBeam g k f).beams = vmod s.beams g (fun v => vmod v k f) ∧ (s.modBeam g k f).replay = s.replay ∧ (s.modBeam g k f).wrs = s.wrs ∧
    (s.modBeam g k f).extents = s.extents ∧ (s.modBeam g k f).nextKey = s.nextKey ∧ (s.modBeam g k f).seqNext = s.seqNext ∧
    (s.modBeam g k f).seqEnd = s.seqEnd ∧ (s.modBeam g k f).decoders = s.decoders ∧ (s.modBeam g k f).codewords = s.codewords ∧
    (s.modBeam g k f).nextCw = s.nextCw ∧ (s.modBeam g k f).sweeps = s.sweeps ∧ (s.modBeam g k f).mounts = s.mounts ∧
    (s.modBeam g k f).map = s.map ∧ (s.modBeam g k f).discStore = s.discStore ∧ (s.modBeam g k f).host = s.host ∧
    (s.modBeam g k f).funcs = s.funcs ∧ (s.modBeam g k f).sqs = s.sqs ∧ (s.modBeam g k f).cqs = s.cqs ∧ (s.modBeam g k f).lines = s.lines ∧
    (s.modBeam g k f).cmds = s.cmds ∧ (s.modBeam g k f).nextCmd = s.nextCmd ∧ (s.modBeam g k f).arb = s.arb ∧
    (s.modBeam g k f).selfTest = s.selfTest ∧ (s.modBeam g k f).bufs = s.bufs ∧ (s.modBeam g k f).poolWaits = s.poolWaits ∧
    (s.modBeam g k f).quotas = s.quotas ∧ (s.modBeam g k f).cache = s.cache ∧ (s.modBeam g k f).dram = s.dram ∧ (s.modBeam g k f).drams = s.drams ∧
    (s.modBeam g k f).ceTable = s.ceTable ∧ (s.modBeam g k f).marks = s.marks ∧ (s.modBeam g k f).devErrs = s.devErrs ∧
    (s.modBeam g k f).sramPos = s.sramPos ∧ (s.modBeam g k f).srams = s.srams ∧ (s.modBeam g k f).cipher = s.cipher ∧
    (s.modBeam g k f).slots = s.slots ∧ (s.modBeam g k f).nss = s.nss ∧ (s.modBeam g k f).chain = s.chain ∧ (s.modBeam g k f).calib = s.calib ∧
    (s.modBeam g k f).nv = s.nv ∧ (s.modBeam g k f).mgmt = s.mgmt ∧ (s.modBeam g k f).meter = s.meter ∧ (s.modBeam g k f).resHist = s.resHist ∧
    (s.modBeam g k f).msix = s.msix ∧ (s.modBeam g k f).msixFns = s.msixFns ∧ (s.modBeam g k f).minimal = s.minimal ∧
    (s.modBeam g k f).out = s.out :=
  ⟨rfl, rfl, rfl, rfl, rfl, rfl, rfl, rfl, rfl, rfl, rfl, rfl, rfl, rfl, rfl, rfl, rfl, rfl, rfl, rfl, rfl, rfl, rfl, rfl, rfl, rfl, rfl, rfl, rfl, rfl, rfl, rfl, rfl, rfl, rfl, rfl, rfl, rfl, rfl, rfl, rfl, rfl, rfl, rfl, rfl, rfl, rfl, rfl, rfl, rfl, rfl, rfl, rfl, rfl, rfl, rfl, rfl, rfl, rfl, rfl, rfl, rfl⟩

@[simp] theorem State.modWr_fields (s : State) (g : HeadId) (f : WrHead → WrHead) :
    (s.modWr g f).pending = s.pending ∧ (s.modWr g f).free = s.free ∧ (s.modWr g f).time = s.time ∧ (s.modWr g f).regs = s.regs ∧
    (s.modWr g f).log = s.log ∧ (s.modWr g f).power = s.power ∧ (s.modWr g f).heads = s.heads ∧ (s.modWr g f).bays = s.bays ∧
    (s.modWr g f).sleds = s.sleds ∧ (s.modWr g f).sas = s.sas ∧ (s.modWr g f).trans = s.trans ∧ (s.modWr g f).encs = s.encs ∧
    (s.modWr g f).runoutStore = s.runoutStore ∧ (s.modWr g f).loadedDiscs = s.loadedDiscs ∧ (s.modWr g f).trims = s.trims ∧
    (s.modWr g f).beams = s.beams ∧ (s.modWr g f).replay = s.replay ∧ (s.modWr g f).wrs = vmod s.wrs g f ∧ (s.modWr g f).extents = s.extents ∧
    (s.modWr g f).nextKey = s.nextKey ∧ (s.modWr g f).seqNext = s.seqNext ∧ (s.modWr g f).seqEnd = s.seqEnd ∧ (s.modWr g f).decoders = s.decoders ∧
    (s.modWr g f).codewords = s.codewords ∧ (s.modWr g f).nextCw = s.nextCw ∧ (s.modWr g f).sweeps = s.sweeps ∧ (s.modWr g f).mounts = s.mounts ∧
    (s.modWr g f).map = s.map ∧ (s.modWr g f).discStore = s.discStore ∧ (s.modWr g f).host = s.host ∧ (s.modWr g f).funcs = s.funcs ∧
    (s.modWr g f).sqs = s.sqs ∧ (s.modWr g f).cqs = s.cqs ∧ (s.modWr g f).lines = s.lines ∧ (s.modWr g f).cmds = s.cmds ∧
    (s.modWr g f).nextCmd = s.nextCmd ∧ (s.modWr g f).arb = s.arb ∧ (s.modWr g f).selfTest = s.selfTest ∧ (s.modWr g f).bufs = s.bufs ∧
    (s.modWr g f).poolWaits = s.poolWaits ∧ (s.modWr g f).quotas = s.quotas ∧ (s.modWr g f).cache = s.cache ∧ (s.modWr g f).dram = s.dram ∧
    (s.modWr g f).drams = s.drams ∧ (s.modWr g f).ceTable = s.ceTable ∧ (s.modWr g f).marks = s.marks ∧ (s.modWr g f).devErrs = s.devErrs ∧
    (s.modWr g f).sramPos = s.sramPos ∧ (s.modWr g f).srams = s.srams ∧ (s.modWr g f).cipher = s.cipher ∧ (s.modWr g f).slots = s.slots ∧
    (s.modWr g f).nss = s.nss ∧ (s.modWr g f).chain = s.chain ∧ (s.modWr g f).calib = s.calib ∧ (s.modWr g f).nv = s.nv ∧
    (s.modWr g f).mgmt = s.mgmt ∧ (s.modWr g f).meter = s.meter ∧ (s.modWr g f).resHist = s.resHist ∧ (s.modWr g f).msix = s.msix ∧
    (s.modWr g f).msixFns = s.msixFns ∧ (s.modWr g f).minimal = s.minimal ∧ (s.modWr g f).out = s.out :=
  ⟨rfl, rfl, rfl, rfl, rfl, rfl, rfl, rfl, rfl, rfl, rfl, rfl, rfl, rfl, rfl, rfl, rfl, rfl, rfl, rfl, rfl, rfl, rfl, rfl, rfl, rfl, rfl, rfl, rfl, rfl, rfl, rfl, rfl, rfl, rfl, rfl, rfl, rfl, rfl, rfl, rfl, rfl, rfl, rfl, rfl, rfl, rfl, rfl, rfl, rfl, rfl, rfl, rfl, rfl, rfl, rfl, rfl, rfl, rfl, rfl, rfl, rfl⟩

@[simp] theorem State.modDecoder_fields (s : State) (i : Fin 20) (f : Decoder → Decoder) :
    (s.modDecoder i f).pending = s.pending ∧ (s.modDecoder i f).free = s.free ∧ (s.modDecoder i f).time = s.time ∧
    (s.modDecoder i f).regs = s.regs ∧ (s.modDecoder i f).log = s.log ∧ (s.modDecoder i f).power = s.power ∧ (s.modDecoder i f).heads = s.heads ∧
    (s.modDecoder i f).bays = s.bays ∧ (s.modDecoder i f).sleds = s.sleds ∧ (s.modDecoder i f).sas = s.sas ∧ (s.modDecoder i f).trans = s.trans ∧
    (s.modDecoder i f).encs = s.encs ∧ (s.modDecoder i f).runoutStore = s.runoutStore ∧ (s.modDecoder i f).loadedDiscs = s.loadedDiscs ∧
    (s.modDecoder i f).trims = s.trims ∧ (s.modDecoder i f).beams = s.beams ∧ (s.modDecoder i f).replay = s.replay ∧
    (s.modDecoder i f).wrs = s.wrs ∧ (s.modDecoder i f).extents = s.extents ∧ (s.modDecoder i f).nextKey = s.nextKey ∧
    (s.modDecoder i f).seqNext = s.seqNext ∧ (s.modDecoder i f).seqEnd = s.seqEnd ∧ (s.modDecoder i f).decoders = vmod s.decoders i f ∧
    (s.modDecoder i f).codewords = s.codewords ∧ (s.modDecoder i f).nextCw = s.nextCw ∧ (s.modDecoder i f).sweeps = s.sweeps ∧
    (s.modDecoder i f).mounts = s.mounts ∧ (s.modDecoder i f).map = s.map ∧ (s.modDecoder i f).discStore = s.discStore ∧
    (s.modDecoder i f).host = s.host ∧ (s.modDecoder i f).funcs = s.funcs ∧ (s.modDecoder i f).sqs = s.sqs ∧ (s.modDecoder i f).cqs = s.cqs ∧
    (s.modDecoder i f).lines = s.lines ∧ (s.modDecoder i f).cmds = s.cmds ∧ (s.modDecoder i f).nextCmd = s.nextCmd ∧
    (s.modDecoder i f).arb = s.arb ∧ (s.modDecoder i f).selfTest = s.selfTest ∧ (s.modDecoder i f).bufs = s.bufs ∧
    (s.modDecoder i f).poolWaits = s.poolWaits ∧ (s.modDecoder i f).quotas = s.quotas ∧ (s.modDecoder i f).cache = s.cache ∧
    (s.modDecoder i f).dram = s.dram ∧ (s.modDecoder i f).drams = s.drams ∧ (s.modDecoder i f).ceTable = s.ceTable ∧
    (s.modDecoder i f).marks = s.marks ∧ (s.modDecoder i f).devErrs = s.devErrs ∧ (s.modDecoder i f).sramPos = s.sramPos ∧
    (s.modDecoder i f).srams = s.srams ∧ (s.modDecoder i f).cipher = s.cipher ∧ (s.modDecoder i f).slots = s.slots ∧
    (s.modDecoder i f).nss = s.nss ∧ (s.modDecoder i f).chain = s.chain ∧ (s.modDecoder i f).calib = s.calib ∧ (s.modDecoder i f).nv = s.nv ∧
    (s.modDecoder i f).mgmt = s.mgmt ∧ (s.modDecoder i f).meter = s.meter ∧ (s.modDecoder i f).resHist = s.resHist ∧
    (s.modDecoder i f).msix = s.msix ∧ (s.modDecoder i f).msixFns = s.msixFns ∧ (s.modDecoder i f).minimal = s.minimal ∧
    (s.modDecoder i f).out = s.out :=
  ⟨rfl, rfl, rfl, rfl, rfl, rfl, rfl, rfl, rfl, rfl, rfl, rfl, rfl, rfl, rfl, rfl, rfl, rfl, rfl, rfl, rfl, rfl, rfl, rfl, rfl, rfl, rfl, rfl, rfl, rfl, rfl, rfl, rfl, rfl, rfl, rfl, rfl, rfl, rfl, rfl, rfl, rfl, rfl, rfl, rfl, rfl, rfl, rfl, rfl, rfl, rfl, rfl, rfl, rfl, rfl, rfl, rfl, rfl, rfl, rfl, rfl, rfl⟩

@[simp] theorem State.modMount_fields (s : State) (b : BayId) (f : Mount → Mount) :
    (s.modMount b f).pending = s.pending ∧ (s.modMount b f).free = s.free ∧ (s.modMount b f).time = s.time ∧ (s.modMount b f).regs = s.regs ∧
    (s.modMount b f).log = s.log ∧ (s.modMount b f).power = s.power ∧ (s.modMount b f).heads = s.heads ∧ (s.modMount b f).bays = s.bays ∧
    (s.modMount b f).sleds = s.sleds ∧ (s.modMount b f).sas = s.sas ∧ (s.modMount b f).trans = s.trans ∧ (s.modMount b f).encs = s.encs ∧
    (s.modMount b f).runoutStore = s.runoutStore ∧ (s.modMount b f).loadedDiscs = s.loadedDiscs ∧ (s.modMount b f).trims = s.trims ∧
    (s.modMount b f).beams = s.beams ∧ (s.modMount b f).replay = s.replay ∧ (s.modMount b f).wrs = s.wrs ∧ (s.modMount b f).extents = s.extents ∧
    (s.modMount b f).nextKey = s.nextKey ∧ (s.modMount b f).seqNext = s.seqNext ∧ (s.modMount b f).seqEnd = s.seqEnd ∧
    (s.modMount b f).decoders = s.decoders ∧ (s.modMount b f).codewords = s.codewords ∧ (s.modMount b f).nextCw = s.nextCw ∧
    (s.modMount b f).sweeps = s.sweeps ∧ (s.modMount b f).mounts = vmod s.mounts b f ∧ (s.modMount b f).map = s.map ∧
    (s.modMount b f).discStore = s.discStore ∧ (s.modMount b f).host = s.host ∧ (s.modMount b f).funcs = s.funcs ∧ (s.modMount b f).sqs = s.sqs ∧
    (s.modMount b f).cqs = s.cqs ∧ (s.modMount b f).lines = s.lines ∧ (s.modMount b f).cmds = s.cmds ∧ (s.modMount b f).nextCmd = s.nextCmd ∧
    (s.modMount b f).arb = s.arb ∧ (s.modMount b f).selfTest = s.selfTest ∧ (s.modMount b f).bufs = s.bufs ∧
    (s.modMount b f).poolWaits = s.poolWaits ∧ (s.modMount b f).quotas = s.quotas ∧ (s.modMount b f).cache = s.cache ∧
    (s.modMount b f).dram = s.dram ∧ (s.modMount b f).drams = s.drams ∧ (s.modMount b f).ceTable = s.ceTable ∧ (s.modMount b f).marks = s.marks ∧
    (s.modMount b f).devErrs = s.devErrs ∧ (s.modMount b f).sramPos = s.sramPos ∧ (s.modMount b f).srams = s.srams ∧
    (s.modMount b f).cipher = s.cipher ∧ (s.modMount b f).slots = s.slots ∧ (s.modMount b f).nss = s.nss ∧ (s.modMount b f).chain = s.chain ∧
    (s.modMount b f).calib = s.calib ∧ (s.modMount b f).nv = s.nv ∧ (s.modMount b f).mgmt = s.mgmt ∧ (s.modMount b f).meter = s.meter ∧
    (s.modMount b f).resHist = s.resHist ∧ (s.modMount b f).msix = s.msix ∧ (s.modMount b f).msixFns = s.msixFns ∧
    (s.modMount b f).minimal = s.minimal ∧ (s.modMount b f).out = s.out :=
  ⟨rfl, rfl, rfl, rfl, rfl, rfl, rfl, rfl, rfl, rfl, rfl, rfl, rfl, rfl, rfl, rfl, rfl, rfl, rfl, rfl, rfl, rfl, rfl, rfl, rfl, rfl, rfl, rfl, rfl, rfl, rfl, rfl, rfl, rfl, rfl, rfl, rfl, rfl, rfl, rfl, rfl, rfl, rfl, rfl, rfl, rfl, rfl, rfl, rfl, rfl, rfl, rfl, rfl, rfl, rfl, rfl, rfl, rfl, rfl, rfl, rfl, rfl⟩

@[simp] theorem State.modExtent_fields (s : State) (k : Nat) (f : Extent → Extent) :
    (s.modExtent k f).pending = s.pending ∧ (s.modExtent k f).free = s.free ∧ (s.modExtent k f).time = s.time ∧ (s.modExtent k f).regs = s.regs ∧
    (s.modExtent k f).log = s.log ∧ (s.modExtent k f).power = s.power ∧ (s.modExtent k f).heads = s.heads ∧ (s.modExtent k f).bays = s.bays ∧
    (s.modExtent k f).sleds = s.sleds ∧ (s.modExtent k f).sas = s.sas ∧ (s.modExtent k f).trans = s.trans ∧ (s.modExtent k f).encs = s.encs ∧
    (s.modExtent k f).runoutStore = s.runoutStore ∧ (s.modExtent k f).loadedDiscs = s.loadedDiscs ∧ (s.modExtent k f).trims = s.trims ∧
    (s.modExtent k f).beams = s.beams ∧ (s.modExtent k f).replay = s.replay ∧ (s.modExtent k f).wrs = s.wrs ∧
    (s.modExtent k f).extents = s.extents.map (fun e => if e.key = k then f e else e) ∧ (s.modExtent k f).nextKey = s.nextKey ∧
    (s.modExtent k f).seqNext = s.seqNext ∧ (s.modExtent k f).seqEnd = s.seqEnd ∧ (s.modExtent k f).decoders = s.decoders ∧
    (s.modExtent k f).codewords = s.codewords ∧ (s.modExtent k f).nextCw = s.nextCw ∧ (s.modExtent k f).sweeps = s.sweeps ∧
    (s.modExtent k f).mounts = s.mounts ∧ (s.modExtent k f).map = s.map ∧ (s.modExtent k f).discStore = s.discStore ∧
    (s.modExtent k f).host = s.host ∧ (s.modExtent k f).funcs = s.funcs ∧ (s.modExtent k f).sqs = s.sqs ∧ (s.modExtent k f).cqs = s.cqs ∧
    (s.modExtent k f).lines = s.lines ∧ (s.modExtent k f).cmds = s.cmds ∧ (s.modExtent k f).nextCmd = s.nextCmd ∧ (s.modExtent k f).arb = s.arb ∧
    (s.modExtent k f).selfTest = s.selfTest ∧ (s.modExtent k f).bufs = s.bufs ∧ (s.modExtent k f).poolWaits = s.poolWaits ∧
    (s.modExtent k f).quotas = s.quotas ∧ (s.modExtent k f).cache = s.cache ∧ (s.modExtent k f).dram = s.dram ∧ (s.modExtent k f).drams = s.drams ∧
    (s.modExtent k f).ceTable = s.ceTable ∧ (s.modExtent k f).marks = s.marks ∧ (s.modExtent k f).devErrs = s.devErrs ∧
    (s.modExtent k f).sramPos = s.sramPos ∧ (s.modExtent k f).srams = s.srams ∧ (s.modExtent k f).cipher = s.cipher ∧
    (s.modExtent k f).slots = s.slots ∧ (s.modExtent k f).nss = s.nss ∧ (s.modExtent k f).chain = s.chain ∧ (s.modExtent k f).calib = s.calib ∧
    (s.modExtent k f).nv = s.nv ∧ (s.modExtent k f).mgmt = s.mgmt ∧ (s.modExtent k f).meter = s.meter ∧ (s.modExtent k f).resHist = s.resHist ∧
    (s.modExtent k f).msix = s.msix ∧ (s.modExtent k f).msixFns = s.msixFns ∧ (s.modExtent k f).minimal = s.minimal ∧
    (s.modExtent k f).out = s.out :=
  ⟨rfl, rfl, rfl, rfl, rfl, rfl, rfl, rfl, rfl, rfl, rfl, rfl, rfl, rfl, rfl, rfl, rfl, rfl, rfl, rfl, rfl, rfl, rfl, rfl, rfl, rfl, rfl, rfl, rfl, rfl, rfl, rfl, rfl, rfl, rfl, rfl, rfl, rfl, rfl, rfl, rfl, rfl, rfl, rfl, rfl, rfl, rfl, rfl, rfl, rfl, rfl, rfl, rfl, rfl, rfl, rfl, rfl, rfl, rfl, rfl, rfl, rfl⟩

@[simp] theorem State.modCw_fields (s : State) (k : Nat) (f : Codeword → Codeword) :
    (s.modCw k f).pending = s.pending ∧ (s.modCw k f).free = s.free ∧ (s.modCw k f).time = s.time ∧ (s.modCw k f).regs = s.regs ∧
    (s.modCw k f).log = s.log ∧ (s.modCw k f).power = s.power ∧ (s.modCw k f).heads = s.heads ∧ (s.modCw k f).bays = s.bays ∧
    (s.modCw k f).sleds = s.sleds ∧ (s.modCw k f).sas = s.sas ∧ (s.modCw k f).trans = s.trans ∧ (s.modCw k f).encs = s.encs ∧
    (s.modCw k f).runoutStore = s.runoutStore ∧ (s.modCw k f).loadedDiscs = s.loadedDiscs ∧ (s.modCw k f).trims = s.trims ∧
    (s.modCw k f).beams = s.beams ∧ (s.modCw k f).replay = s.replay ∧ (s.modCw k f).wrs = s.wrs ∧ (s.modCw k f).extents = s.extents ∧
    (s.modCw k f).nextKey = s.nextKey ∧ (s.modCw k f).seqNext = s.seqNext ∧ (s.modCw k f).seqEnd = s.seqEnd ∧ (s.modCw k f).decoders = s.decoders ∧
    (s.modCw k f).codewords = s.codewords.map (fun c => if c.id = k then f c else c) ∧ (s.modCw k f).nextCw = s.nextCw ∧
    (s.modCw k f).sweeps = s.sweeps ∧ (s.modCw k f).mounts = s.mounts ∧ (s.modCw k f).map = s.map ∧ (s.modCw k f).discStore = s.discStore ∧
    (s.modCw k f).host = s.host ∧ (s.modCw k f).funcs = s.funcs ∧ (s.modCw k f).sqs = s.sqs ∧ (s.modCw k f).cqs = s.cqs ∧
    (s.modCw k f).lines = s.lines ∧ (s.modCw k f).cmds = s.cmds ∧ (s.modCw k f).nextCmd = s.nextCmd ∧ (s.modCw k f).arb = s.arb ∧
    (s.modCw k f).selfTest = s.selfTest ∧ (s.modCw k f).bufs = s.bufs ∧ (s.modCw k f).poolWaits = s.poolWaits ∧ (s.modCw k f).quotas = s.quotas ∧
    (s.modCw k f).cache = s.cache ∧ (s.modCw k f).dram = s.dram ∧ (s.modCw k f).drams = s.drams ∧ (s.modCw k f).ceTable = s.ceTable ∧
    (s.modCw k f).marks = s.marks ∧ (s.modCw k f).devErrs = s.devErrs ∧ (s.modCw k f).sramPos = s.sramPos ∧ (s.modCw k f).srams = s.srams ∧
    (s.modCw k f).cipher = s.cipher ∧ (s.modCw k f).slots = s.slots ∧ (s.modCw k f).nss = s.nss ∧ (s.modCw k f).chain = s.chain ∧
    (s.modCw k f).calib = s.calib ∧ (s.modCw k f).nv = s.nv ∧ (s.modCw k f).mgmt = s.mgmt ∧ (s.modCw k f).meter = s.meter ∧
    (s.modCw k f).resHist = s.resHist ∧ (s.modCw k f).msix = s.msix ∧ (s.modCw k f).msixFns = s.msixFns ∧ (s.modCw k f).minimal = s.minimal ∧
    (s.modCw k f).out = s.out :=
  ⟨rfl, rfl, rfl, rfl, rfl, rfl, rfl, rfl, rfl, rfl, rfl, rfl, rfl, rfl, rfl, rfl, rfl, rfl, rfl, rfl, rfl, rfl, rfl, rfl, rfl, rfl, rfl, rfl, rfl, rfl, rfl, rfl, rfl, rfl, rfl, rfl, rfl, rfl, rfl, rfl, rfl, rfl, rfl, rfl, rfl, rfl, rfl, rfl, rfl, rfl, rfl, rfl, rfl, rfl, rfl, rfl, rfl, rfl, rfl, rfl, rfl, rfl⟩

@[simp] theorem State.modCmd_fields (s : State) (k : Nat) (f : Cmd → Cmd) :
    (s.modCmd k f).pending = s.pending ∧ (s.modCmd k f).free = s.free ∧ (s.modCmd k f).time = s.time ∧ (s.modCmd k f).regs = s.regs ∧
    (s.modCmd k f).log = s.log ∧ (s.modCmd k f).power = s.power ∧ (s.modCmd k f).heads = s.heads ∧ (s.modCmd k f).bays = s.bays ∧
    (s.modCmd k f).sleds = s.sleds ∧ (s.modCmd k f).sas = s.sas ∧ (s.modCmd k f).trans = s.trans ∧ (s.modCmd k f).encs = s.encs ∧
    (s.modCmd k f).runoutStore = s.runoutStore ∧ (s.modCmd k f).loadedDiscs = s.loadedDiscs ∧ (s.modCmd k f).trims = s.trims ∧
    (s.modCmd k f).beams = s.beams ∧ (s.modCmd k f).replay = s.replay ∧ (s.modCmd k f).wrs = s.wrs ∧ (s.modCmd k f).extents = s.extents ∧
    (s.modCmd k f).nextKey = s.nextKey ∧ (s.modCmd k f).seqNext = s.seqNext ∧ (s.modCmd k f).seqEnd = s.seqEnd ∧
    (s.modCmd k f).decoders = s.decoders ∧ (s.modCmd k f).codewords = s.codewords ∧ (s.modCmd k f).nextCw = s.nextCw ∧
    (s.modCmd k f).sweeps = s.sweeps ∧ (s.modCmd k f).mounts = s.mounts ∧ (s.modCmd k f).map = s.map ∧ (s.modCmd k f).discStore = s.discStore ∧
    (s.modCmd k f).host = s.host ∧ (s.modCmd k f).funcs = s.funcs ∧ (s.modCmd k f).sqs = s.sqs ∧ (s.modCmd k f).cqs = s.cqs ∧
    (s.modCmd k f).lines = s.lines ∧ (s.modCmd k f).cmds = s.cmds.map (fun c => if c.id = k then f c else c) ∧ (s.modCmd k f).nextCmd = s.nextCmd ∧
    (s.modCmd k f).arb = s.arb ∧ (s.modCmd k f).selfTest = s.selfTest ∧ (s.modCmd k f).bufs = s.bufs ∧ (s.modCmd k f).poolWaits = s.poolWaits ∧
    (s.modCmd k f).quotas = s.quotas ∧ (s.modCmd k f).cache = s.cache ∧ (s.modCmd k f).dram = s.dram ∧ (s.modCmd k f).drams = s.drams ∧
    (s.modCmd k f).ceTable = s.ceTable ∧ (s.modCmd k f).marks = s.marks ∧ (s.modCmd k f).devErrs = s.devErrs ∧ (s.modCmd k f).sramPos = s.sramPos ∧
    (s.modCmd k f).srams = s.srams ∧ (s.modCmd k f).cipher = s.cipher ∧ (s.modCmd k f).slots = s.slots ∧ (s.modCmd k f).nss = s.nss ∧
    (s.modCmd k f).chain = s.chain ∧ (s.modCmd k f).calib = s.calib ∧ (s.modCmd k f).nv = s.nv ∧ (s.modCmd k f).mgmt = s.mgmt ∧
    (s.modCmd k f).meter = s.meter ∧ (s.modCmd k f).resHist = s.resHist ∧ (s.modCmd k f).msix = s.msix ∧ (s.modCmd k f).msixFns = s.msixFns ∧
    (s.modCmd k f).minimal = s.minimal ∧ (s.modCmd k f).out = s.out :=
  ⟨rfl, rfl, rfl, rfl, rfl, rfl, rfl, rfl, rfl, rfl, rfl, rfl, rfl, rfl, rfl, rfl, rfl, rfl, rfl, rfl, rfl, rfl, rfl, rfl, rfl, rfl, rfl, rfl, rfl, rfl, rfl, rfl, rfl, rfl, rfl, rfl, rfl, rfl, rfl, rfl, rfl, rfl, rfl, rfl, rfl, rfl, rfl, rfl, rfl, rfl, rfl, rfl, rfl, rfl, rfl, rfl, rfl, rfl, rfl, rfl, rfl, rfl⟩

@[simp] theorem State.modMgmt_fields (s : State) (f : Mgmt → Mgmt) :
    (s.modMgmt f).pending = s.pending ∧ (s.modMgmt f).free = s.free ∧ (s.modMgmt f).time = s.time ∧ (s.modMgmt f).regs = s.regs ∧
    (s.modMgmt f).log = s.log ∧ (s.modMgmt f).power = s.power ∧ (s.modMgmt f).heads = s.heads ∧ (s.modMgmt f).bays = s.bays ∧
    (s.modMgmt f).sleds = s.sleds ∧ (s.modMgmt f).sas = s.sas ∧ (s.modMgmt f).trans = s.trans ∧ (s.modMgmt f).encs = s.encs ∧
    (s.modMgmt f).runoutStore = s.runoutStore ∧ (s.modMgmt f).loadedDiscs = s.loadedDiscs ∧ (s.modMgmt f).trims = s.trims ∧
    (s.modMgmt f).beams = s.beams ∧ (s.modMgmt f).replay = s.replay ∧ (s.modMgmt f).wrs = s.wrs ∧ (s.modMgmt f).extents = s.extents ∧
    (s.modMgmt f).nextKey = s.nextKey ∧ (s.modMgmt f).seqNext = s.seqNext ∧ (s.modMgmt f).seqEnd = s.seqEnd ∧ (s.modMgmt f).decoders = s.decoders ∧
    (s.modMgmt f).codewords = s.codewords ∧ (s.modMgmt f).nextCw = s.nextCw ∧ (s.modMgmt f).sweeps = s.sweeps ∧ (s.modMgmt f).mounts = s.mounts ∧
    (s.modMgmt f).map = s.map ∧ (s.modMgmt f).discStore = s.discStore ∧ (s.modMgmt f).host = s.host ∧ (s.modMgmt f).funcs = s.funcs ∧
    (s.modMgmt f).sqs = s.sqs ∧ (s.modMgmt f).cqs = s.cqs ∧ (s.modMgmt f).lines = s.lines ∧ (s.modMgmt f).cmds = s.cmds ∧
    (s.modMgmt f).nextCmd = s.nextCmd ∧ (s.modMgmt f).arb = s.arb ∧ (s.modMgmt f).selfTest = s.selfTest ∧ (s.modMgmt f).bufs = s.bufs ∧
    (s.modMgmt f).poolWaits = s.poolWaits ∧ (s.modMgmt f).quotas = s.quotas ∧ (s.modMgmt f).cache = s.cache ∧ (s.modMgmt f).dram = s.dram ∧
    (s.modMgmt f).drams = s.drams ∧ (s.modMgmt f).ceTable = s.ceTable ∧ (s.modMgmt f).marks = s.marks ∧ (s.modMgmt f).devErrs = s.devErrs ∧
    (s.modMgmt f).sramPos = s.sramPos ∧ (s.modMgmt f).srams = s.srams ∧ (s.modMgmt f).cipher = s.cipher ∧ (s.modMgmt f).slots = s.slots ∧
    (s.modMgmt f).nss = s.nss ∧ (s.modMgmt f).chain = s.chain ∧ (s.modMgmt f).calib = s.calib ∧ (s.modMgmt f).nv = s.nv ∧
    (s.modMgmt f).mgmt = f s.mgmt ∧ (s.modMgmt f).meter = s.meter ∧ (s.modMgmt f).resHist = s.resHist ∧ (s.modMgmt f).msix = s.msix ∧
    (s.modMgmt f).msixFns = s.msixFns ∧ (s.modMgmt f).minimal = s.minimal ∧ (s.modMgmt f).out = s.out :=
  ⟨rfl, rfl, rfl, rfl, rfl, rfl, rfl, rfl, rfl, rfl, rfl, rfl, rfl, rfl, rfl, rfl, rfl, rfl, rfl, rfl, rfl, rfl, rfl, rfl, rfl, rfl, rfl, rfl, rfl, rfl, rfl, rfl, rfl, rfl, rfl, rfl, rfl, rfl, rfl, rfl, rfl, rfl, rfl, rfl, rfl, rfl, rfl, rfl, rfl, rfl, rfl, rfl, rfl, rfl, rfl, rfl, rfl, rfl, rfl, rfl, rfl, rfl⟩

@[simp] theorem State.modLoop_fields (s : State) (g : HeadId) (l : Fin 6) (f : LoopSt → LoopSt) :
    (s.modLoop g l f).pending = s.pending ∧ (s.modLoop g l f).free = s.free ∧ (s.modLoop g l f).time = s.time ∧ (s.modLoop g l f).regs = s.regs ∧
    (s.modLoop g l f).log = s.log ∧ (s.modLoop g l f).power = s.power ∧ (s.modLoop g l f).heads = vmod s.heads g (·.modLoop l f) ∧
    (s.modLoop g l f).bays = s.bays ∧ (s.modLoop g l f).sleds = s.sleds ∧ (s.modLoop g l f).sas = s.sas ∧ (s.modLoop g l f).trans = s.trans ∧
    (s.modLoop g l f).encs = s.encs ∧ (s.modLoop g l f).runoutStore = s.runoutStore ∧ (s.modLoop g l f).loadedDiscs = s.loadedDiscs ∧
    (s.modLoop g l f).trims = s.trims ∧ (s.modLoop g l f).beams = s.beams ∧ (s.modLoop g l f).replay = s.replay ∧ (s.modLoop g l f).wrs = s.wrs ∧
    (s.modLoop g l f).extents = s.extents ∧ (s.modLoop g l f).nextKey = s.nextKey ∧ (s.modLoop g l f).seqNext = s.seqNext ∧
    (s.modLoop g l f).seqEnd = s.seqEnd ∧ (s.modLoop g l f).decoders = s.decoders ∧ (s.modLoop g l f).codewords = s.codewords ∧
    (s.modLoop g l f).nextCw = s.nextCw ∧ (s.modLoop g l f).sweeps = s.sweeps ∧ (s.modLoop g l f).mounts = s.mounts ∧
    (s.modLoop g l f).map = s.map ∧ (s.modLoop g l f).discStore = s.discStore ∧ (s.modLoop g l f).host = s.host ∧
    (s.modLoop g l f).funcs = s.funcs ∧ (s.modLoop g l f).sqs = s.sqs ∧ (s.modLoop g l f).cqs = s.cqs ∧ (s.modLoop g l f).lines = s.lines ∧
    (s.modLoop g l f).cmds = s.cmds ∧ (s.modLoop g l f).nextCmd = s.nextCmd ∧ (s.modLoop g l f).arb = s.arb ∧
    (s.modLoop g l f).selfTest = s.selfTest ∧ (s.modLoop g l f).bufs = s.bufs ∧ (s.modLoop g l f).poolWaits = s.poolWaits ∧
    (s.modLoop g l f).quotas = s.quotas ∧ (s.modLoop g l f).cache = s.cache ∧ (s.modLoop g l f).dram = s.dram ∧ (s.modLoop g l f).drams = s.drams ∧
    (s.modLoop g l f).ceTable = s.ceTable ∧ (s.modLoop g l f).marks = s.marks ∧ (s.modLoop g l f).devErrs = s.devErrs ∧
    (s.modLoop g l f).sramPos = s.sramPos ∧ (s.modLoop g l f).srams = s.srams ∧ (s.modLoop g l f).cipher = s.cipher ∧
    (s.modLoop g l f).slots = s.slots ∧ (s.modLoop g l f).nss = s.nss ∧ (s.modLoop g l f).chain = s.chain ∧ (s.modLoop g l f).calib = s.calib ∧
    (s.modLoop g l f).nv = s.nv ∧ (s.modLoop g l f).mgmt = s.mgmt ∧ (s.modLoop g l f).meter = s.meter ∧ (s.modLoop g l f).resHist = s.resHist ∧
    (s.modLoop g l f).msix = s.msix ∧ (s.modLoop g l f).msixFns = s.msixFns ∧ (s.modLoop g l f).minimal = s.minimal ∧
    (s.modLoop g l f).out = s.out :=
  ⟨rfl, rfl, rfl, rfl, rfl, rfl, rfl, rfl, rfl, rfl, rfl, rfl, rfl, rfl, rfl, rfl, rfl, rfl, rfl, rfl, rfl, rfl, rfl, rfl, rfl, rfl, rfl, rfl, rfl, rfl, rfl, rfl, rfl, rfl, rfl, rfl, rfl, rfl, rfl, rfl, rfl, rfl, rfl, rfl, rfl, rfl, rfl, rfl, rfl, rfl, rfl, rfl, rfl, rfl, rfl, rfl, rfl, rfl, rfl, rfl, rfl, rfl⟩

@[simp] theorem State.modLane_fields (s : State) (g : HeadId) (k : BeamId) (f : Lane → Lane) :
    (s.modLane g k f).pending = s.pending ∧ (s.modLane g k f).free = s.free ∧ (s.modLane g k f).time = s.time ∧ (s.modLane g k f).regs = s.regs ∧
    (s.modLane g k f).log = s.log ∧ (s.modLane g k f).power = s.power ∧ (s.modLane g k f).heads = vmod s.heads g (·.modLane k f) ∧
    (s.modLane g k f).bays = s.bays ∧ (s.modLane g k f).sleds = s.sleds ∧ (s.modLane g k f).sas = s.sas ∧ (s.modLane g k f).trans = s.trans ∧
    (s.modLane g k f).encs = s.encs ∧ (s.modLane g k f).runoutStore = s.runoutStore ∧ (s.modLane g k f).loadedDiscs = s.loadedDiscs ∧
    (s.modLane g k f).trims = s.trims ∧ (s.modLane g k f).beams = s.beams ∧ (s.modLane g k f).replay = s.replay ∧ (s.modLane g k f).wrs = s.wrs ∧
    (s.modLane g k f).extents = s.extents ∧ (s.modLane g k f).nextKey = s.nextKey ∧ (s.modLane g k f).seqNext = s.seqNext ∧
    (s.modLane g k f).seqEnd = s.seqEnd ∧ (s.modLane g k f).decoders = s.decoders ∧ (s.modLane g k f).codewords = s.codewords ∧
    (s.modLane g k f).nextCw = s.nextCw ∧ (s.modLane g k f).sweeps = s.sweeps ∧ (s.modLane g k f).mounts = s.mounts ∧
    (s.modLane g k f).map = s.map ∧ (s.modLane g k f).discStore = s.discStore ∧ (s.modLane g k f).host = s.host ∧
    (s.modLane g k f).funcs = s.funcs ∧ (s.modLane g k f).sqs = s.sqs ∧ (s.modLane g k f).cqs = s.cqs ∧ (s.modLane g k f).lines = s.lines ∧
    (s.modLane g k f).cmds = s.cmds ∧ (s.modLane g k f).nextCmd = s.nextCmd ∧ (s.modLane g k f).arb = s.arb ∧
    (s.modLane g k f).selfTest = s.selfTest ∧ (s.modLane g k f).bufs = s.bufs ∧ (s.modLane g k f).poolWaits = s.poolWaits ∧
    (s.modLane g k f).quotas = s.quotas ∧ (s.modLane g k f).cache = s.cache ∧ (s.modLane g k f).dram = s.dram ∧ (s.modLane g k f).drams = s.drams ∧
    (s.modLane g k f).ceTable = s.ceTable ∧ (s.modLane g k f).marks = s.marks ∧ (s.modLane g k f).devErrs = s.devErrs ∧
    (s.modLane g k f).sramPos = s.sramPos ∧ (s.modLane g k f).srams = s.srams ∧ (s.modLane g k f).cipher = s.cipher ∧
    (s.modLane g k f).slots = s.slots ∧ (s.modLane g k f).nss = s.nss ∧ (s.modLane g k f).chain = s.chain ∧ (s.modLane g k f).calib = s.calib ∧
    (s.modLane g k f).nv = s.nv ∧ (s.modLane g k f).mgmt = s.mgmt ∧ (s.modLane g k f).meter = s.meter ∧ (s.modLane g k f).resHist = s.resHist ∧
    (s.modLane g k f).msix = s.msix ∧ (s.modLane g k f).msixFns = s.msixFns ∧ (s.modLane g k f).minimal = s.minimal ∧
    (s.modLane g k f).out = s.out :=
  ⟨rfl, rfl, rfl, rfl, rfl, rfl, rfl, rfl, rfl, rfl, rfl, rfl, rfl, rfl, rfl, rfl, rfl, rfl, rfl, rfl, rfl, rfl, rfl, rfl, rfl, rfl, rfl, rfl, rfl, rfl, rfl, rfl, rfl, rfl, rfl, rfl, rfl, rfl, rfl, rfl, rfl, rfl, rfl, rfl, rfl, rfl, rfl, rfl, rfl, rfl, rfl, rfl, rfl, rfl, rfl, rfl, rfl, rfl, rfl, rfl, rfl, rfl⟩

@[simp] theorem State.modRunout_fields (s : State) (g : HeadId) (l : Fin 3) (f : Runout → Runout) :
    (s.modRunout g l f).pending = s.pending ∧ (s.modRunout g l f).free = s.free ∧ (s.modRunout g l f).time = s.time ∧
    (s.modRunout g l f).regs = s.regs ∧ (s.modRunout g l f).log = s.log ∧ (s.modRunout g l f).power = s.power ∧
    (s.modRunout g l f).heads = vmod s.heads g (·.modRunout l f) ∧ (s.modRunout g l f).bays = s.bays ∧ (s.modRunout g l f).sleds = s.sleds ∧
    (s.modRunout g l f).sas = s.sas ∧ (s.modRunout g l f).trans = s.trans ∧ (s.modRunout g l f).encs = s.encs ∧
    (s.modRunout g l f).runoutStore = s.runoutStore ∧ (s.modRunout g l f).loadedDiscs = s.loadedDiscs ∧ (s.modRunout g l f).trims = s.trims ∧
    (s.modRunout g l f).beams = s.beams ∧ (s.modRunout g l f).replay = s.replay ∧ (s.modRunout g l f).wrs = s.wrs ∧
    (s.modRunout g l f).extents = s.extents ∧ (s.modRunout g l f).nextKey = s.nextKey ∧ (s.modRunout g l f).seqNext = s.seqNext ∧
    (s.modRunout g l f).seqEnd = s.seqEnd ∧ (s.modRunout g l f).decoders = s.decoders ∧ (s.modRunout g l f).codewords = s.codewords ∧
    (s.modRunout g l f).nextCw = s.nextCw ∧ (s.modRunout g l f).sweeps = s.sweeps ∧ (s.modRunout g l f).mounts = s.mounts ∧
    (s.modRunout g l f).map = s.map ∧ (s.modRunout g l f).discStore = s.discStore ∧ (s.modRunout g l f).host = s.host ∧
    (s.modRunout g l f).funcs = s.funcs ∧ (s.modRunout g l f).sqs = s.sqs ∧ (s.modRunout g l f).cqs = s.cqs ∧ (s.modRunout g l f).lines = s.lines ∧
    (s.modRunout g l f).cmds = s.cmds ∧ (s.modRunout g l f).nextCmd = s.nextCmd ∧ (s.modRunout g l f).arb = s.arb ∧
    (s.modRunout g l f).selfTest = s.selfTest ∧ (s.modRunout g l f).bufs = s.bufs ∧ (s.modRunout g l f).poolWaits = s.poolWaits ∧
    (s.modRunout g l f).quotas = s.quotas ∧ (s.modRunout g l f).cache = s.cache ∧ (s.modRunout g l f).dram = s.dram ∧
    (s.modRunout g l f).drams = s.drams ∧ (s.modRunout g l f).ceTable = s.ceTable ∧ (s.modRunout g l f).marks = s.marks ∧
    (s.modRunout g l f).devErrs = s.devErrs ∧ (s.modRunout g l f).sramPos = s.sramPos ∧ (s.modRunout g l f).srams = s.srams ∧
    (s.modRunout g l f).cipher = s.cipher ∧ (s.modRunout g l f).slots = s.slots ∧ (s.modRunout g l f).nss = s.nss ∧
    (s.modRunout g l f).chain = s.chain ∧ (s.modRunout g l f).calib = s.calib ∧ (s.modRunout g l f).nv = s.nv ∧ (s.modRunout g l f).mgmt = s.mgmt ∧
    (s.modRunout g l f).meter = s.meter ∧ (s.modRunout g l f).resHist = s.resHist ∧ (s.modRunout g l f).msix = s.msix ∧
    (s.modRunout g l f).msixFns = s.msixFns ∧ (s.modRunout g l f).minimal = s.minimal ∧ (s.modRunout g l f).out = s.out :=
  ⟨rfl, rfl, rfl, rfl, rfl, rfl, rfl, rfl, rfl, rfl, rfl, rfl, rfl, rfl, rfl, rfl, rfl, rfl, rfl, rfl, rfl, rfl, rfl, rfl, rfl, rfl, rfl, rfl, rfl, rfl, rfl, rfl, rfl, rfl, rfl, rfl, rfl, rfl, rfl, rfl, rfl, rfl, rfl, rfl, rfl, rfl, rfl, rfl, rfl, rfl, rfl, rfl, rfl, rfl, rfl, rfl, rfl, rfl, rfl, rfl, rfl, rfl⟩

@[simp] theorem State.modFoc_fields (s : State) (g : HeadId) (f : FocSt → FocSt) :
    (s.modFoc g f).pending = s.pending ∧ (s.modFoc g f).free = s.free ∧ (s.modFoc g f).time = s.time ∧ (s.modFoc g f).regs = s.regs ∧
    (s.modFoc g f).log = s.log ∧ (s.modFoc g f).power = s.power ∧ (s.modFoc g f).heads = vmod s.heads g (·.modFoc f) ∧
    (s.modFoc g f).bays = s.bays ∧ (s.modFoc g f).sleds = s.sleds ∧ (s.modFoc g f).sas = s.sas ∧ (s.modFoc g f).trans = s.trans ∧
    (s.modFoc g f).encs = s.encs ∧ (s.modFoc g f).runoutStore = s.runoutStore ∧ (s.modFoc g f).loadedDiscs = s.loadedDiscs ∧
    (s.modFoc g f).trims = s.trims ∧ (s.modFoc g f).beams = s.beams ∧ (s.modFoc g f).replay = s.replay ∧ (s.modFoc g f).wrs = s.wrs ∧
    (s.modFoc g f).extents = s.extents ∧ (s.modFoc g f).nextKey = s.nextKey ∧ (s.modFoc g f).seqNext = s.seqNext ∧
    (s.modFoc g f).seqEnd = s.seqEnd ∧ (s.modFoc g f).decoders = s.decoders ∧ (s.modFoc g f).codewords = s.codewords ∧
    (s.modFoc g f).nextCw = s.nextCw ∧ (s.modFoc g f).sweeps = s.sweeps ∧ (s.modFoc g f).mounts = s.mounts ∧ (s.modFoc g f).map = s.map ∧
    (s.modFoc g f).discStore = s.discStore ∧ (s.modFoc g f).host = s.host ∧ (s.modFoc g f).funcs = s.funcs ∧ (s.modFoc g f).sqs = s.sqs ∧
    (s.modFoc g f).cqs = s.cqs ∧ (s.modFoc g f).lines = s.lines ∧ (s.modFoc g f).cmds = s.cmds ∧ (s.modFoc g f).nextCmd = s.nextCmd ∧
    (s.modFoc g f).arb = s.arb ∧ (s.modFoc g f).selfTest = s.selfTest ∧ (s.modFoc g f).bufs = s.bufs ∧ (s.modFoc g f).poolWaits = s.poolWaits ∧
    (s.modFoc g f).quotas = s.quotas ∧ (s.modFoc g f).cache = s.cache ∧ (s.modFoc g f).dram = s.dram ∧ (s.modFoc g f).drams = s.drams ∧
    (s.modFoc g f).ceTable = s.ceTable ∧ (s.modFoc g f).marks = s.marks ∧ (s.modFoc g f).devErrs = s.devErrs ∧ (s.modFoc g f).sramPos = s.sramPos ∧
    (s.modFoc g f).srams = s.srams ∧ (s.modFoc g f).cipher = s.cipher ∧ (s.modFoc g f).slots = s.slots ∧ (s.modFoc g f).nss = s.nss ∧
    (s.modFoc g f).chain = s.chain ∧ (s.modFoc g f).calib = s.calib ∧ (s.modFoc g f).nv = s.nv ∧ (s.modFoc g f).mgmt = s.mgmt ∧
    (s.modFoc g f).meter = s.meter ∧ (s.modFoc g f).resHist = s.resHist ∧ (s.modFoc g f).msix = s.msix ∧ (s.modFoc g f).msixFns = s.msixFns ∧
    (s.modFoc g f).minimal = s.minimal ∧ (s.modFoc g f).out = s.out :=
  ⟨rfl, rfl, rfl, rfl, rfl, rfl, rfl, rfl, rfl, rfl, rfl, rfl, rfl, rfl, rfl, rfl, rfl, rfl, rfl, rfl, rfl, rfl, rfl, rfl, rfl, rfl, rfl, rfl, rfl, rfl, rfl, rfl, rfl, rfl, rfl, rfl, rfl, rfl, rfl, rfl, rfl, rfl, rfl, rfl, rfl, rfl, rfl, rfl, rfl, rfl, rfl, rfl, rfl, rfl, rfl, rfl, rfl, rfl, rfl, rfl, rfl, rfl⟩

@[simp] theorem State.modTrk_fields (s : State) (g : HeadId) (f : TrkSt → TrkSt) :
    (s.modTrk g f).pending = s.pending ∧ (s.modTrk g f).free = s.free ∧ (s.modTrk g f).time = s.time ∧ (s.modTrk g f).regs = s.regs ∧
    (s.modTrk g f).log = s.log ∧ (s.modTrk g f).power = s.power ∧ (s.modTrk g f).heads = vmod s.heads g (·.modTrk f) ∧
    (s.modTrk g f).bays = s.bays ∧ (s.modTrk g f).sleds = s.sleds ∧ (s.modTrk g f).sas = s.sas ∧ (s.modTrk g f).trans = s.trans ∧
    (s.modTrk g f).encs = s.encs ∧ (s.modTrk g f).runoutStore = s.runoutStore ∧ (s.modTrk g f).loadedDiscs = s.loadedDiscs ∧
    (s.modTrk g f).trims = s.trims ∧ (s.modTrk g f).beams = s.beams ∧ (s.modTrk g f).replay = s.replay ∧ (s.modTrk g f).wrs = s.wrs ∧
    (s.modTrk g f).extents = s.extents ∧ (s.modTrk g f).nextKey = s.nextKey ∧ (s.modTrk g f).seqNext = s.seqNext ∧
    (s.modTrk g f).seqEnd = s.seqEnd ∧ (s.modTrk g f).decoders = s.decoders ∧ (s.modTrk g f).codewords = s.codewords ∧
    (s.modTrk g f).nextCw = s.nextCw ∧ (s.modTrk g f).sweeps = s.sweeps ∧ (s.modTrk g f).mounts = s.mounts ∧ (s.modTrk g f).map = s.map ∧
    (s.modTrk g f).discStore = s.discStore ∧ (s.modTrk g f).host = s.host ∧ (s.modTrk g f).funcs = s.funcs ∧ (s.modTrk g f).sqs = s.sqs ∧
    (s.modTrk g f).cqs = s.cqs ∧ (s.modTrk g f).lines = s.lines ∧ (s.modTrk g f).cmds = s.cmds ∧ (s.modTrk g f).nextCmd = s.nextCmd ∧
    (s.modTrk g f).arb = s.arb ∧ (s.modTrk g f).selfTest = s.selfTest ∧ (s.modTrk g f).bufs = s.bufs ∧ (s.modTrk g f).poolWaits = s.poolWaits ∧
    (s.modTrk g f).quotas = s.quotas ∧ (s.modTrk g f).cache = s.cache ∧ (s.modTrk g f).dram = s.dram ∧ (s.modTrk g f).drams = s.drams ∧
    (s.modTrk g f).ceTable = s.ceTable ∧ (s.modTrk g f).marks = s.marks ∧ (s.modTrk g f).devErrs = s.devErrs ∧ (s.modTrk g f).sramPos = s.sramPos ∧
    (s.modTrk g f).srams = s.srams ∧ (s.modTrk g f).cipher = s.cipher ∧ (s.modTrk g f).slots = s.slots ∧ (s.modTrk g f).nss = s.nss ∧
    (s.modTrk g f).chain = s.chain ∧ (s.modTrk g f).calib = s.calib ∧ (s.modTrk g f).nv = s.nv ∧ (s.modTrk g f).mgmt = s.mgmt ∧
    (s.modTrk g f).meter = s.meter ∧ (s.modTrk g f).resHist = s.resHist ∧ (s.modTrk g f).msix = s.msix ∧ (s.modTrk g f).msixFns = s.msixFns ∧
    (s.modTrk g f).minimal = s.minimal ∧ (s.modTrk g f).out = s.out :=
  ⟨rfl, rfl, rfl, rfl, rfl, rfl, rfl, rfl, rfl, rfl, rfl, rfl, rfl, rfl, rfl, rfl, rfl, rfl, rfl, rfl, rfl, rfl, rfl, rfl, rfl, rfl, rfl, rfl, rfl, rfl, rfl, rfl, rfl, rfl, rfl, rfl, rfl, rfl, rfl, rfl, rfl, rfl, rfl, rfl, rfl, rfl, rfl, rfl, rfl, rfl, rfl, rfl, rfl, rfl, rfl, rfl, rfl, rfl, rfl, rfl, rfl, rfl⟩

@[simp] theorem State.modSpindle_fields (s : State) (b : BayId) (f : Spindle → Spindle) :
    (s.modSpindle b f).pending = s.pending ∧ (s.modSpindle b f).free = s.free ∧ (s.modSpindle b f).time = s.time ∧
    (s.modSpindle b f).regs = s.regs ∧ (s.modSpindle b f).log = s.log ∧ (s.modSpindle b f).power = s.power ∧ (s.modSpindle b f).heads = s.heads ∧
    (s.modSpindle b f).bays = vmod s.bays b (·.modSpindle f) ∧ (s.modSpindle b f).sleds = s.sleds ∧ (s.modSpindle b f).sas = s.sas ∧
    (s.modSpindle b f).trans = s.trans ∧ (s.modSpindle b f).encs = s.encs ∧ (s.modSpindle b f).runoutStore = s.runoutStore ∧
    (s.modSpindle b f).loadedDiscs = s.loadedDiscs ∧ (s.modSpindle b f).trims = s.trims ∧ (s.modSpindle b f).beams = s.beams ∧
    (s.modSpindle b f).replay = s.replay ∧ (s.modSpindle b f).wrs = s.wrs ∧ (s.modSpindle b f).extents = s.extents ∧
    (s.modSpindle b f).nextKey = s.nextKey ∧ (s.modSpindle b f).seqNext = s.seqNext ∧ (s.modSpindle b f).seqEnd = s.seqEnd ∧
    (s.modSpindle b f).decoders = s.decoders ∧ (s.modSpindle b f).codewords = s.codewords ∧ (s.modSpindle b f).nextCw = s.nextCw ∧
    (s.modSpindle b f).sweeps = s.sweeps ∧ (s.modSpindle b f).mounts = s.mounts ∧ (s.modSpindle b f).map = s.map ∧
    (s.modSpindle b f).discStore = s.discStore ∧ (s.modSpindle b f).host = s.host ∧ (s.modSpindle b f).funcs = s.funcs ∧
    (s.modSpindle b f).sqs = s.sqs ∧ (s.modSpindle b f).cqs = s.cqs ∧ (s.modSpindle b f).lines = s.lines ∧ (s.modSpindle b f).cmds = s.cmds ∧
    (s.modSpindle b f).nextCmd = s.nextCmd ∧ (s.modSpindle b f).arb = s.arb ∧ (s.modSpindle b f).selfTest = s.selfTest ∧
    (s.modSpindle b f).bufs = s.bufs ∧ (s.modSpindle b f).poolWaits = s.poolWaits ∧ (s.modSpindle b f).quotas = s.quotas ∧
    (s.modSpindle b f).cache = s.cache ∧ (s.modSpindle b f).dram = s.dram ∧ (s.modSpindle b f).drams = s.drams ∧
    (s.modSpindle b f).ceTable = s.ceTable ∧ (s.modSpindle b f).marks = s.marks ∧ (s.modSpindle b f).devErrs = s.devErrs ∧
    (s.modSpindle b f).sramPos = s.sramPos ∧ (s.modSpindle b f).srams = s.srams ∧ (s.modSpindle b f).cipher = s.cipher ∧
    (s.modSpindle b f).slots = s.slots ∧ (s.modSpindle b f).nss = s.nss ∧ (s.modSpindle b f).chain = s.chain ∧ (s.modSpindle b f).calib = s.calib ∧
    (s.modSpindle b f).nv = s.nv ∧ (s.modSpindle b f).mgmt = s.mgmt ∧ (s.modSpindle b f).meter = s.meter ∧ (s.modSpindle b f).resHist = s.resHist ∧
    (s.modSpindle b f).msix = s.msix ∧ (s.modSpindle b f).msixFns = s.msixFns ∧ (s.modSpindle b f).minimal = s.minimal ∧
    (s.modSpindle b f).out = s.out :=
  ⟨rfl, rfl, rfl, rfl, rfl, rfl, rfl, rfl, rfl, rfl, rfl, rfl, rfl, rfl, rfl, rfl, rfl, rfl, rfl, rfl, rfl, rfl, rfl, rfl, rfl, rfl, rfl, rfl, rfl, rfl, rfl, rfl, rfl, rfl, rfl, rfl, rfl, rfl, rfl, rfl, rfl, rfl, rfl, rfl, rfl, rfl, rfl, rfl, rfl, rfl, rfl, rfl, rfl, rfl, rfl, rfl, rfl, rfl, rfl, rfl, rfl, rfl⟩

@[simp] theorem State.setFld_fields (s : State) (b : Blk) (f : Field) (v : Nat) :
    (s.setFld b f v).pending = s.pending ∧ (s.setFld b f v).free = s.free ∧ (s.setFld b f v).time = s.time ∧
    (s.setFld b f v).regs = { s.regs with cfg := Tab.put s.regs.cfg (regKey b f) (v % 2 ^ f.width) } ∧ (s.setFld b f v).log = s.log ∧
    (s.setFld b f v).power = s.power ∧ (s.setFld b f v).heads = s.heads ∧ (s.setFld b f v).bays = s.bays ∧ (s.setFld b f v).sleds = s.sleds ∧
    (s.setFld b f v).sas = s.sas ∧ (s.setFld b f v).trans = s.trans ∧ (s.setFld b f v).encs = s.encs ∧
    (s.setFld b f v).runoutStore = s.runoutStore ∧ (s.setFld b f v).loadedDiscs = s.loadedDiscs ∧ (s.setFld b f v).trims = s.trims ∧
    (s.setFld b f v).beams = s.beams ∧ (s.setFld b f v).replay = s.replay ∧ (s.setFld b f v).wrs = s.wrs ∧ (s.setFld b f v).extents = s.extents ∧
    (s.setFld b f v).nextKey = s.nextKey ∧ (s.setFld b f v).seqNext = s.seqNext ∧ (s.setFld b f v).seqEnd = s.seqEnd ∧
    (s.setFld b f v).decoders = s.decoders ∧ (s.setFld b f v).codewords = s.codewords ∧ (s.setFld b f v).nextCw = s.nextCw ∧
    (s.setFld b f v).sweeps = s.sweeps ∧ (s.setFld b f v).mounts = s.mounts ∧ (s.setFld b f v).map = s.map ∧
    (s.setFld b f v).discStore = s.discStore ∧ (s.setFld b f v).host = s.host ∧ (s.setFld b f v).funcs = s.funcs ∧ (s.setFld b f v).sqs = s.sqs ∧
    (s.setFld b f v).cqs = s.cqs ∧ (s.setFld b f v).lines = s.lines ∧ (s.setFld b f v).cmds = s.cmds ∧ (s.setFld b f v).nextCmd = s.nextCmd ∧
    (s.setFld b f v).arb = s.arb ∧ (s.setFld b f v).selfTest = s.selfTest ∧ (s.setFld b f v).bufs = s.bufs ∧
    (s.setFld b f v).poolWaits = s.poolWaits ∧ (s.setFld b f v).quotas = s.quotas ∧ (s.setFld b f v).cache = s.cache ∧
    (s.setFld b f v).dram = s.dram ∧ (s.setFld b f v).drams = s.drams ∧ (s.setFld b f v).ceTable = s.ceTable ∧ (s.setFld b f v).marks = s.marks ∧
    (s.setFld b f v).devErrs = s.devErrs ∧ (s.setFld b f v).sramPos = s.sramPos ∧ (s.setFld b f v).srams = s.srams ∧
    (s.setFld b f v).cipher = s.cipher ∧ (s.setFld b f v).slots = s.slots ∧ (s.setFld b f v).nss = s.nss ∧ (s.setFld b f v).chain = s.chain ∧
    (s.setFld b f v).calib = s.calib ∧ (s.setFld b f v).nv = s.nv ∧ (s.setFld b f v).mgmt = s.mgmt ∧ (s.setFld b f v).meter = s.meter ∧
    (s.setFld b f v).resHist = s.resHist ∧ (s.setFld b f v).msix = s.msix ∧ (s.setFld b f v).msixFns = s.msixFns ∧
    (s.setFld b f v).minimal = s.minimal ∧ (s.setFld b f v).out = s.out :=
  ⟨rfl, rfl, rfl, rfl, rfl, rfl, rfl, rfl, rfl, rfl, rfl, rfl, rfl, rfl, rfl, rfl, rfl, rfl, rfl, rfl, rfl, rfl, rfl, rfl, rfl, rfl, rfl, rfl, rfl, rfl, rfl, rfl, rfl, rfl, rfl, rfl, rfl, rfl, rfl, rfl, rfl, rfl, rfl, rfl, rfl, rfl, rfl, rfl, rfl, rfl, rfl, rfl, rfl, rfl, rfl, rfl, rfl, rfl, rfl, rfl, rfl, rfl⟩

@[simp] theorem State.setAct_fields (s : State) (b : Blk) (f : Field) (v : Nat) :
    (s.setAct b f v).pending = s.pending ∧ (s.setAct b f v).free = s.free ∧ (s.setAct b f v).time = s.time ∧
    (s.setAct b f v).regs = { s.regs with act := Tab.put s.regs.act (regKey b f) (v % 2 ^ f.width) } ∧ (s.setAct b f v).log = s.log ∧
    (s.setAct b f v).power = s.power ∧ (s.setAct b f v).heads = s.heads ∧ (s.setAct b f v).bays = s.bays ∧ (s.setAct b f v).sleds = s.sleds ∧
    (s.setAct b f v).sas = s.sas ∧ (s.setAct b f v).trans = s.trans ∧ (s.setAct b f v).encs = s.encs ∧
    (s.setAct b f v).runoutStore = s.runoutStore ∧ (s.setAct b f v).loadedDiscs = s.loadedDiscs ∧ (s.setAct b f v).trims = s.trims ∧
    (s.setAct b f v).beams = s.beams ∧ (s.setAct b f v).replay = s.replay ∧ (s.setAct b f v).wrs = s.wrs ∧ (s.setAct b f v).extents = s.extents ∧
    (s.setAct b f v).nextKey = s.nextKey ∧ (s.setAct b f v).seqNext = s.seqNext ∧ (s.setAct b f v).seqEnd = s.seqEnd ∧
    (s.setAct b f v).decoders = s.decoders ∧ (s.setAct b f v).codewords = s.codewords ∧ (s.setAct b f v).nextCw = s.nextCw ∧
    (s.setAct b f v).sweeps = s.sweeps ∧ (s.setAct b f v).mounts = s.mounts ∧ (s.setAct b f v).map = s.map ∧
    (s.setAct b f v).discStore = s.discStore ∧ (s.setAct b f v).host = s.host ∧ (s.setAct b f v).funcs = s.funcs ∧ (s.setAct b f v).sqs = s.sqs ∧
    (s.setAct b f v).cqs = s.cqs ∧ (s.setAct b f v).lines = s.lines ∧ (s.setAct b f v).cmds = s.cmds ∧ (s.setAct b f v).nextCmd = s.nextCmd ∧
    (s.setAct b f v).arb = s.arb ∧ (s.setAct b f v).selfTest = s.selfTest ∧ (s.setAct b f v).bufs = s.bufs ∧
    (s.setAct b f v).poolWaits = s.poolWaits ∧ (s.setAct b f v).quotas = s.quotas ∧ (s.setAct b f v).cache = s.cache ∧
    (s.setAct b f v).dram = s.dram ∧ (s.setAct b f v).drams = s.drams ∧ (s.setAct b f v).ceTable = s.ceTable ∧ (s.setAct b f v).marks = s.marks ∧
    (s.setAct b f v).devErrs = s.devErrs ∧ (s.setAct b f v).sramPos = s.sramPos ∧ (s.setAct b f v).srams = s.srams ∧
    (s.setAct b f v).cipher = s.cipher ∧ (s.setAct b f v).slots = s.slots ∧ (s.setAct b f v).nss = s.nss ∧ (s.setAct b f v).chain = s.chain ∧
    (s.setAct b f v).calib = s.calib ∧ (s.setAct b f v).nv = s.nv ∧ (s.setAct b f v).mgmt = s.mgmt ∧ (s.setAct b f v).meter = s.meter ∧
    (s.setAct b f v).resHist = s.resHist ∧ (s.setAct b f v).msix = s.msix ∧ (s.setAct b f v).msixFns = s.msixFns ∧
    (s.setAct b f v).minimal = s.minimal ∧ (s.setAct b f v).out = s.out :=
  ⟨rfl, rfl, rfl, rfl, rfl, rfl, rfl, rfl, rfl, rfl, rfl, rfl, rfl, rfl, rfl, rfl, rfl, rfl, rfl, rfl, rfl, rfl, rfl, rfl, rfl, rfl, rfl, rfl, rfl, rfl, rfl, rfl, rfl, rfl, rfl, rfl, rfl, rfl, rfl, rfl, rfl, rfl, rfl, rfl, rfl, rfl, rfl, rfl, rfl, rfl, rfl, rfl, rfl, rfl, rfl, rfl, rfl, rfl, rfl, rfl, rfl, rfl⟩

@[simp] theorem State.setSta_fields (s : State) (b : Blk) (f : Field) (v : Nat) :
    (s.setSta b f v).pending = s.pending ∧ (s.setSta b f v).free = s.free ∧ (s.setSta b f v).time = s.time ∧
    (s.setSta b f v).regs = { s.regs with sts := Tab.put s.regs.sts (regKey b f) (v % 2 ^ f.width) } ∧ (s.setSta b f v).log = s.log ∧
    (s.setSta b f v).power = s.power ∧ (s.setSta b f v).heads = s.heads ∧ (s.setSta b f v).bays = s.bays ∧ (s.setSta b f v).sleds = s.sleds ∧
    (s.setSta b f v).sas = s.sas ∧ (s.setSta b f v).trans = s.trans ∧ (s.setSta b f v).encs = s.encs ∧
    (s.setSta b f v).runoutStore = s.runoutStore ∧ (s.setSta b f v).loadedDiscs = s.loadedDiscs ∧ (s.setSta b f v).trims = s.trims ∧
    (s.setSta b f v).beams = s.beams ∧ (s.setSta b f v).replay = s.replay ∧ (s.setSta b f v).wrs = s.wrs ∧ (s.setSta b f v).extents = s.extents ∧
    (s.setSta b f v).nextKey = s.nextKey ∧ (s.setSta b f v).seqNext = s.seqNext ∧ (s.setSta b f v).seqEnd = s.seqEnd ∧
    (s.setSta b f v).decoders = s.decoders ∧ (s.setSta b f v).codewords = s.codewords ∧ (s.setSta b f v).nextCw = s.nextCw ∧
    (s.setSta b f v).sweeps = s.sweeps ∧ (s.setSta b f v).mounts = s.mounts ∧ (s.setSta b f v).map = s.map ∧
    (s.setSta b f v).discStore = s.discStore ∧ (s.setSta b f v).host = s.host ∧ (s.setSta b f v).funcs = s.funcs ∧ (s.setSta b f v).sqs = s.sqs ∧
    (s.setSta b f v).cqs = s.cqs ∧ (s.setSta b f v).lines = s.lines ∧ (s.setSta b f v).cmds = s.cmds ∧ (s.setSta b f v).nextCmd = s.nextCmd ∧
    (s.setSta b f v).arb = s.arb ∧ (s.setSta b f v).selfTest = s.selfTest ∧ (s.setSta b f v).bufs = s.bufs ∧
    (s.setSta b f v).poolWaits = s.poolWaits ∧ (s.setSta b f v).quotas = s.quotas ∧ (s.setSta b f v).cache = s.cache ∧
    (s.setSta b f v).dram = s.dram ∧ (s.setSta b f v).drams = s.drams ∧ (s.setSta b f v).ceTable = s.ceTable ∧ (s.setSta b f v).marks = s.marks ∧
    (s.setSta b f v).devErrs = s.devErrs ∧ (s.setSta b f v).sramPos = s.sramPos ∧ (s.setSta b f v).srams = s.srams ∧
    (s.setSta b f v).cipher = s.cipher ∧ (s.setSta b f v).slots = s.slots ∧ (s.setSta b f v).nss = s.nss ∧ (s.setSta b f v).chain = s.chain ∧
    (s.setSta b f v).calib = s.calib ∧ (s.setSta b f v).nv = s.nv ∧ (s.setSta b f v).mgmt = s.mgmt ∧ (s.setSta b f v).meter = s.meter ∧
    (s.setSta b f v).resHist = s.resHist ∧ (s.setSta b f v).msix = s.msix ∧ (s.setSta b f v).msixFns = s.msixFns ∧
    (s.setSta b f v).minimal = s.minimal ∧ (s.setSta b f v).out = s.out :=
  ⟨rfl, rfl, rfl, rfl, rfl, rfl, rfl, rfl, rfl, rfl, rfl, rfl, rfl, rfl, rfl, rfl, rfl, rfl, rfl, rfl, rfl, rfl, rfl, rfl, rfl, rfl, rfl, rfl, rfl, rfl, rfl, rfl, rfl, rfl, rfl, rfl, rfl, rfl, rfl, rfl, rfl, rfl, rfl, rfl, rfl, rfl, rfl, rfl, rfl, rfl, rfl, rfl, rfl, rfl, rfl, rfl, rfl, rfl, rfl, rfl, rfl, rfl⟩

@[simp] theorem State.setMsix_fields (s : State) (f : FuncId) (v : Nat) (e : MsixEntry) :
    (s.setMsix f v e).pending = s.pending ∧ (s.setMsix f v e).free = s.free ∧ (s.setMsix f v e).time = s.time ∧ (s.setMsix f v e).regs = s.regs ∧
    (s.setMsix f v e).log = s.log ∧ (s.setMsix f v e).power = s.power ∧ (s.setMsix f v e).heads = s.heads ∧ (s.setMsix f v e).bays = s.bays ∧
    (s.setMsix f v e).sleds = s.sleds ∧ (s.setMsix f v e).sas = s.sas ∧ (s.setMsix f v e).trans = s.trans ∧ (s.setMsix f v e).encs = s.encs ∧
    (s.setMsix f v e).runoutStore = s.runoutStore ∧ (s.setMsix f v e).loadedDiscs = s.loadedDiscs ∧ (s.setMsix f v e).trims = s.trims ∧
    (s.setMsix f v e).beams = s.beams ∧ (s.setMsix f v e).replay = s.replay ∧ (s.setMsix f v e).wrs = s.wrs ∧
    (s.setMsix f v e).extents = s.extents ∧ (s.setMsix f v e).nextKey = s.nextKey ∧ (s.setMsix f v e).seqNext = s.seqNext ∧
    (s.setMsix f v e).seqEnd = s.seqEnd ∧ (s.setMsix f v e).decoders = s.decoders ∧ (s.setMsix f v e).codewords = s.codewords ∧
    (s.setMsix f v e).nextCw = s.nextCw ∧ (s.setMsix f v e).sweeps = s.sweeps ∧ (s.setMsix f v e).mounts = s.mounts ∧
    (s.setMsix f v e).map = s.map ∧ (s.setMsix f v e).discStore = s.discStore ∧ (s.setMsix f v e).host = s.host ∧
    (s.setMsix f v e).funcs = s.funcs ∧ (s.setMsix f v e).sqs = s.sqs ∧ (s.setMsix f v e).cqs = s.cqs ∧ (s.setMsix f v e).lines = s.lines ∧
    (s.setMsix f v e).cmds = s.cmds ∧ (s.setMsix f v e).nextCmd = s.nextCmd ∧ (s.setMsix f v e).arb = s.arb ∧
    (s.setMsix f v e).selfTest = s.selfTest ∧ (s.setMsix f v e).bufs = s.bufs ∧ (s.setMsix f v e).poolWaits = s.poolWaits ∧
    (s.setMsix f v e).quotas = s.quotas ∧ (s.setMsix f v e).cache = s.cache ∧ (s.setMsix f v e).dram = s.dram ∧ (s.setMsix f v e).drams = s.drams ∧
    (s.setMsix f v e).ceTable = s.ceTable ∧ (s.setMsix f v e).marks = s.marks ∧ (s.setMsix f v e).devErrs = s.devErrs ∧
    (s.setMsix f v e).sramPos = s.sramPos ∧ (s.setMsix f v e).srams = s.srams ∧ (s.setMsix f v e).cipher = s.cipher ∧
    (s.setMsix f v e).slots = s.slots ∧ (s.setMsix f v e).nss = s.nss ∧ (s.setMsix f v e).chain = s.chain ∧ (s.setMsix f v e).calib = s.calib ∧
    (s.setMsix f v e).nv = s.nv ∧ (s.setMsix f v e).mgmt = s.mgmt ∧ (s.setMsix f v e).meter = s.meter ∧ (s.setMsix f v e).resHist = s.resHist ∧
    (s.setMsix f v e).msix = Tab.set MsixEntry.reset s.msix (2048 * f.val + v) e ∧ (s.setMsix f v e).msixFns = s.msixFns ∧
    (s.setMsix f v e).minimal = s.minimal ∧ (s.setMsix f v e).out = s.out :=
  ⟨rfl, rfl, rfl, rfl, rfl, rfl, rfl, rfl, rfl, rfl, rfl, rfl, rfl, rfl, rfl, rfl, rfl, rfl, rfl, rfl, rfl, rfl, rfl, rfl, rfl, rfl, rfl, rfl, rfl, rfl, rfl, rfl, rfl, rfl, rfl, rfl, rfl, rfl, rfl, rfl, rfl, rfl, rfl, rfl, rfl, rfl, rfl, rfl, rfl, rfl, rfl, rfl, rfl, rfl, rfl, rfl, rfl, rfl, rfl, rfl, rfl, rfl⟩

@[simp] theorem State.emit_fields (s : State) (o : Output) :
    (s.emit o).pending = s.pending ∧ (s.emit o).free = s.free ∧ (s.emit o).time = s.time ∧ (s.emit o).regs = s.regs ∧ (s.emit o).log = s.log ∧
    (s.emit o).power = s.power ∧ (s.emit o).heads = s.heads ∧ (s.emit o).bays = s.bays ∧ (s.emit o).sleds = s.sleds ∧ (s.emit o).sas = s.sas ∧
    (s.emit o).trans = s.trans ∧ (s.emit o).encs = s.encs ∧ (s.emit o).runoutStore = s.runoutStore ∧ (s.emit o).loadedDiscs = s.loadedDiscs ∧
    (s.emit o).trims = s.trims ∧ (s.emit o).beams = s.beams ∧ (s.emit o).replay = s.replay ∧ (s.emit o).wrs = s.wrs ∧
    (s.emit o).extents = s.extents ∧ (s.emit o).nextKey = s.nextKey ∧ (s.emit o).seqNext = s.seqNext ∧ (s.emit o).seqEnd = s.seqEnd ∧
    (s.emit o).decoders = s.decoders ∧ (s.emit o).codewords = s.codewords ∧ (s.emit o).nextCw = s.nextCw ∧ (s.emit o).sweeps = s.sweeps ∧
    (s.emit o).mounts = s.mounts ∧ (s.emit o).map = s.map ∧ (s.emit o).discStore = s.discStore ∧ (s.emit o).host = s.host ∧
    (s.emit o).funcs = s.funcs ∧ (s.emit o).sqs = s.sqs ∧ (s.emit o).cqs = s.cqs ∧ (s.emit o).lines = s.lines ∧ (s.emit o).cmds = s.cmds ∧
    (s.emit o).nextCmd = s.nextCmd ∧ (s.emit o).arb = s.arb ∧ (s.emit o).selfTest = s.selfTest ∧ (s.emit o).bufs = s.bufs ∧
    (s.emit o).poolWaits = s.poolWaits ∧ (s.emit o).quotas = s.quotas ∧ (s.emit o).cache = s.cache ∧ (s.emit o).dram = s.dram ∧
    (s.emit o).drams = s.drams ∧ (s.emit o).ceTable = s.ceTable ∧ (s.emit o).marks = s.marks ∧ (s.emit o).devErrs = s.devErrs ∧
    (s.emit o).sramPos = s.sramPos ∧ (s.emit o).srams = s.srams ∧ (s.emit o).cipher = s.cipher ∧ (s.emit o).slots = s.slots ∧
    (s.emit o).nss = s.nss ∧ (s.emit o).chain = s.chain ∧ (s.emit o).calib = s.calib ∧ (s.emit o).nv = s.nv ∧ (s.emit o).mgmt = s.mgmt ∧
    (s.emit o).meter = s.meter ∧ (s.emit o).resHist = s.resHist ∧ (s.emit o).msix = s.msix ∧ (s.emit o).msixFns = s.msixFns ∧
    (s.emit o).minimal = s.minimal ∧ (s.emit o).out = o :: s.out :=
  ⟨rfl, rfl, rfl, rfl, rfl, rfl, rfl, rfl, rfl, rfl, rfl, rfl, rfl, rfl, rfl, rfl, rfl, rfl, rfl, rfl, rfl, rfl, rfl, rfl, rfl, rfl, rfl, rfl, rfl, rfl, rfl, rfl, rfl, rfl, rfl, rfl, rfl, rfl, rfl, rfl, rfl, rfl, rfl, rfl, rfl, rfl, rfl, rfl, rfl, rfl, rfl, rfl, rfl, rfl, rfl, rfl, rfl, rfl, rfl, rfl, rfl, rfl⟩

@[simp] theorem State.modFunc_fields (s : State) (f : FuncId) (g : Func → Func) :
    (s.modFunc f g).pending = s.pending ∧ (s.modFunc f g).free = s.free ∧ (s.modFunc f g).time = s.time ∧ (s.modFunc f g).regs = s.regs ∧
    (s.modFunc f g).log = s.log ∧ (s.modFunc f g).power = s.power ∧ (s.modFunc f g).heads = s.heads ∧ (s.modFunc f g).bays = s.bays ∧
    (s.modFunc f g).sleds = s.sleds ∧ (s.modFunc f g).sas = s.sas ∧ (s.modFunc f g).trans = s.trans ∧ (s.modFunc f g).encs = s.encs ∧
    (s.modFunc f g).runoutStore = s.runoutStore ∧ (s.modFunc f g).loadedDiscs = s.loadedDiscs ∧ (s.modFunc f g).trims = s.trims ∧
    (s.modFunc f g).beams = s.beams ∧ (s.modFunc f g).replay = s.replay ∧ (s.modFunc f g).wrs = s.wrs ∧ (s.modFunc f g).extents = s.extents ∧
    (s.modFunc f g).nextKey = s.nextKey ∧ (s.modFunc f g).seqNext = s.seqNext ∧ (s.modFunc f g).seqEnd = s.seqEnd ∧
    (s.modFunc f g).decoders = s.decoders ∧ (s.modFunc f g).codewords = s.codewords ∧ (s.modFunc f g).nextCw = s.nextCw ∧
    (s.modFunc f g).sweeps = s.sweeps ∧ (s.modFunc f g).mounts = s.mounts ∧ (s.modFunc f g).map = s.map ∧ (s.modFunc f g).discStore = s.discStore ∧
    (s.modFunc f g).host = s.host ∧ (s.modFunc f g).funcs = Tab.put s.funcs f.val (g (s.func f)) ∧ (s.modFunc f g).sqs = s.sqs ∧
    (s.modFunc f g).cqs = s.cqs ∧ (s.modFunc f g).lines = s.lines ∧ (s.modFunc f g).cmds = s.cmds ∧ (s.modFunc f g).nextCmd = s.nextCmd ∧
    (s.modFunc f g).arb = s.arb ∧ (s.modFunc f g).selfTest = s.selfTest ∧ (s.modFunc f g).bufs = s.bufs ∧ (s.modFunc f g).poolWaits = s.poolWaits ∧
    (s.modFunc f g).quotas = s.quotas ∧ (s.modFunc f g).cache = s.cache ∧ (s.modFunc f g).dram = s.dram ∧ (s.modFunc f g).drams = s.drams ∧
    (s.modFunc f g).ceTable = s.ceTable ∧ (s.modFunc f g).marks = s.marks ∧ (s.modFunc f g).devErrs = s.devErrs ∧
    (s.modFunc f g).sramPos = s.sramPos ∧ (s.modFunc f g).srams = s.srams ∧ (s.modFunc f g).cipher = s.cipher ∧ (s.modFunc f g).slots = s.slots ∧
    (s.modFunc f g).nss = s.nss ∧ (s.modFunc f g).chain = s.chain ∧ (s.modFunc f g).calib = s.calib ∧ (s.modFunc f g).nv = s.nv ∧
    (s.modFunc f g).mgmt = s.mgmt ∧ (s.modFunc f g).meter = s.meter ∧ (s.modFunc f g).resHist = s.resHist ∧ (s.modFunc f g).msix = s.msix ∧
    (s.modFunc f g).msixFns = s.msixFns ∧ (s.modFunc f g).minimal = s.minimal ∧ (s.modFunc f g).out = s.out :=
  ⟨rfl, rfl, rfl, rfl, rfl, rfl, rfl, rfl, rfl, rfl, rfl, rfl, rfl, rfl, rfl, rfl, rfl, rfl, rfl, rfl, rfl, rfl, rfl, rfl, rfl, rfl, rfl, rfl, rfl, rfl, rfl, rfl, rfl, rfl, rfl, rfl, rfl, rfl, rfl, rfl, rfl, rfl, rfl, rfl, rfl, rfl, rfl, rfl, rfl, rfl, rfl, rfl, rfl, rfl, rfl, rfl, rfl, rfl, rfl, rfl, rfl, rfl⟩

@[simp] theorem State.modSq_fields (s : State) (f : FuncId) (q : Nat) (g : Sq → Sq) :
    (s.modSq f q g).pending = s.pending ∧ (s.modSq f q g).free = s.free ∧ (s.modSq f q g).time = s.time ∧ (s.modSq f q g).regs = s.regs ∧
    (s.modSq f q g).log = s.log ∧ (s.modSq f q g).power = s.power ∧ (s.modSq f q g).heads = s.heads ∧ (s.modSq f q g).bays = s.bays ∧
    (s.modSq f q g).sleds = s.sleds ∧ (s.modSq f q g).sas = s.sas ∧ (s.modSq f q g).trans = s.trans ∧ (s.modSq f q g).encs = s.encs ∧
    (s.modSq f q g).runoutStore = s.runoutStore ∧ (s.modSq f q g).loadedDiscs = s.loadedDiscs ∧ (s.modSq f q g).trims = s.trims ∧
    (s.modSq f q g).beams = s.beams ∧ (s.modSq f q g).replay = s.replay ∧ (s.modSq f q g).wrs = s.wrs ∧ (s.modSq f q g).extents = s.extents ∧
    (s.modSq f q g).nextKey = s.nextKey ∧ (s.modSq f q g).seqNext = s.seqNext ∧ (s.modSq f q g).seqEnd = s.seqEnd ∧
    (s.modSq f q g).decoders = s.decoders ∧ (s.modSq f q g).codewords = s.codewords ∧ (s.modSq f q g).nextCw = s.nextCw ∧
    (s.modSq f q g).sweeps = s.sweeps ∧ (s.modSq f q g).mounts = s.mounts ∧ (s.modSq f q g).map = s.map ∧ (s.modSq f q g).discStore = s.discStore ∧
    (s.modSq f q g).host = s.host ∧ (s.modSq f q g).funcs = s.funcs ∧
    (s.modSq f q g).sqs = s.sqs.map (fun x => if x.f = f ∧ x.q = q then g x else x) ∧ (s.modSq f q g).cqs = s.cqs ∧
    (s.modSq f q g).lines = s.lines ∧ (s.modSq f q g).cmds = s.cmds ∧ (s.modSq f q g).nextCmd = s.nextCmd ∧ (s.modSq f q g).arb = s.arb ∧
    (s.modSq f q g).selfTest = s.selfTest ∧ (s.modSq f q g).bufs = s.bufs ∧ (s.modSq f q g).poolWaits = s.poolWaits ∧
    (s.modSq f q g).quotas = s.quotas ∧ (s.modSq f q g).cache = s.cache ∧ (s.modSq f q g).dram = s.dram ∧ (s.modSq f q g).drams = s.drams ∧
    (s.modSq f q g).ceTable = s.ceTable ∧ (s.modSq f q g).marks = s.marks ∧ (s.modSq f q g).devErrs = s.devErrs ∧
    (s.modSq f q g).sramPos = s.sramPos ∧ (s.modSq f q g).srams = s.srams ∧ (s.modSq f q g).cipher = s.cipher ∧ (s.modSq f q g).slots = s.slots ∧
    (s.modSq f q g).nss = s.nss ∧ (s.modSq f q g).chain = s.chain ∧ (s.modSq f q g).calib = s.calib ∧ (s.modSq f q g).nv = s.nv ∧
    (s.modSq f q g).mgmt = s.mgmt ∧ (s.modSq f q g).meter = s.meter ∧ (s.modSq f q g).resHist = s.resHist ∧ (s.modSq f q g).msix = s.msix ∧
    (s.modSq f q g).msixFns = s.msixFns ∧ (s.modSq f q g).minimal = s.minimal ∧ (s.modSq f q g).out = s.out :=
  ⟨rfl, rfl, rfl, rfl, rfl, rfl, rfl, rfl, rfl, rfl, rfl, rfl, rfl, rfl, rfl, rfl, rfl, rfl, rfl, rfl, rfl, rfl, rfl, rfl, rfl, rfl, rfl, rfl, rfl, rfl, rfl, rfl, rfl, rfl, rfl, rfl, rfl, rfl, rfl, rfl, rfl, rfl, rfl, rfl, rfl, rfl, rfl, rfl, rfl, rfl, rfl, rfl, rfl, rfl, rfl, rfl, rfl, rfl, rfl, rfl, rfl, rfl⟩

@[simp] theorem State.modCq_fields (s : State) (f : FuncId) (q : Nat) (g : Cq → Cq) :
    (s.modCq f q g).pending = s.pending ∧ (s.modCq f q g).free = s.free ∧ (s.modCq f q g).time = s.time ∧ (s.modCq f q g).regs = s.regs ∧
    (s.modCq f q g).log = s.log ∧ (s.modCq f q g).power = s.power ∧ (s.modCq f q g).heads = s.heads ∧ (s.modCq f q g).bays = s.bays ∧
    (s.modCq f q g).sleds = s.sleds ∧ (s.modCq f q g).sas = s.sas ∧ (s.modCq f q g).trans = s.trans ∧ (s.modCq f q g).encs = s.encs ∧
    (s.modCq f q g).runoutStore = s.runoutStore ∧ (s.modCq f q g).loadedDiscs = s.loadedDiscs ∧ (s.modCq f q g).trims = s.trims ∧
    (s.modCq f q g).beams = s.beams ∧ (s.modCq f q g).replay = s.replay ∧ (s.modCq f q g).wrs = s.wrs ∧ (s.modCq f q g).extents = s.extents ∧
    (s.modCq f q g).nextKey = s.nextKey ∧ (s.modCq f q g).seqNext = s.seqNext ∧ (s.modCq f q g).seqEnd = s.seqEnd ∧
    (s.modCq f q g).decoders = s.decoders ∧ (s.modCq f q g).codewords = s.codewords ∧ (s.modCq f q g).nextCw = s.nextCw ∧
    (s.modCq f q g).sweeps = s.sweeps ∧ (s.modCq f q g).mounts = s.mounts ∧ (s.modCq f q g).map = s.map ∧ (s.modCq f q g).discStore = s.discStore ∧
    (s.modCq f q g).host = s.host ∧ (s.modCq f q g).funcs = s.funcs ∧ (s.modCq f q g).sqs = s.sqs ∧
    (s.modCq f q g).cqs = s.cqs.map (fun x => if x.f = f ∧ x.q = q then g x else x) ∧ (s.modCq f q g).lines = s.lines ∧
    (s.modCq f q g).cmds = s.cmds ∧ (s.modCq f q g).nextCmd = s.nextCmd ∧ (s.modCq f q g).arb = s.arb ∧ (s.modCq f q g).selfTest = s.selfTest ∧
    (s.modCq f q g).bufs = s.bufs ∧ (s.modCq f q g).poolWaits = s.poolWaits ∧ (s.modCq f q g).quotas = s.quotas ∧ (s.modCq f q g).cache = s.cache ∧
    (s.modCq f q g).dram = s.dram ∧ (s.modCq f q g).drams = s.drams ∧ (s.modCq f q g).ceTable = s.ceTable ∧ (s.modCq f q g).marks = s.marks ∧
    (s.modCq f q g).devErrs = s.devErrs ∧ (s.modCq f q g).sramPos = s.sramPos ∧ (s.modCq f q g).srams = s.srams ∧
    (s.modCq f q g).cipher = s.cipher ∧ (s.modCq f q g).slots = s.slots ∧ (s.modCq f q g).nss = s.nss ∧ (s.modCq f q g).chain = s.chain ∧
    (s.modCq f q g).calib = s.calib ∧ (s.modCq f q g).nv = s.nv ∧ (s.modCq f q g).mgmt = s.mgmt ∧ (s.modCq f q g).meter = s.meter ∧
    (s.modCq f q g).resHist = s.resHist ∧ (s.modCq f q g).msix = s.msix ∧ (s.modCq f q g).msixFns = s.msixFns ∧
    (s.modCq f q g).minimal = s.minimal ∧ (s.modCq f q g).out = s.out :=
  ⟨rfl, rfl, rfl, rfl, rfl, rfl, rfl, rfl, rfl, rfl, rfl, rfl, rfl, rfl, rfl, rfl, rfl, rfl, rfl, rfl, rfl, rfl, rfl, rfl, rfl, rfl, rfl, rfl, rfl, rfl, rfl, rfl, rfl, rfl, rfl, rfl, rfl, rfl, rfl, rfl, rfl, rfl, rfl, rfl, rfl, rfl, rfl, rfl, rfl, rfl, rfl, rfl, rfl, rfl, rfl, rfl, rfl, rfl, rfl, rfl, rfl, rfl⟩

@[simp] theorem State.modNv_fields (s : State) (f : Nv → Nv) :
    (s.modNv f).pending = s.pending ∧ (s.modNv f).free = s.free ∧ (s.modNv f).time = s.time ∧ (s.modNv f).regs = s.regs ∧ (s.modNv f).log = s.log ∧
    (s.modNv f).power = s.power ∧ (s.modNv f).heads = s.heads ∧ (s.modNv f).bays = s.bays ∧ (s.modNv f).sleds = s.sleds ∧ (s.modNv f).sas = s.sas ∧
    (s.modNv f).trans = s.trans ∧ (s.modNv f).encs = s.encs ∧ (s.modNv f).runoutStore = s.runoutStore ∧ (s.modNv f).loadedDiscs = s.loadedDiscs ∧
    (s.modNv f).trims = s.trims ∧ (s.modNv f).beams = s.beams ∧ (s.modNv f).replay = s.replay ∧ (s.modNv f).wrs = s.wrs ∧
    (s.modNv f).extents = s.extents ∧ (s.modNv f).nextKey = s.nextKey ∧ (s.modNv f).seqNext = s.seqNext ∧ (s.modNv f).seqEnd = s.seqEnd ∧
    (s.modNv f).decoders = s.decoders ∧ (s.modNv f).codewords = s.codewords ∧ (s.modNv f).nextCw = s.nextCw ∧ (s.modNv f).sweeps = s.sweeps ∧
    (s.modNv f).mounts = s.mounts ∧ (s.modNv f).map = s.map ∧ (s.modNv f).discStore = s.discStore ∧ (s.modNv f).host = s.host ∧
    (s.modNv f).funcs = s.funcs ∧ (s.modNv f).sqs = s.sqs ∧ (s.modNv f).cqs = s.cqs ∧ (s.modNv f).lines = s.lines ∧ (s.modNv f).cmds = s.cmds ∧
    (s.modNv f).nextCmd = s.nextCmd ∧ (s.modNv f).arb = s.arb ∧ (s.modNv f).selfTest = s.selfTest ∧ (s.modNv f).bufs = s.bufs ∧
    (s.modNv f).poolWaits = s.poolWaits ∧ (s.modNv f).quotas = s.quotas ∧ (s.modNv f).cache = s.cache ∧ (s.modNv f).dram = s.dram ∧
    (s.modNv f).drams = s.drams ∧ (s.modNv f).ceTable = s.ceTable ∧ (s.modNv f).marks = s.marks ∧ (s.modNv f).devErrs = s.devErrs ∧
    (s.modNv f).sramPos = s.sramPos ∧ (s.modNv f).srams = s.srams ∧ (s.modNv f).cipher = s.cipher ∧ (s.modNv f).slots = s.slots ∧
    (s.modNv f).nss = s.nss ∧ (s.modNv f).chain = s.chain ∧ (s.modNv f).calib = s.calib ∧ (s.modNv f).nv = f s.nv ∧ (s.modNv f).mgmt = s.mgmt ∧
    (s.modNv f).meter = s.meter ∧ (s.modNv f).resHist = s.resHist ∧ (s.modNv f).msix = s.msix ∧ (s.modNv f).msixFns = s.msixFns ∧
    (s.modNv f).minimal = s.minimal ∧ (s.modNv f).out = s.out :=
  ⟨rfl, rfl, rfl, rfl, rfl, rfl, rfl, rfl, rfl, rfl, rfl, rfl, rfl, rfl, rfl, rfl, rfl, rfl, rfl, rfl, rfl, rfl, rfl, rfl, rfl, rfl, rfl, rfl, rfl, rfl, rfl, rfl, rfl, rfl, rfl, rfl, rfl, rfl, rfl, rfl, rfl, rfl, rfl, rfl, rfl, rfl, rfl, rfl, rfl, rfl, rfl, rfl, rfl, rfl, rfl, rfl, rfl, rfl, rfl, rfl, rfl, rfl⟩

@[simp] theorem State.modDram_fields (s : State) (c : DramChan) (f : DramCh → DramCh) :
    (s.modDram c f).pending = s.pending ∧ (s.modDram c f).free = s.free ∧ (s.modDram c f).time = s.time ∧ (s.modDram c f).regs = s.regs ∧
    (s.modDram c f).log = s.log ∧ (s.modDram c f).power = s.power ∧ (s.modDram c f).heads = s.heads ∧ (s.modDram c f).bays = s.bays ∧
    (s.modDram c f).sleds = s.sleds ∧ (s.modDram c f).sas = s.sas ∧ (s.modDram c f).trans = s.trans ∧ (s.modDram c f).encs = s.encs ∧
    (s.modDram c f).runoutStore = s.runoutStore ∧ (s.modDram c f).loadedDiscs = s.loadedDiscs ∧ (s.modDram c f).trims = s.trims ∧
    (s.modDram c f).beams = s.beams ∧ (s.modDram c f).replay = s.replay ∧ (s.modDram c f).wrs = s.wrs ∧ (s.modDram c f).extents = s.extents ∧
    (s.modDram c f).nextKey = s.nextKey ∧ (s.modDram c f).seqNext = s.seqNext ∧ (s.modDram c f).seqEnd = s.seqEnd ∧
    (s.modDram c f).decoders = s.decoders ∧ (s.modDram c f).codewords = s.codewords ∧ (s.modDram c f).nextCw = s.nextCw ∧
    (s.modDram c f).sweeps = s.sweeps ∧ (s.modDram c f).mounts = s.mounts ∧ (s.modDram c f).map = s.map ∧ (s.modDram c f).discStore = s.discStore ∧
    (s.modDram c f).host = s.host ∧ (s.modDram c f).funcs = s.funcs ∧ (s.modDram c f).sqs = s.sqs ∧ (s.modDram c f).cqs = s.cqs ∧
    (s.modDram c f).lines = s.lines ∧ (s.modDram c f).cmds = s.cmds ∧ (s.modDram c f).nextCmd = s.nextCmd ∧ (s.modDram c f).arb = s.arb ∧
    (s.modDram c f).selfTest = s.selfTest ∧ (s.modDram c f).bufs = s.bufs ∧ (s.modDram c f).poolWaits = s.poolWaits ∧
    (s.modDram c f).quotas = s.quotas ∧ (s.modDram c f).cache = s.cache ∧ (s.modDram c f).dram = s.dram ∧
    (s.modDram c f).drams = vmod s.drams (chanIx c) f ∧ (s.modDram c f).ceTable = s.ceTable ∧ (s.modDram c f).marks = s.marks ∧
    (s.modDram c f).devErrs = s.devErrs ∧ (s.modDram c f).sramPos = s.sramPos ∧ (s.modDram c f).srams = s.srams ∧
    (s.modDram c f).cipher = s.cipher ∧ (s.modDram c f).slots = s.slots ∧ (s.modDram c f).nss = s.nss ∧ (s.modDram c f).chain = s.chain ∧
    (s.modDram c f).calib = s.calib ∧ (s.modDram c f).nv = s.nv ∧ (s.modDram c f).mgmt = s.mgmt ∧ (s.modDram c f).meter = s.meter ∧
    (s.modDram c f).resHist = s.resHist ∧ (s.modDram c f).msix = s.msix ∧ (s.modDram c f).msixFns = s.msixFns ∧
    (s.modDram c f).minimal = s.minimal ∧ (s.modDram c f).out = s.out :=
  ⟨rfl, rfl, rfl, rfl, rfl, rfl, rfl, rfl, rfl, rfl, rfl, rfl, rfl, rfl, rfl, rfl, rfl, rfl, rfl, rfl, rfl, rfl, rfl, rfl, rfl, rfl, rfl, rfl, rfl, rfl, rfl, rfl, rfl, rfl, rfl, rfl, rfl, rfl, rfl, rfl, rfl, rfl, rfl, rfl, rfl, rfl, rfl, rfl, rfl, rfl, rfl, rfl, rfl, rfl, rfl, rfl, rfl, rfl, rfl, rfl, rfl, rfl⟩

@[simp] theorem State.modCipher_fields (s : State) (f : Cipher → Cipher) :
    (s.modCipher f).pending = s.pending ∧ (s.modCipher f).free = s.free ∧ (s.modCipher f).time = s.time ∧ (s.modCipher f).regs = s.regs ∧
    (s.modCipher f).log = s.log ∧ (s.modCipher f).power = s.power ∧ (s.modCipher f).heads = s.heads ∧ (s.modCipher f).bays = s.bays ∧
    (s.modCipher f).sleds = s.sleds ∧ (s.modCipher f).sas = s.sas ∧ (s.modCipher f).trans = s.trans ∧ (s.modCipher f).encs = s.encs ∧
    (s.modCipher f).runoutStore = s.runoutStore ∧ (s.modCipher f).loadedDiscs = s.loadedDiscs ∧ (s.modCipher f).trims = s.trims ∧
    (s.modCipher f).beams = s.beams ∧ (s.modCipher f).replay = s.replay ∧ (s.modCipher f).wrs = s.wrs ∧ (s.modCipher f).extents = s.extents ∧
    (s.modCipher f).nextKey = s.nextKey ∧ (s.modCipher f).seqNext = s.seqNext ∧ (s.modCipher f).seqEnd = s.seqEnd ∧
    (s.modCipher f).decoders = s.decoders ∧ (s.modCipher f).codewords = s.codewords ∧ (s.modCipher f).nextCw = s.nextCw ∧
    (s.modCipher f).sweeps = s.sweeps ∧ (s.modCipher f).mounts = s.mounts ∧ (s.modCipher f).map = s.map ∧ (s.modCipher f).discStore = s.discStore ∧
    (s.modCipher f).host = s.host ∧ (s.modCipher f).funcs = s.funcs ∧ (s.modCipher f).sqs = s.sqs ∧ (s.modCipher f).cqs = s.cqs ∧
    (s.modCipher f).lines = s.lines ∧ (s.modCipher f).cmds = s.cmds ∧ (s.modCipher f).nextCmd = s.nextCmd ∧ (s.modCipher f).arb = s.arb ∧
    (s.modCipher f).selfTest = s.selfTest ∧ (s.modCipher f).bufs = s.bufs ∧ (s.modCipher f).poolWaits = s.poolWaits ∧
    (s.modCipher f).quotas = s.quotas ∧ (s.modCipher f).cache = s.cache ∧ (s.modCipher f).dram = s.dram ∧ (s.modCipher f).drams = s.drams ∧
    (s.modCipher f).ceTable = s.ceTable ∧ (s.modCipher f).marks = s.marks ∧ (s.modCipher f).devErrs = s.devErrs ∧
    (s.modCipher f).sramPos = s.sramPos ∧ (s.modCipher f).srams = s.srams ∧ (s.modCipher f).cipher = f s.cipher ∧ (s.modCipher f).slots = s.slots ∧
    (s.modCipher f).nss = s.nss ∧ (s.modCipher f).chain = s.chain ∧ (s.modCipher f).calib = s.calib ∧ (s.modCipher f).nv = s.nv ∧
    (s.modCipher f).mgmt = s.mgmt ∧ (s.modCipher f).meter = s.meter ∧ (s.modCipher f).resHist = s.resHist ∧ (s.modCipher f).msix = s.msix ∧
    (s.modCipher f).msixFns = s.msixFns ∧ (s.modCipher f).minimal = s.minimal ∧ (s.modCipher f).out = s.out :=
  ⟨rfl, rfl, rfl, rfl, rfl, rfl, rfl, rfl, rfl, rfl, rfl, rfl, rfl, rfl, rfl, rfl, rfl, rfl, rfl, rfl, rfl, rfl, rfl, rfl, rfl, rfl, rfl, rfl, rfl, rfl, rfl, rfl, rfl, rfl, rfl, rfl, rfl, rfl, rfl, rfl, rfl, rfl, rfl, rfl, rfl, rfl, rfl, rfl, rfl, rfl, rfl, rfl, rfl, rfl, rfl, rfl, rfl, rfl, rfl, rfl, rfl, rfl⟩

@[simp] theorem State.logWith_fields (s : State) (r : BitVec 16) (e : Ev) (d : List Nat) (v : Bool) :
    (s.logWith r e d v).pending = s.pending ∧ (s.logWith r e d v).free = s.free ∧ (s.logWith r e d v).time = s.time ∧
    (s.logWith r e d v).regs = s.regs ∧ (s.logWith r e d v).power = s.power ∧ (s.logWith r e d v).heads = s.heads ∧
    (s.logWith r e d v).bays = s.bays ∧ (s.logWith r e d v).sleds = s.sleds ∧ (s.logWith r e d v).sas = s.sas ∧
    (s.logWith r e d v).trans = s.trans ∧ (s.logWith r e d v).encs = s.encs ∧ (s.logWith r e d v).runoutStore = s.runoutStore ∧
    (s.logWith r e d v).loadedDiscs = s.loadedDiscs ∧ (s.logWith r e d v).trims = s.trims ∧ (s.logWith r e d v).beams = s.beams ∧
    (s.logWith r e d v).replay = s.replay ∧ (s.logWith r e d v).wrs = s.wrs ∧ (s.logWith r e d v).extents = s.extents ∧
    (s.logWith r e d v).nextKey = s.nextKey ∧ (s.logWith r e d v).seqNext = s.seqNext ∧ (s.logWith r e d v).seqEnd = s.seqEnd ∧
    (s.logWith r e d v).decoders = s.decoders ∧ (s.logWith r e d v).codewords = s.codewords ∧ (s.logWith r e d v).nextCw = s.nextCw ∧
    (s.logWith r e d v).sweeps = s.sweeps ∧ (s.logWith r e d v).mounts = s.mounts ∧ (s.logWith r e d v).map = s.map ∧
    (s.logWith r e d v).discStore = s.discStore ∧ (s.logWith r e d v).host = s.host ∧ (s.logWith r e d v).funcs = s.funcs ∧
    (s.logWith r e d v).sqs = s.sqs ∧ (s.logWith r e d v).cqs = s.cqs ∧ (s.logWith r e d v).lines = s.lines ∧ (s.logWith r e d v).cmds = s.cmds ∧
    (s.logWith r e d v).nextCmd = s.nextCmd ∧ (s.logWith r e d v).arb = s.arb ∧ (s.logWith r e d v).selfTest = s.selfTest ∧
    (s.logWith r e d v).bufs = s.bufs ∧ (s.logWith r e d v).poolWaits = s.poolWaits ∧ (s.logWith r e d v).quotas = s.quotas ∧
    (s.logWith r e d v).cache = s.cache ∧ (s.logWith r e d v).dram = s.dram ∧ (s.logWith r e d v).drams = s.drams ∧
    (s.logWith r e d v).ceTable = s.ceTable ∧ (s.logWith r e d v).marks = s.marks ∧ (s.logWith r e d v).devErrs = s.devErrs ∧
    (s.logWith r e d v).sramPos = s.sramPos ∧ (s.logWith r e d v).srams = s.srams ∧ (s.logWith r e d v).cipher = s.cipher ∧
    (s.logWith r e d v).slots = s.slots ∧ (s.logWith r e d v).nss = s.nss ∧ (s.logWith r e d v).chain = s.chain ∧
    (s.logWith r e d v).calib = s.calib ∧ (s.logWith r e d v).nv = s.nv ∧ (s.logWith r e d v).mgmt = s.mgmt ∧ (s.logWith r e d v).meter = s.meter ∧
    (s.logWith r e d v).resHist = s.resHist ∧ (s.logWith r e d v).msix = s.msix ∧ (s.logWith r e d v).msixFns = s.msixFns ∧
    (s.logWith r e d v).minimal = s.minimal ∧ (s.logWith r e d v).out = s.out :=
  ⟨rfl, rfl, rfl, rfl, rfl, rfl, rfl, rfl, rfl, rfl, rfl, rfl, rfl, rfl, rfl, rfl, rfl, rfl, rfl, rfl, rfl, rfl, rfl, rfl, rfl, rfl, rfl, rfl, rfl, rfl, rfl, rfl, rfl, rfl, rfl, rfl, rfl, rfl, rfl, rfl, rfl, rfl, rfl, rfl, rfl, rfl, rfl, rfl, rfl, rfl, rfl, rfl, rfl, rfl, rfl, rfl, rfl, rfl, rfl, rfl, rfl⟩

@[simp] theorem State.logEv_fields (s : State) (r : BitVec 16) (e : Ev) (d : List Nat) :
    (s.logEv r e d).pending = s.pending ∧ (s.logEv r e d).free = s.free ∧ (s.logEv r e d).time = s.time ∧ (s.logEv r e d).regs = s.regs ∧
    (s.logEv r e d).power = s.power ∧ (s.logEv r e d).heads = s.heads ∧ (s.logEv r e d).bays = s.bays ∧ (s.logEv r e d).sleds = s.sleds ∧
    (s.logEv r e d).sas = s.sas ∧ (s.logEv r e d).trans = s.trans ∧ (s.logEv r e d).encs = s.encs ∧ (s.logEv r e d).runoutStore = s.runoutStore ∧
    (s.logEv r e d).loadedDiscs = s.loadedDiscs ∧ (s.logEv r e d).trims = s.trims ∧ (s.logEv r e d).beams = s.beams ∧
    (s.logEv r e d).replay = s.replay ∧ (s.logEv r e d).wrs = s.wrs ∧ (s.logEv r e d).extents = s.extents ∧ (s.logEv r e d).nextKey = s.nextKey ∧
    (s.logEv r e d).seqNext = s.seqNext ∧ (s.logEv r e d).seqEnd = s.seqEnd ∧ (s.logEv r e d).decoders = s.decoders ∧
    (s.logEv r e d).codewords = s.codewords ∧ (s.logEv r e d).nextCw = s.nextCw ∧ (s.logEv r e d).sweeps = s.sweeps ∧
    (s.logEv r e d).mounts = s.mounts ∧ (s.logEv r e d).map = s.map ∧ (s.logEv r e d).discStore = s.discStore ∧ (s.logEv r e d).host = s.host ∧
    (s.logEv r e d).funcs = s.funcs ∧ (s.logEv r e d).sqs = s.sqs ∧ (s.logEv r e d).cqs = s.cqs ∧ (s.logEv r e d).lines = s.lines ∧
    (s.logEv r e d).cmds = s.cmds ∧ (s.logEv r e d).nextCmd = s.nextCmd ∧ (s.logEv r e d).arb = s.arb ∧ (s.logEv r e d).selfTest = s.selfTest ∧
    (s.logEv r e d).bufs = s.bufs ∧ (s.logEv r e d).poolWaits = s.poolWaits ∧ (s.logEv r e d).quotas = s.quotas ∧ (s.logEv r e d).cache = s.cache ∧
    (s.logEv r e d).dram = s.dram ∧ (s.logEv r e d).drams = s.drams ∧ (s.logEv r e d).ceTable = s.ceTable ∧ (s.logEv r e d).marks = s.marks ∧
    (s.logEv r e d).devErrs = s.devErrs ∧ (s.logEv r e d).sramPos = s.sramPos ∧ (s.logEv r e d).srams = s.srams ∧
    (s.logEv r e d).cipher = s.cipher ∧ (s.logEv r e d).slots = s.slots ∧ (s.logEv r e d).nss = s.nss ∧ (s.logEv r e d).chain = s.chain ∧
    (s.logEv r e d).calib = s.calib ∧ (s.logEv r e d).nv = s.nv ∧ (s.logEv r e d).mgmt = s.mgmt ∧ (s.logEv r e d).meter = s.meter ∧
    (s.logEv r e d).resHist = s.resHist ∧ (s.logEv r e d).msix = s.msix ∧ (s.logEv r e d).msixFns = s.msixFns ∧
    (s.logEv r e d).minimal = s.minimal ∧ (s.logEv r e d).out = s.out :=
  ⟨rfl, rfl, rfl, rfl, rfl, rfl, rfl, rfl, rfl, rfl, rfl, rfl, rfl, rfl, rfl, rfl, rfl, rfl, rfl, rfl, rfl, rfl, rfl, rfl, rfl, rfl, rfl, rfl, rfl, rfl, rfl, rfl, rfl, rfl, rfl, rfl, rfl, rfl, rfl, rfl, rfl, rfl, rfl, rfl, rfl, rfl, rfl, rfl, rfl, rfl, rfl, rfl, rfl, rfl, rfl, rfl, rfl, rfl, rfl, rfl, rfl⟩

@[simp] theorem State.setPending_fields (s : State) (tag : Nat) :
    (s.setPending tag).pending = s.pending ∧ (s.setPending tag).free = s.free ∧ (s.setPending tag).time = s.time ∧ (s.setPending tag).log = s.log ∧
    (s.setPending tag).power = s.power ∧ (s.setPending tag).heads = s.heads ∧ (s.setPending tag).bays = s.bays ∧
    (s.setPending tag).sleds = s.sleds ∧ (s.setPending tag).sas = s.sas ∧ (s.setPending tag).trans = s.trans ∧ (s.setPending tag).encs = s.encs ∧
    (s.setPending tag).runoutStore = s.runoutStore ∧ (s.setPending tag).loadedDiscs = s.loadedDiscs ∧ (s.setPending tag).trims = s.trims ∧
    (s.setPending tag).beams = s.beams ∧ (s.setPending tag).replay = s.replay ∧ (s.setPending tag).wrs = s.wrs ∧
    (s.setPending tag).extents = s.extents ∧ (s.setPending tag).nextKey = s.nextKey ∧ (s.setPending tag).seqNext = s.seqNext ∧
    (s.setPending tag).seqEnd = s.seqEnd ∧ (s.setPending tag).decoders = s.decoders ∧ (s.setPending tag).codewords = s.codewords ∧
    (s.setPending tag).nextCw = s.nextCw ∧ (s.setPending tag).sweeps = s.sweeps ∧ (s.setPending tag).mounts = s.mounts ∧
    (s.setPending tag).map = s.map ∧ (s.setPending tag).discStore = s.discStore ∧ (s.setPending tag).host = s.host ∧
    (s.setPending tag).funcs = s.funcs ∧ (s.setPending tag).sqs = s.sqs ∧ (s.setPending tag).cqs = s.cqs ∧ (s.setPending tag).lines = s.lines ∧
    (s.setPending tag).cmds = s.cmds ∧ (s.setPending tag).nextCmd = s.nextCmd ∧ (s.setPending tag).arb = s.arb ∧
    (s.setPending tag).selfTest = s.selfTest ∧ (s.setPending tag).bufs = s.bufs ∧ (s.setPending tag).poolWaits = s.poolWaits ∧
    (s.setPending tag).quotas = s.quotas ∧ (s.setPending tag).cache = s.cache ∧ (s.setPending tag).dram = s.dram ∧
    (s.setPending tag).drams = s.drams ∧ (s.setPending tag).ceTable = s.ceTable ∧ (s.setPending tag).marks = s.marks ∧
    (s.setPending tag).devErrs = s.devErrs ∧ (s.setPending tag).sramPos = s.sramPos ∧ (s.setPending tag).srams = s.srams ∧
    (s.setPending tag).cipher = s.cipher ∧ (s.setPending tag).slots = s.slots ∧ (s.setPending tag).nss = s.nss ∧
    (s.setPending tag).chain = s.chain ∧ (s.setPending tag).calib = s.calib ∧ (s.setPending tag).nv = s.nv ∧ (s.setPending tag).mgmt = s.mgmt ∧
    (s.setPending tag).meter = s.meter ∧ (s.setPending tag).resHist = s.resHist ∧ (s.setPending tag).msix = s.msix ∧
    (s.setPending tag).msixFns = s.msixFns ∧ (s.setPending tag).minimal = s.minimal ∧ (s.setPending tag).out = s.out :=
  ⟨rfl, rfl, rfl, rfl, rfl, rfl, rfl, rfl, rfl, rfl, rfl, rfl, rfl, rfl, rfl, rfl, rfl, rfl, rfl, rfl, rfl, rfl, rfl, rfl, rfl, rfl, rfl, rfl, rfl, rfl, rfl, rfl, rfl, rfl, rfl, rfl, rfl, rfl, rfl, rfl, rfl, rfl, rfl, rfl, rfl, rfl, rfl, rfl, rfl, rfl, rfl, rfl, rfl, rfl, rfl, rfl, rfl, rfl, rfl, rfl, rfl⟩

@[simp] theorem State.flag_fields (s : State) (b : Blk) (f : Field) :
    (s.flag b f).pending = s.pending ∧ (s.flag b f).free = s.free ∧ (s.flag b f).time = s.time ∧ (s.flag b f).log = s.log ∧
    (s.flag b f).power = s.power ∧ (s.flag b f).heads = s.heads ∧ (s.flag b f).bays = s.bays ∧ (s.flag b f).sleds = s.sleds ∧
    (s.flag b f).sas = s.sas ∧ (s.flag b f).trans = s.trans ∧ (s.flag b f).encs = s.encs ∧ (s.flag b f).runoutStore = s.runoutStore ∧
    (s.flag b f).loadedDiscs = s.loadedDiscs ∧ (s.flag b f).trims = s.trims ∧ (s.flag b f).beams = s.beams ∧ (s.flag b f).replay = s.replay ∧
    (s.flag b f).wrs = s.wrs ∧ (s.flag b f).extents = s.extents ∧ (s.flag b f).nextKey = s.nextKey ∧ (s.flag b f).seqNext = s.seqNext ∧
    (s.flag b f).seqEnd = s.seqEnd ∧ (s.flag b f).decoders = s.decoders ∧ (s.flag b f).codewords = s.codewords ∧ (s.flag b f).nextCw = s.nextCw ∧
    (s.flag b f).sweeps = s.sweeps ∧ (s.flag b f).mounts = s.mounts ∧ (s.flag b f).map = s.map ∧ (s.flag b f).discStore = s.discStore ∧
    (s.flag b f).host = s.host ∧ (s.flag b f).funcs = s.funcs ∧ (s.flag b f).sqs = s.sqs ∧ (s.flag b f).cqs = s.cqs ∧
    (s.flag b f).lines = s.lines ∧ (s.flag b f).cmds = s.cmds ∧ (s.flag b f).nextCmd = s.nextCmd ∧ (s.flag b f).arb = s.arb ∧
    (s.flag b f).selfTest = s.selfTest ∧ (s.flag b f).bufs = s.bufs ∧ (s.flag b f).poolWaits = s.poolWaits ∧ (s.flag b f).quotas = s.quotas ∧
    (s.flag b f).cache = s.cache ∧ (s.flag b f).dram = s.dram ∧ (s.flag b f).drams = s.drams ∧ (s.flag b f).ceTable = s.ceTable ∧
    (s.flag b f).marks = s.marks ∧ (s.flag b f).devErrs = s.devErrs ∧ (s.flag b f).sramPos = s.sramPos ∧ (s.flag b f).srams = s.srams ∧
    (s.flag b f).cipher = s.cipher ∧ (s.flag b f).slots = s.slots ∧ (s.flag b f).nss = s.nss ∧ (s.flag b f).chain = s.chain ∧
    (s.flag b f).calib = s.calib ∧ (s.flag b f).nv = s.nv ∧ (s.flag b f).mgmt = s.mgmt ∧ (s.flag b f).meter = s.meter ∧
    (s.flag b f).resHist = s.resHist ∧ (s.flag b f).msix = s.msix ∧ (s.flag b f).msixFns = s.msixFns ∧ (s.flag b f).minimal = s.minimal ∧
    (s.flag b f).out = s.out :=
  ⟨rfl, rfl, rfl, rfl, rfl, rfl, rfl, rfl, rfl, rfl, rfl, rfl, rfl, rfl, rfl, rfl, rfl, rfl, rfl, rfl, rfl, rfl, rfl, rfl, rfl, rfl, rfl, rfl, rfl, rfl, rfl, rfl, rfl, rfl, rfl, rfl, rfl, rfl, rfl, rfl, rfl, rfl, rfl, rfl, rfl, rfl, rfl, rfl, rfl, rfl, rfl, rfl, rfl, rfl, rfl, rfl, rfl, rfl, rfl, rfl, rfl⟩

@[simp] theorem State.orSta_fields (s : State) (b : Blk) (f : Field) (m : Nat) :
    (s.orSta b f m).pending = s.pending ∧ (s.orSta b f m).free = s.free ∧ (s.orSta b f m).time = s.time ∧ (s.orSta b f m).log = s.log ∧
    (s.orSta b f m).power = s.power ∧ (s.orSta b f m).heads = s.heads ∧ (s.orSta b f m).bays = s.bays ∧ (s.orSta b f m).sleds = s.sleds ∧
    (s.orSta b f m).sas = s.sas ∧ (s.orSta b f m).trans = s.trans ∧ (s.orSta b f m).encs = s.encs ∧ (s.orSta b f m).runoutStore = s.runoutStore ∧
    (s.orSta b f m).loadedDiscs = s.loadedDiscs ∧ (s.orSta b f m).trims = s.trims ∧ (s.orSta b f m).beams = s.beams ∧
    (s.orSta b f m).replay = s.replay ∧ (s.orSta b f m).wrs = s.wrs ∧ (s.orSta b f m).extents = s.extents ∧ (s.orSta b f m).nextKey = s.nextKey ∧
    (s.orSta b f m).seqNext = s.seqNext ∧ (s.orSta b f m).seqEnd = s.seqEnd ∧ (s.orSta b f m).decoders = s.decoders ∧
    (s.orSta b f m).codewords = s.codewords ∧ (s.orSta b f m).nextCw = s.nextCw ∧ (s.orSta b f m).sweeps = s.sweeps ∧
    (s.orSta b f m).mounts = s.mounts ∧ (s.orSta b f m).map = s.map ∧ (s.orSta b f m).discStore = s.discStore ∧ (s.orSta b f m).host = s.host ∧
    (s.orSta b f m).funcs = s.funcs ∧ (s.orSta b f m).sqs = s.sqs ∧ (s.orSta b f m).cqs = s.cqs ∧ (s.orSta b f m).lines = s.lines ∧
    (s.orSta b f m).cmds = s.cmds ∧ (s.orSta b f m).nextCmd = s.nextCmd ∧ (s.orSta b f m).arb = s.arb ∧ (s.orSta b f m).selfTest = s.selfTest ∧
    (s.orSta b f m).bufs = s.bufs ∧ (s.orSta b f m).poolWaits = s.poolWaits ∧ (s.orSta b f m).quotas = s.quotas ∧ (s.orSta b f m).cache = s.cache ∧
    (s.orSta b f m).dram = s.dram ∧ (s.orSta b f m).drams = s.drams ∧ (s.orSta b f m).ceTable = s.ceTable ∧ (s.orSta b f m).marks = s.marks ∧
    (s.orSta b f m).devErrs = s.devErrs ∧ (s.orSta b f m).sramPos = s.sramPos ∧ (s.orSta b f m).srams = s.srams ∧
    (s.orSta b f m).cipher = s.cipher ∧ (s.orSta b f m).slots = s.slots ∧ (s.orSta b f m).nss = s.nss ∧ (s.orSta b f m).chain = s.chain ∧
    (s.orSta b f m).calib = s.calib ∧ (s.orSta b f m).nv = s.nv ∧ (s.orSta b f m).mgmt = s.mgmt ∧ (s.orSta b f m).meter = s.meter ∧
    (s.orSta b f m).resHist = s.resHist ∧ (s.orSta b f m).msix = s.msix ∧ (s.orSta b f m).msixFns = s.msixFns ∧
    (s.orSta b f m).minimal = s.minimal ∧ (s.orSta b f m).out = s.out :=
  ⟨rfl, rfl, rfl, rfl, rfl, rfl, rfl, rfl, rfl, rfl, rfl, rfl, rfl, rfl, rfl, rfl, rfl, rfl, rfl, rfl, rfl, rfl, rfl, rfl, rfl, rfl, rfl, rfl, rfl, rfl, rfl, rfl, rfl, rfl, rfl, rfl, rfl, rfl, rfl, rfl, rfl, rfl, rfl, rfl, rfl, rfl, rfl, rfl, rfl, rfl, rfl, rfl, rfl, rfl, rfl, rfl, rfl, rfl, rfl, rfl, rfl⟩

@[simp] theorem State.addSat_fields (s : State) (b : Blk) (f : Field) (n : Nat) :
    (s.addSat b f n).pending = s.pending ∧ (s.addSat b f n).free = s.free ∧ (s.addSat b f n).time = s.time ∧ (s.addSat b f n).log = s.log ∧
    (s.addSat b f n).power = s.power ∧ (s.addSat b f n).heads = s.heads ∧ (s.addSat b f n).bays = s.bays ∧ (s.addSat b f n).sleds = s.sleds ∧
    (s.addSat b f n).sas = s.sas ∧ (s.addSat b f n).trans = s.trans ∧ (s.addSat b f n).encs = s.encs ∧
    (s.addSat b f n).runoutStore = s.runoutStore ∧ (s.addSat b f n).loadedDiscs = s.loadedDiscs ∧ (s.addSat b f n).trims = s.trims ∧
    (s.addSat b f n).beams = s.beams ∧ (s.addSat b f n).replay = s.replay ∧ (s.addSat b f n).wrs = s.wrs ∧ (s.addSat b f n).extents = s.extents ∧
    (s.addSat b f n).nextKey = s.nextKey ∧ (s.addSat b f n).seqNext = s.seqNext ∧ (s.addSat b f n).seqEnd = s.seqEnd ∧
    (s.addSat b f n).decoders = s.decoders ∧ (s.addSat b f n).codewords = s.codewords ∧ (s.addSat b f n).nextCw = s.nextCw ∧
    (s.addSat b f n).sweeps = s.sweeps ∧ (s.addSat b f n).mounts = s.mounts ∧ (s.addSat b f n).map = s.map ∧
    (s.addSat b f n).discStore = s.discStore ∧ (s.addSat b f n).host = s.host ∧ (s.addSat b f n).funcs = s.funcs ∧ (s.addSat b f n).sqs = s.sqs ∧
    (s.addSat b f n).cqs = s.cqs ∧ (s.addSat b f n).lines = s.lines ∧ (s.addSat b f n).cmds = s.cmds ∧ (s.addSat b f n).nextCmd = s.nextCmd ∧
    (s.addSat b f n).arb = s.arb ∧ (s.addSat b f n).selfTest = s.selfTest ∧ (s.addSat b f n).bufs = s.bufs ∧
    (s.addSat b f n).poolWaits = s.poolWaits ∧ (s.addSat b f n).quotas = s.quotas ∧ (s.addSat b f n).cache = s.cache ∧
    (s.addSat b f n).dram = s.dram ∧ (s.addSat b f n).drams = s.drams ∧ (s.addSat b f n).ceTable = s.ceTable ∧ (s.addSat b f n).marks = s.marks ∧
    (s.addSat b f n).devErrs = s.devErrs ∧ (s.addSat b f n).sramPos = s.sramPos ∧ (s.addSat b f n).srams = s.srams ∧
    (s.addSat b f n).cipher = s.cipher ∧ (s.addSat b f n).slots = s.slots ∧ (s.addSat b f n).nss = s.nss ∧ (s.addSat b f n).chain = s.chain ∧
    (s.addSat b f n).calib = s.calib ∧ (s.addSat b f n).nv = s.nv ∧ (s.addSat b f n).mgmt = s.mgmt ∧ (s.addSat b f n).meter = s.meter ∧
    (s.addSat b f n).resHist = s.resHist ∧ (s.addSat b f n).msix = s.msix ∧ (s.addSat b f n).msixFns = s.msixFns ∧
    (s.addSat b f n).minimal = s.minimal ∧ (s.addSat b f n).out = s.out :=
  ⟨rfl, rfl, rfl, rfl, rfl, rfl, rfl, rfl, rfl, rfl, rfl, rfl, rfl, rfl, rfl, rfl, rfl, rfl, rfl, rfl, rfl, rfl, rfl, rfl, rfl, rfl, rfl, rfl, rfl, rfl, rfl, rfl, rfl, rfl, rfl, rfl, rfl, rfl, rfl, rfl, rfl, rfl, rfl, rfl, rfl, rfl, rfl, rfl, rfl, rfl, rfl, rfl, rfl, rfl, rfl, rfl, rfl, rfl, rfl, rfl, rfl⟩

@[simp] theorem State.incSat_fields (s : State) (b : Blk) (f : Field) :
    (s.incSat b f).pending = s.pending ∧ (s.incSat b f).free = s.free ∧ (s.incSat b f).time = s.time ∧ (s.incSat b f).log = s.log ∧
    (s.incSat b f).power = s.power ∧ (s.incSat b f).heads = s.heads ∧ (s.incSat b f).bays = s.bays ∧ (s.incSat b f).sleds = s.sleds ∧
    (s.incSat b f).sas = s.sas ∧ (s.incSat b f).trans = s.trans ∧ (s.incSat b f).encs = s.encs ∧ (s.incSat b f).runoutStore = s.runoutStore ∧
    (s.incSat b f).loadedDiscs = s.loadedDiscs ∧ (s.incSat b f).trims = s.trims ∧ (s.incSat b f).beams = s.beams ∧
    (s.incSat b f).replay = s.replay ∧ (s.incSat b f).wrs = s.wrs ∧ (s.incSat b f).extents = s.extents ∧ (s.incSat b f).nextKey = s.nextKey ∧
    (s.incSat b f).seqNext = s.seqNext ∧ (s.incSat b f).seqEnd = s.seqEnd ∧ (s.incSat b f).decoders = s.decoders ∧
    (s.incSat b f).codewords = s.codewords ∧ (s.incSat b f).nextCw = s.nextCw ∧ (s.incSat b f).sweeps = s.sweeps ∧
    (s.incSat b f).mounts = s.mounts ∧ (s.incSat b f).map = s.map ∧ (s.incSat b f).discStore = s.discStore ∧ (s.incSat b f).host = s.host ∧
    (s.incSat b f).funcs = s.funcs ∧ (s.incSat b f).sqs = s.sqs ∧ (s.incSat b f).cqs = s.cqs ∧ (s.incSat b f).lines = s.lines ∧
    (s.incSat b f).cmds = s.cmds ∧ (s.incSat b f).nextCmd = s.nextCmd ∧ (s.incSat b f).arb = s.arb ∧ (s.incSat b f).selfTest = s.selfTest ∧
    (s.incSat b f).bufs = s.bufs ∧ (s.incSat b f).poolWaits = s.poolWaits ∧ (s.incSat b f).quotas = s.quotas ∧ (s.incSat b f).cache = s.cache ∧
    (s.incSat b f).dram = s.dram ∧ (s.incSat b f).drams = s.drams ∧ (s.incSat b f).ceTable = s.ceTable ∧ (s.incSat b f).marks = s.marks ∧
    (s.incSat b f).devErrs = s.devErrs ∧ (s.incSat b f).sramPos = s.sramPos ∧ (s.incSat b f).srams = s.srams ∧ (s.incSat b f).cipher = s.cipher ∧
    (s.incSat b f).slots = s.slots ∧ (s.incSat b f).nss = s.nss ∧ (s.incSat b f).chain = s.chain ∧ (s.incSat b f).calib = s.calib ∧
    (s.incSat b f).nv = s.nv ∧ (s.incSat b f).mgmt = s.mgmt ∧ (s.incSat b f).meter = s.meter ∧ (s.incSat b f).resHist = s.resHist ∧
    (s.incSat b f).msix = s.msix ∧ (s.incSat b f).msixFns = s.msixFns ∧ (s.incSat b f).minimal = s.minimal ∧ (s.incSat b f).out = s.out :=
  ⟨rfl, rfl, rfl, rfl, rfl, rfl, rfl, rfl, rfl, rfl, rfl, rfl, rfl, rfl, rfl, rfl, rfl, rfl, rfl, rfl, rfl, rfl, rfl, rfl, rfl, rfl, rfl, rfl, rfl, rfl, rfl, rfl, rfl, rfl, rfl, rfl, rfl, rfl, rfl, rfl, rfl, rfl, rfl, rfl, rfl, rfl, rfl, rfl, rfl, rfl, rfl, rfl, rfl, rfl, rfl, rfl, rfl, rfl, rfl, rfl, rfl⟩

@[simp] theorem State.draw_fields (s : State) :
    s.draw.1 = Config.freeNat s.free ∧ s.draw.2.pending = s.pending ∧ s.draw.2.free = s.free + 1 ∧ s.draw.2.time = s.time ∧
    s.draw.2.regs = s.regs ∧ s.draw.2.log = s.log ∧ s.draw.2.power = s.power ∧ s.draw.2.heads = s.heads ∧ s.draw.2.bays = s.bays ∧
    s.draw.2.sleds = s.sleds ∧ s.draw.2.sas = s.sas ∧ s.draw.2.trans = s.trans ∧ s.draw.2.encs = s.encs ∧ s.draw.2.runoutStore = s.runoutStore ∧
    s.draw.2.loadedDiscs = s.loadedDiscs ∧ s.draw.2.trims = s.trims ∧ s.draw.2.beams = s.beams ∧ s.draw.2.replay = s.replay ∧
    s.draw.2.wrs = s.wrs ∧ s.draw.2.extents = s.extents ∧ s.draw.2.nextKey = s.nextKey ∧ s.draw.2.seqNext = s.seqNext ∧
    s.draw.2.seqEnd = s.seqEnd ∧ s.draw.2.decoders = s.decoders ∧ s.draw.2.codewords = s.codewords ∧ s.draw.2.nextCw = s.nextCw ∧
    s.draw.2.sweeps = s.sweeps ∧ s.draw.2.mounts = s.mounts ∧ s.draw.2.map = s.map ∧ s.draw.2.discStore = s.discStore ∧ s.draw.2.host = s.host ∧
    s.draw.2.funcs = s.funcs ∧ s.draw.2.sqs = s.sqs ∧ s.draw.2.cqs = s.cqs ∧ s.draw.2.lines = s.lines ∧ s.draw.2.cmds = s.cmds ∧
    s.draw.2.nextCmd = s.nextCmd ∧ s.draw.2.arb = s.arb ∧ s.draw.2.selfTest = s.selfTest ∧ s.draw.2.bufs = s.bufs ∧
    s.draw.2.poolWaits = s.poolWaits ∧ s.draw.2.quotas = s.quotas ∧ s.draw.2.cache = s.cache ∧ s.draw.2.dram = s.dram ∧ s.draw.2.drams = s.drams ∧
    s.draw.2.ceTable = s.ceTable ∧ s.draw.2.marks = s.marks ∧ s.draw.2.devErrs = s.devErrs ∧ s.draw.2.sramPos = s.sramPos ∧
    s.draw.2.srams = s.srams ∧ s.draw.2.cipher = s.cipher ∧ s.draw.2.slots = s.slots ∧ s.draw.2.nss = s.nss ∧ s.draw.2.chain = s.chain ∧
    s.draw.2.calib = s.calib ∧ s.draw.2.nv = s.nv ∧ s.draw.2.mgmt = s.mgmt ∧ s.draw.2.meter = s.meter ∧ s.draw.2.resHist = s.resHist ∧
    s.draw.2.msix = s.msix ∧ s.draw.2.msixFns = s.msixFns ∧ s.draw.2.minimal = s.minimal ∧ s.draw.2.out = s.out :=
  ⟨rfl, rfl, rfl, rfl, rfl, rfl, rfl, rfl, rfl, rfl, rfl, rfl, rfl, rfl, rfl, rfl, rfl, rfl, rfl, rfl, rfl, rfl, rfl, rfl, rfl, rfl, rfl, rfl, rfl, rfl, rfl, rfl, rfl, rfl, rfl, rfl, rfl, rfl, rfl, rfl, rfl, rfl, rfl, rfl, rfl, rfl, rfl, rfl, rfl, rfl, rfl, rfl, rfl, rfl, rfl, rfl, rfl, rfl, rfl, rfl, rfl, rfl, rfl⟩

end Sys2Proof.Machine
end

