-- ==== Sys2Proof/WellFormed.lean ====
section
/-! DEFINITION. The well-formed commands: the bounds that the spec gives their operands beyond the widths of their types. -/

namespace Sys2Proof

/-- A side-layer code names a layer below 12 (R42). -/
def slOk (sl : BitVec 5) : Bool := decide (sl.toNat % 16 < 12)

/-- A codeword carries 2,048 information bytes (R52). -/
def codewordOk (info : List Byte) : Bool := decide (info.length = 2048)

/-- A space and its mark are runs of 2 to 8 channel bits (Table 03-4). -/
def runOk (r : BitVec 4 × BitVec 4) : Bool :=
  decide (2 ≤ r.1.toNat) && decide (r.1.toNat ≤ 8) && decide (2 ≤ r.2.toNat) && decide (r.2.toNat ≤ 8)

/-- A record read from a disc names a side-layer. -/
def RecordIn.ok (r : RecordIn) : Bool := slOk r.sl

/-- What a mount stage read names side-layers alone. -/
def MountRead.ok : MountRead → Bool
  | .discId _ => true
  | .anchors _ copies => copies.all (fun a => slOk a.ckptSl)
  | .decided => true
  | .checkpoint _ _ _ entries => entries.all (fun e => slOk e.sl)
  | .chain _ records => records.all RecordIn.ok
  | .forward records _ => records.all RecordIn.ok
  | .applied => true
  | .appended => true

/-- A command entry has at most 4,096 descriptors beside it (Table 13-4). -/
def EntryIn.ok (e : EntryIn) : Bool := decide (e.descriptors.length ≤ 4096)

/-- A packet carries 0–512 B of payload in multiples of 4 B (R431). -/
def PacketIn.ok (p : PacketIn) : Bool := decide (p.payload.length ≤ 512) && decide (p.payload.length % 4 = 0)

/-- A command whose operands lie within the spec's bounds. -/
def WellFormed (i : Instr) : Bool :=
  match i with
  | .position _ _ _ sl _ _ => slOk sl
  | .readWindow _ _ _ _ _ _ => true
  | .writeWindow _ _ _ _ _ _ => true
  | .cancel _ _ => true
  | .statusFrame _ _ _ => true
  | .laneTrainTimeout _ _ => true
  | .laneFrameTimeout _ _ => true
  | .linkRetrain _ => true
  | .linkClearCounts _ => true
  | .coilFault _ _ _ => true
  | .headStrobe _ _ => true
  | .sampleMiss _ _ => true
  | .targetedTestDone _ _ => true
  | .engCommit _ _ _ => true
  | .engClearStats _ _ => true
  | .focAcqStart _ => true
  | .captureTimeout _ => true
  | .identifyTimeout _ => true
  | .jumpKickEnd _ => true
  | .jumpCoastTimeout _ => true
  | .jumpBrakeEnd _ => true
  | .jumpLockTimeout _ => true
  | .jumpSettleEnd _ => true
  | .defectHoldTimeout _ => true
  | .recaptureTimeout _ => true
  | .focCommit _ => true
  | .trkAcqStart _ => true
  | .trkRebuild _ => true
  | .trackPullinTimeout _ => true
  | .acqTimeout _ => true
  | .confirmTimeout _ => true
  | .lensKickTimeout _ => true
  | .lensBrakeTimeout _ => true
  | .lensLockTimeout _ => true
  | .seekStart _ => true
  | .sledSettleEnd _ => true
  | .wedgeTick _ _ _ => true
  | .blendEnd _ _ => true
  | .runoutFetchDone _ _ _ => true
  | .trkCommit _ => true
  | .pwmPeriod _ _ => true
  | .speedLoopPeriod _ _ => true
  | .spindleStart _ => true
  | .driveStart _ => true
  | .spindleStop _ => true
  | .spindleClearFault _ => true
  | .spindleReverseWrite _ _ => true
  | .targetRpmWrite _ _ => true
  | .senseEnd _ _ => true
  | .brakeTimeout _ => true
  | .alignEnd _ => true
  | .spindleCoastTimeout _ => true
  | .torqueRestored _ => true
  | .stopBrakeEnd _ => true
  | .fieldWeakenLimit _ => true
  | .spindleOvercurrent _ => true
  | .bridgeOvertemp _ => true
  | .spindlePhaseOpen _ => true
  | .spindleCommit _ => true
  | .axisTick _ => true
  | .chopperCycle _ _ _ => true
  | .stepperPhaseOpen _ _ => true
  | .axisOvercurrent _ => true
  | .holdDelayEnd _ => true
  | .axisEnableWrite _ _ => true
  | .axisHome _ => true
  | .homeStopHoldEnd _ => true
  | .axisClearFault _ => true
  | .axisStop _ => true
  | .runPrick _ => true
  | .axisTargetWrite _ _ => true
  | .axisModeWrite _ mode => decide (mode.toNat < 3)
  | .gearArm _ => true
  | .gearArmNow _ => true
  | .encoderEdge _ _ _ _ => true
  | .stepEdge _ _ _ _ => true
  | .axisCommit _ => true
  | .beamWindowStart _ _ => true
  | .beamWindowEnd _ _ => true
  | .wedgeHeader _ _ _ => true
  | .syncSearch _ _ i => decide (280 ≤ i.llr.length)
  | .defectStart _ _ _ => true
  | .defectEnd _ _ _ _ => true
  | .coastLimit _ _ => true
  | .resliceRequest _ _ _ _ => true
  | .chanCommit _ => true
  | .chanClearStats _ => true
  | .writingEntry _ => true
  | .sessionIdleExpiry _ => true
  | .writeWindowOpen _ runs => runs.all (fun l => l.all runOk)
  | .opcNow _ => true
  | .opcRunStart _ _ _ => true
  | .opcRunDone _ _ _ => true
  | .codewordVerdict _ _ _ _ _ _ => true
  | .recordVerdict _ _ => true
  | .anchorAppend _ _ _ => true
  | .mapCheckpoint _ sl _ => slOk sl
  | .wrCommit _ => true
  | .vchanCommit _ => true
  | .vchanClearStats _ => true
  | .decodeStart _ => true
  | .decodeDone _ _ _ _ _ info => codewordOk info
  | .ladderAgeExpiry _ => true
  | .ladderStepDone _ _ info => codewordOk info
  | .sweepSettleEnd _ => true
  | .mountStart _ _ => true
  | .mountStageDone _ r => r.ok
  | .decodeCommit => true
  | .decodeClearStats => true
  | .flr _ => true
  | .conventionalReset => true
  | .vfEnableWrite _ => true
  | .dlActiveLost => true
  | .linkReattach => true
  | .msixEntryWrite _ _ _ _ => true
  | .sqNudge _ _ => true
  | .cqNudge _ _ => true
  | .attachLo _ _ => true
  | .attachHi _ _ _ => true
  | .detach _ => true
  | .nudgeReservedOp _ op => decide (5 ≤ op.toNat)
  | .detachGraceExpiry _ => true
  | .doorbellPoll _ _ _ _ => true
  | .commandFetch x => x.ok
  | .read _ => true
  | .write _ _ => true
  | .flush _ => true
  | .fence _ => true
  | .createCq _ => true
  | .createSq _ => true
  | .deleteSq _ => true
  | .deleteCq _ => true
  | .selfTestShort _ => true
  | .selfTestExtended _ => true
  | .selfTestAbort _ => true
  | .selfTestResume => true
  | .selfTestMaxSusp => true
  | .selfTestDone _ => true
  | .getMetering _ => true
  | .namespaceCreate _ => true
  | .namespaceDelete _ => true
  | .namespaceQuery _ => true
  | .keyLoad _ => true
  | .keyErase _ => true
  | .keyQuery _ => true
  | .fwActivate _ => true
  | .fwCoreBReady _ => true
  | .fwWatchdogExpiry => true
  | .cqCompletion _ => true
  | .cqAggTimer _ _ => true
  | .bufferRelease _ _ _ => true
  | .bufferShare _ _ _ => true
  | .quotaLimitWrite _ _ => true
  | .poolEnableWrite _ _ => true
  | .bufpoolClearStats => true
  | .cacheAccess _ _ addr data => decide (data.length ≤ 64 - addr.toNat % 64)
  | .victimWritebackDone addr => decide (addr.toNat % 64 = 0)
  | .streamGapTimeout _ _ => true
  | .cacheOpPreload _ _ => true
  | .cacheOpClean => true
  | .cacheOpInvalidate => true
  | .cacheOpDone => true
  | .cacheUnlock _ => true
  | .wayPowerWrite _ => true
  | .wayDrainDone _ => true
  | .cacheCleanAll => true
  | .cacheEnableWrite _ => true
  | .ccacheClearStats => true
  | .dramTrain _ => true
  | .trainingDone _ _ _ _ _ => true
  | .dramSwitch _ => true
  | .switchDone _ _ => true
  | .dramBurstRead addr _ => decide (addr.toNat % 64 = 0)
  | .deviceAlert _ _ => true
  | .diagnoseDone _ _ => true
  | .resilverDone _ => true
  | .scrubInterval _ _ _ _ => true
  | .trefiWindow _ _ _ => true
  | .markClear _ _ _ => true
  | .ceClearTable => true
  | .dramcClearStats _ => true
  | .memprotClearStats => true
  | .cipherRequest _ _ _ _ _ _ data => decide (data.length = 4096)
  | .cipherUnitDone _ _ => true
  | .slotFetchDone _ _ => true
  | .cipherAlarm _ => true
  | .cipherRearm => true
  | .keygenDone => true
  | .cipherClearStats => true
  | .chainWrite p => p.ok
  | .readReq p _ => p.ok
  | .readResp p => p.ok
  | .writeAck p => p.ok
  | .mirrorWrite p => p.ok
  | .mirrorDone p => p.ok
  | .timeSync p _ => p.ok
  | .timeReply p _ _ => p.ok
  | .hello p => p.ok
  | .linkState p => p.ok
  | .linkAck p => p.ok
  | .keepalive p => p.ok
  | .errorResp p => p.ok
  | .chainTrainTimeout _ => true
  | .keepaliveTimeout _ => true
  | .keepaliveTimer _ => true
  | .helloTimer _ => true
  | .reqTimeout _ => true
  | .mirrorTimeout _ => true
  | .timeSyncTimer => true
  | .mirrorMessageSend _ => true
  | .chainRetrain => true
  | .chainEnableWrite _ => true
  | .chainCommit => true
  | .chainClearStats => true
  | .domainWrite _ _ _ => true
  | .domainSwitchDone _ => true
  | .capWrite _ => true
  | .governorScan => true
  | .powerMeasure _ _ => true
  | .thermalWarn _ => true
  | .pwrGoodDeassert => true
  | .vinUndervolt _ => true
  | .powerFailEnd => true
  | .referenceLost => true
  | .referenceRestored _ => true
  | .timebaseOffsetWrite _ _ _ => true
  | .lowWordRead _ addr => decide (addr.toNat % 4 = 0)
  | .marginEvaluation _ => true
  | .speedStepApply _ => true
  | .trimTempRecompute _ _ => true
  | .trialPhaseEnd _ _ _ => true
  | .headSetNvWrite => true
  | .trendEvaluation _ _ => true
  | .calibClearStats => true
  | .coldStart _ => true
  | .startTimeout => true
  | .warmStart _ => true
  | .nvProgramDone _ => true
  | .moduleImageWrite => true
  | .mailboxGo => true
  | .smbBlockWrite bytes _ => decide (bytes.length ≤ 255)
  | .smbStart => true
  | .smbStatusRead => true
  | .smbBlockRead => true
  | .logRead _ => true
  | .meterRead _ => true
  | .sensorRead _ => true
  | .nvWrite _ => true
  | .nvWriteHoldTimeout => true
  | .nvRead _ => true
  | .restart _ _ => true
  | .events _ => true
  | .meterSnapshot => true
  | .globalCommit _ _ => true
  | .registerWrite _ addr _ => decide (addr.toNat % 4 = 0)
  | .rstNAssert => true
  | .discUnload _ => true
  | .thermalWarnClear => true
  | .fwCoreAStandby => true
  | .completerAbortRead addr len => !((len == 4 || len == 8) && addr.toNat % len.toNat == 0)

end Sys2Proof
end

