-- ==== Sys2Proof/Tests/Slice0.lean ====
section
/-! SUPPORT. The author's own tests: ill-formed operands that WellFormed refuses, the spec's worked examples, commands on small states, and
for each obligation with hypotheses states and operands that meet them. -/

namespace Sys2Proof.Tests
set_option Elab.async false
open Sys2Proof Sys2Proof.Machine

/-! ### Small states and operands -/

/-- The command goes on, and the check holds of the state that it leaves. -/
def gives (o : Host.Outcome State Fault Refusal) (p : State → Bool) : Bool :=
  match o with
  | .next t => p t
  | _ => false

/-- The module in full mode with every domain on. -/
def on : State :=
  { State.reset with
    regs := { State.reset.regs with loaded := true }
    power := { State.reset.power with on := -1, state := -1 }
    mgmt := { State.reset.mgmt with started := true, startStep := 8 } }

/-- A state with a committed value. -/
def act (s : State) (b : Blk) (f : Field) (v : Nat) : State := { s with regs := { s.regs with act := Tab.put s.regs.act (regKey b f) v } }

/-- A command entry with some of its command-specific bytes. -/
def entry (op : Byte) (spec : List Byte) : EntryIn :=
  { opcode := op, flags := 0, cid := 0, nsid := 1, slba := 0, nlbM1 := 0, reserved := 0, dataAddr := 0, ndesc := 0
    spec := Vector.ofFn (fun i => spec.getD i.val 0), descriptors := [], buffer := [] }

/-- Command 1 of function 0 and queue q, running. -/
def cmd (q : Nat) (op : Byte) (spec : List Byte) : Cmd :=
  { newCmd 1 ⟨0, q, 0, 2, 0, false, 0, 0, 0, false, none, false⟩ 0 (entry op spec) with stage := .running }

/-- A state in which one command is under way. -/
def doing (c : Cmd) : State := { on with cmds := [c] }

/-- Head 0 changed. -/
def head (f : Head → Head) : State := on.modHead 0 f
/-- Head 0 with its focus sequencer in a state. -/
def foc (st : FocState) (f : FocSt → FocSt) : State := head (fun h => { h with foc := f { h.foc with st := st } })
/-- Head 0 with its tracking sequencer in a state. -/
def trk (st : TrkState) (f : TrkSt → TrkSt) : State := head (fun h => { h with trk := f { h.trk with st := st } })
/-- Lane 0 of head 0 in a state. -/
def lane (st : LaneState) : State := on.modLane 0 0 (fun l => { l with st := st })
/-- Spindle 0 in a state. -/
def spin (st : SpState) (f : Spindle → Spindle) : State := on.modSpindle 0 (fun x => f { x with st := st })
/-- An axis in a state. -/
def axis (a : AxisId) (st : AxState) (f : Axis → Axis) : State := on.modAxis a (fun x => f { x with st := st })
/-- Beam 0 of head 0 in a state. -/
def beam (st : BeamState) (f : Beam → Beam) : State := on.modBeam 0 0 (fun x => f { x with st := st })
/-- Both DRAM channels in states. -/
def dram (a b : DramState) (f : DramCh → DramCh) : State :=
  (on.modDram .b (fun x => { x with st := b })).modDram .a (fun x => f { x with st := a })
/-- Chain port 0 in a state. -/
def port (st : PortState) (f : PortSt → PortSt) : State := on.modPort 0 (fun x => f { x with st := st })
/-- The chain changed, with port 0 UP. -/
def chain (f : Chain → Chain) : State := (port .up id).modChain f
/-- Bay 0 changed. -/
def bay (f : Bay → Bay) : State := on.modBay 0 f
/-- A mailbox request of head 0. -/
def mail (k : ReqKind) (st : ReqStage) : MailReq := ⟨1, 0, k, st⟩
/-- A layer step in KICK. -/
def cell : Jump := ⟨.kick, true, 0, 3, 0, 0, 0⟩
/-- A lens jump in KICK. -/
def lens : LensJump := ⟨.kick, true, 4, 0, 0, 0, false⟩
/-- A cipher request. -/
def req : CipherReq := ⟨0, 1, false, 1, 1, 0, 0, [], 0⟩
/-- A codeword in a phase. -/
def codeword (ph : CwPhase) (step : Nat) : Codeword := ⟨1, 0, 0, 0, 0, 0, 0, 0, none, 0, 0, ph, step, 0, false, none, 0, 0, 0, false, []⟩
/-- An extent of one cluster. -/
def extent (st : ClusterSt) (r : Option RecSt) : Extent :=
  ⟨1, some 1, 0, 0, 0, 1, 0, 0, [], 0, 0, 0, [⟨0, false, 0, false, st⟩], 0, 0, 0, r, none, none, .recording, []⟩
/-- A couching record. -/
def record (v : Bool) : RecSt := ⟨0, 0, 0, [], 0, 0, 0, v, false⟩
/-- A packet of source 1. -/
def pkt : PacketIn :=
  { port := .cu, flags := 1, dest := 0, source := 1, hops := 0, tag := 1, status := 0, seq := 0, address := 0, payload := [], crcOk := true }
/-- A path on which an operation runs. -/
def path (op : Byte) (args : List Byte) : PathSt :=
  { request := [], running := [op, 0, 0, 0, BitVec.ofNat 8 args.length, 0, 0, 0, 0, 0, 0, 0, 0, 0, 0, 0] ++ args, response := [], given := 0, busy := true, done := false, pec := false, overrun := false }
/-- An operation runs on the sideband. -/
def runs (x : PathSt) : State := on.modMgmt (fun m => { m with smb := x })
/-- An image without sections. -/
def image : Image := ⟨1, 1, 0, 0, []⟩
/-- Bay 0 with its mount in a state. -/
def mount (st : MountState) (f : Mount → Mount) : State :=
  { on with mounts := vmod on.mounts (0 : BayId) (fun m => f { m with st := st }) }
/-- An empty packet. -/
def P0 : PacketIn :=
  { port := .cu, flags := 0, dest := 0, source := 0, hops := 0, tag := 0, status := 0, seq := 0, address := 0, payload := [], crcOk := true }
/-- A start on which everything is found sound. -/
def S0 : StartIn :=
  { flashOk := true, firmwareOk := true, dramMatch := true, dramTrained := true, domainsOk := true, otpOk := true, tamperLow := false, vinOk := true, pwrGood := true }
/-- Measurements that leave every margin whole. -/
def M0 : MarginIn :=
  { enginePrediction := 4000, decoderIterPs := 0, decoderSlow := [], decoderItersX100 := 800, cipherUnitNs := 2560, otherPct := 50, reachedRpm := Vector.replicate 8 6000 }
/-- A sound wedge header. -/
def H0 : HeaderIn :=
  { wedge := 5, sideLayer := 3, gray := 0, biphaseOk := true, parityOk := true, burstA := 0, burstB := 0, burstC := 0, burstD := 0, markOffset := 0, ppWindow := 0, ratePeriod := 0 }
/-- A sync search without a candidate. -/
def Y0 : SyncIn :=
  { candidate := none, expected := 0, blankEnvelope := false, llr := List.replicate 280 0, loops := ⟨0,0,0,0,Vector.replicate 29 0⟩ }
/-- A speed loop input at rest. -/
def V0 : SpeedIn := ⟨0,0,0,0,0⟩
/-- A strobe without signals. -/
def T0 : StrobeIn := ⟨0,0,Vector.replicate 4 0,0,0,Vector.replicate 7 0⟩
/-- A PWM period at rest at 24 V. -/
def W0 : PwmIn := ⟨0,0,24000,0,0,true⟩
/-- An empty attach block. -/
def A0 : AttachIn := ⟨0,0,0,0,0,0,0⟩
/-- A coefficient set without stages. -/
def E0 : EngSet := ⟨[],none,0,0,false,0,1,5,-5⟩
/-- A good read of a record copy. -/
def R0 : CopyRead := ⟨Vector.replicate 4 ⟨true,0⟩,true⟩

/-! ### Ill-formed operands are refused by WellFormed, one for each of its checks -/

/-- Layer 13 is not used (R42). -/
theorem test_wf_position_layer : WellFormed (.position 0 1 0 13 4 0) = false := by decide
theorem test_wf_position_layer_good : WellFormed (.position 0 1 0 27 4 0) = true := by decide
/-- An axis has modes 0 to 2 (Table 08-4). -/
theorem test_wf_axis_mode : WellFormed (.axisModeWrite 2 3) = false := by decide
/-- A sync search works on 280 symbols (R244). -/
theorem test_wf_sync_window : WellFormed (.syncSearch 0 0 { Y0 with llr := [] }) = false := by decide +kernel
/-- A space and a mark are 2 to 8 channel bits (Table 03-4). -/
theorem test_wf_run_length : WellFormed (.writeWindowOpen 0 #v[[(9, 2)], [], [], []]) = false := by decide +kernel
/-- A codeword carries 2,048 information bytes (R52). -/
theorem test_wf_codeword : WellFormed (.decodeDone 0 true true 8 0 []) = false := by decide
theorem test_wf_checkpoint_layer : WellFormed (.mapCheckpoint 0 12 0) = false := by decide
theorem test_wf_mount_layer :
    WellFormed (.mountStageDone 0 (.checkpoint true 0 (Vector.replicate 24 0) [⟨1, 0, 1, 12, 0, 0, 0, 1, 0, 1, []⟩])) = false := by decide
/-- ATTACH_LO to RESERVED are operations 0 to 4; the reserved ones are 5 to 7 (Table 13-2). -/
theorem test_wf_reserved_op : WellFormed (.nudgeReservedOp 0 4) = false := by decide
/-- A command has at most 4,096 descriptors (Table 13-4). -/
theorem test_wf_descriptors :
    WellFormed (.commandFetch { entry 1 [] with descriptors := List.replicate 4097 default }) = false := by decide +kernel
/-- A burst is 64 B and lies on its boundary (R384). -/
theorem test_wf_burst : WellFormed (.dramBurstRead 32 ⟨[]⟩) = false := by decide
theorem test_wf_victim : WellFormed (.victimWritebackDone 32) = false := by decide
/-- A store keeps within its 64-byte line (R368). -/
theorem test_wf_cache_line : WellFormed (.cacheAccess .queueEngine true 60 [1, 2, 3, 4, 5, 6, 7, 8]) = false := by decide
/-- A cipher unit is 4,096 bytes (R410). -/
theorem test_wf_cipher_unit : WellFormed (.cipherRequest 1 false 0 1 0 0 [1, 2]) = false := by decide
/-- A packet carries at most 512 bytes, in multiples of 4 (R431). -/
theorem test_wf_packet_length : WellFormed (.keepalive { P0 with payload := List.replicate 516 0 }) = false := by decide +kernel
theorem test_wf_packet_multiple : WellFormed (.chainWrite { P0 with payload := [1, 2] }) = false := by decide
/-- Registers are words on 4-byte boundaries (R501). -/
theorem test_wf_register : WellFormed (.registerWrite .pcie 2 0) = false := by decide
theorem test_wf_low_word : WellFormed (.lowWordRead .pcie 2) = false := by decide
theorem test_wf_abort : WellFormed (.completerAbortRead 0 4) = false := by decide +kernel
theorem test_wf_block_write : WellFormed (.smbBlockWrite (List.replicate 256 0) true) = false := by decide +kernel
/-- A reset is always well formed. -/
theorem test_wf_reset : WellFormed .rstNAssert = true := by decide

/-! ### The spec's worked examples, and commands on small states -/

/-- Chapter 02's example of a read of frame 3,000,000: turn 1,372 of Z1, wedge 11, channel bit 487. -/
theorem test_locate_frame : locateFrame 3000000 = some ⟨1372, 11, 487⟩ := by decide +kernel
theorem test_gray_track : gray 5490 = 0x01FCB := by decide
theorem test_ungray_track : ungray 0x01FCB = 5490 := by decide +kernel
/-- Its track lies at 25.098 mm (in 0.2 µm). -/
theorem test_radius : radius 5490 = 125490 := by decide
/-- Chapter 02's example of an extent of 20 data clusters, and of a full one. -/
theorem test_extent_frames : extentFrames 20 0 = 4289 ∧ extentFrames 64 0 = 11021 := by decide
/-- Chapter 21's example: NOTCH_EXP and COMMIT of global head 11's tracking loop. -/
theorem test_register_address : (Blk.eng 11 1).base = 0x00D80400 := by decide +kernel
/-- Chapter 14's example: the line of SQ 12,345's context falls in set 57. -/
theorem test_cache_set : Machine.setOf (0x400C0E40 / 64) = 57 := by decide
/-- The CRC of the first seven words of a status frame, computed by hand from Table 03-6's polynomial. -/
theorem test_status_crc : crc16 [0x1000, 0, 0, 0, 0, 0, 0] = 0x6F9D := by decide +kernel
/-- A step takes the front command, and keeps the rest (an idle module goes on). -/
theorem test_step_order :
    gives (step { on with pending := [.keygenDone, .rstNAssert] }) (fun t => t.pending == [.rstNAssert]) = true := by decide +kernel
/-- Nine requests at one mailbox: the ninth is not taken (R17). -/
theorem test_mailbox_full :
    gives (exec (.position 0 9 0 3 4 0) (bay (fun x => { x with requests := List.replicate 8 (mail (.position 3 4 0) .held) })))
      (fun t => (t.bays[0]).requests.length == 8) = true := by decide +kernel
/-- CANCEL removes the request that it names (R20). -/
theorem test_cancel :
    gives (exec (.cancel 0 1) (bay (fun x => { x with requests := [mail (.readWindow 4 0 8) .held] })))
      (fun t => (t.bays[0]).requests.isEmpty) = true := by decide +kernel
/-- A position in the guard band is rejected (R147). -/
theorem test_position_guard :
    gives (exec (.position 0 1 0 3 209000 0) on) (fun t => (t.bays[0]).requests.isEmpty && (t.bays[0]).reports == [.rejected 1 0]) = true
      := by decide +kernel
/-- Chapter 16's example: the tweak bytes of block 1,020 of namespace 7. -/
theorem test_tweak : tweakBytes 7 1020 = [0xFC, 3, 0, 0, 0, 0, 0, 0, 7, 0, 0, 0, 0, 0, 0, 0] := by decide
/-- One frame whose CRC fails is counted, and takes no lane out of UP (Table 03-7). -/
theorem test_lane_bad_frame :
    gives (exec (.statusFrame 0 0 (Vector.replicate 8 0)) (lane .up)) (fun t => (t.heads[0].lanes[0]).st == .up) = true := by
  decide +kernel
/-- A stop in RUN enters STOP (R180). -/
theorem test_spindle_stop : gives (exec (.spindleStop 0) (spin .run id)) (fun t => (t.spindle 0).st == .stop) = true := by
  decide +kernel
/-- A cleared fault whose test has failed stays (R189). -/
theorem test_clear_fault_refused :
    gives (exec (.spindleClearFault 0) (spin .fault (fun x => { x with testPass := none })))
      (fun t => (t.spindle 0).st == .fault && t.sta (.spindle 0) SPINDLE.cmd_refused == 1) = true := by decide +kernel
/-- A TARGET past pos_max is refused (R207). -/
theorem test_target_refused :
    gives (exec (.axisTargetWrite 0 11)
      (act (axis (.transport 0) .hold (fun x => { x with homed := true })) (.taxis 0) (AXIS.pos_max .transport) 10))
      (fun t => t.sta (.taxis 0) AXIS.cmd_refused == 1 && (t.axis (.transport 0)).st == .hold) = true := by decide +kernel
/-- One quadrature step counts once, in the direction of the edge (R208). -/
theorem test_encoder_count :
    gives (exec (.encoderEdge 0 true false 1000) (on.setFld (.enc 0) ENC.enable 1)) (fun t => (t.encs[0]).count.toInt.natAbs == 1) =
      true := by decide +kernel
/-- Both signals change at once: an error, and no count (R208). -/
theorem test_encoder_error :
    gives (exec (.encoderEdge 0 true true 1000) (on.setFld (.enc 0) ENC.enable 1)) (fun t => (t.encs[0]).count == 0) = true := by
  decide +kernel
/-- A focus sequencer that captures in time is not failed by a late timeout of another state (Table 05-1). -/
theorem test_identify_timeout_elsewhere :
    gives (exec (.identifyTimeout 0) (foc .locked id)) (fun t => (t.heads[0].foc).st == .locked) = true := by decide +kernel
/-- A checker that disagrees with its decoder retires that decoder and sends its codeword back (R281). -/
theorem test_checker_mismatch :
    gives (exec (.decodeDone 0 true false 8 0 (List.replicate 2048 0))
      { on with codewords := [codeword (.decoding 0) 0], decoders := on.decoders.map (fun d => { d with job := some 1 }) })
      (fun t => (t.decoders[0]).st == .retired) = true := by decide +kernel
/-- The last release of a buffer in count mode frees it; the first of two does not (R358). -/
theorem test_release_counted :
    gives (exec (.bufferRelease 0 0 .disc) (({ on with bufs := [⟨⟨0, 0⟩, 0, [.disc, .cipher], 2, none⟩] }).setFld (.pool 0) POOL.release
      1))
      (fun t => t.bufs.any (fun b => b.count == 1)) = true := by decide +kernel
/-- Training that passes makes the channel ACTIVE (Table 15-2). -/
theorem test_training_pass :
    gives (exec (.trainingDone .a true true 100 50) (dram .training .off id)) (fun t => (t.dramCh .a).st == .active) = true := by
  decide +kernel
/-- The first failed training leaves the channel in TRAINING (Table 15-2). -/
theorem test_training_first_failure :
    gives (exec (.trainingDone .a false true 0 0) (dram .training .off id)) (fun t => (t.dramCh .a).st == .training) = true := by
  decide +kernel
/-- An alarm takes READY to ALARM and forgets the KEK (R419). -/
theorem test_alarm :
    gives (exec (.cipherAlarm .shield) (on.modCipher (fun c => { c with st := .ready, kek := some [1] })))
      (fun t => t.cipher.st == .alarm && t.cipher.kek.isNone) = true := by decide +kernel
/-- A packet whose CRC fails is dropped, and the port holds (R428). -/
theorem test_chain_bad_crc :
    gives (exec (.keepalive { P0 with crcOk := false }) (port .up id)) (fun t => t.out.length == on.out.length + 1 || (t.port 0).st ==
      .up) =
      true := by decide +kernel
/-- The low word of DOMAIN alone changes nothing (chapter 21's example); with the high word PD17 is switched off. -/
theorem test_domain_low_word :
    gives (exec (.domainWrite .pcie false 0x000DFFFF) on) (fun t => t.power.on == on.power.on) = true := by decide +kernel
theorem test_domain_high_word :
    gives (exec (.domainWrite .pcie false 0x000DFFFF) on)
      (fun t => gives (exec (.domainWrite .pcie true 0) t) (fun u => !u.power.on.getLsbD 17 && u.power.on.getLsbD 16)) = true := by
  decide +kernel
/-- A sideband status read clears only the overrun bit (Table 20-7). -/
theorem test_smb_status :
    gives (exec .smbStatusRead (on.modMgmt (fun m => { m with smb := { m.smb with done := true, overrun := true } })))
      (fun t => t.mgmt.smb.done && !t.mgmt.smb.overrun) = true := by decide +kernel
/-- RST_N with a command waiting leaves the machine as after reset, and the queue as it was (R526). -/
theorem test_reset :
    gives (exec .rstNAssert { on with pending := [.keygenDone] }) (fun t => !t.mgmt.started && t.pending == [.keygenDone]) = true := by
  decide +kernel
/-- A cold start whose checks all pass ends in full mode (R481). -/
theorem test_cold_start : gives (exec (.coldStart S0) State.reset) (fun t => t.mgmt.started && !t.minimal) = true := by decide +kernel

/-! ### States and operands that meet the hypotheses of the obligations -/

/-- What `Obligations.ShadowCommitCapturesWholeGroup` assumes is met, clause by clause. -/
theorem witness_ShadowCommitCapturesWholeGroup :
  (∃ (s : State) (g : HeadId) (b : BayId) (a : AxisId), (s.answers (Blk.foc g) = true) ∧ (s.answers (Blk.trk g) = true) ∧
    (s.answers (Blk.spindle b) = true) ∧ (s.answers (axisBlk a) = true) ∧ (s.answers (Blk.wr g) = true) ∧
    (s.answers (Blk.vchan g) = true ∧ s.fld (Blk.vchan g) VCHAN.verify_thr ≠ 0)) ∧
  (∃ (s : State), s.answers Blk.decode = true ∧ s.decodeOk = true) :=
  ⟨⟨on, 0, 0, .sled 0, by decide +kernel⟩,
   ⟨on, by decide +kernel⟩⟩

/-- What `Obligations.EngineChannelAndChainCommits` assumes is met, clause by clause. -/
theorem witness_EngineChannelAndChainCommits :
  (∃ (s : State) (g : HeadId) (l : Fin 6), (s.answers (engBlk g l) = true ∧
    s.fldS (engBlk g l) ENG.limit_lo ≤ s.fldS (engBlk g l) ENG.limit_hi ∧ 0 < s.fldS (engBlk g l) ENG.slew ∧
    s.fld (engBlk g l) ENG.stage_count ≤ 8) ∧ (s.answers (engBlk g l) = true) ∧ (s.answers (Blk.chan g) = true ∧ s.chanOk g = true ∧
    s.pdOn ↑(bayOf g) = true)) ∧
  (∃ (s : State) (g : HeadId) (l : Fin 6), s.answers (engBlk g l) = true ∧
    ¬(s.fldS (engBlk g l) ENG.limit_lo ≤ s.fldS (engBlk g l) ENG.limit_hi ∧ 0 < s.fldS (engBlk g l) ENG.slew ∧
    s.fld (engBlk g l) ENG.stage_count ≤ 8)) ∧
  (∃ (s : State) (g : HeadId), (s.answers (Blk.chan g) = true ∧ s.chanOk g = true ∧ s.pdOn ↑(bayOf g) = false) ∧
    (s.answers Blk.chain = true ∧ s.chainOk = true ∧ s.pdOn 17 = false)) ∧
  (∃ (s : State) (g : HeadId), s.answers (Blk.chan g) = true ∧ s.chanOk g = false ∧ Tab.get? s.regs.pend (tagChan g) = none) ∧
  (∃ (s : State), s.answers Blk.chain = true ∧ s.chainOk = false) :=
  ⟨⟨on, 0, 0, by decide +kernel⟩,
   ⟨on.setFld (.eng 0 0) ENG.slew 0, 0, 0, by decide +kernel⟩,
   ⟨{ on with power := { on.power with on := 0, state := 0 } }, 0, by decide +kernel⟩,
   ⟨on.setFld (.chan 0) CHAN.acq_bits 5, 0, by decide +kernel⟩,
   ⟨on.setFld (.win 0) WIN.size 0xFFFFFFFF, by decide +kernel⟩⟩

/-- What `Obligations.ClearStatsZeroesItsCountersAlone` assumes is met, clause by clause. -/
theorem witness_ClearStatsZeroesItsCountersAlone :
  (∃ (s : State) (g : HeadId) (e : EngId) (c : DramChan), (s.answers (Blk.link g) = true) ∧ (s.answers (Blk.eng g e) = true) ∧
    (s.answers (Blk.vchan g) = true) ∧ (s.answers Blk.ccache = true) ∧ (s.answers (Blk.dramc c) = true) ∧
    (s.answers Blk.memprot = true)) ∧
  (∃ (s : State) (g : HeadId), (s.answers Blk.chain = true) ∧ (s.answers Blk.calib = true) ∧ (s.answers (Blk.chan g) = true) ∧
    (s.answers Blk.decode = true) ∧ (s.answers Blk.bufpool = true) ∧ (s.answers Blk.cipher = true)) :=
  ⟨⟨on, 0, 0, .a, by decide +kernel⟩,
   ⟨on, 0, by decide +kernel⟩⟩

/-- What `Obligations.LaneStatesFollowStatusFrames` assumes is met, clause by clause. -/
theorem witness_LaneStatesFollowStatusFrames :
  (∃ (s : State) (g : HeadId) (k : BeamId) (w : Vector (BitVec 16) 8), (s.heads[↑g].lanes[↑k].st = LaneState.up ∧
    frameValid s.heads[↑g].lanes[↑k] k w = true ∧ clearBits (faultBits w[1]) (faultBits s.heads[↑g].lanes[↑k].flags) = 0) ∧
    (s.heads[↑g].lanes[↑k].st = LaneState.up ∧ s.heads[↑g].lanes[↑k].stream = false)) ∧
  (∃ (s : State) (g : HeadId) (k : BeamId) (w : Vector (BitVec 16) 8), (s.heads[↑g].lanes[↑k].st = LaneState.train ∧
    crc16 (List.take 7 w.toList) ≠ w[7]) ∧ (s.heads[↑g].lanes[↑k].st = LaneState.train)) ∧
  (∃ (s : State) (g : HeadId) (k : BeamId), (s.heads[↑g].lanes[↑k].st = LaneState.down ∨ s.heads[↑g].lanes[↑k].st = LaneState.failed) ∧
    (s.windowOpen g = false ∧ Tab.get? s.calib.trials ↑g = none)) ∧
  (∃ (s : State) (g : HeadId), s.answers (Blk.link g) = true ∧ ∀ (k : BeamId), s.heads[↑g].lanes[↑k].stream = false) :=
  ⟨⟨lane .up, 0, 0, #v[0x1000, 0, 0, 0, 0, 0, 0, 0x6F9D], by decide +kernel⟩,
   ⟨lane .train, 0, 0, Vector.replicate _ default, by decide +kernel⟩,
   ⟨State.reset, 0, 0, by decide +kernel⟩,
   ⟨on, 0, by decide +kernel⟩⟩

/-- What `Obligations.StrobesAndMissesOfAnEngine` assumes is met, clause by clause. -/
theorem witness_StrobesAndMissesOfAnEngine :
  (∃ (s : State) (g : HeadId), s.pdOn ↑(bayOf g) = true) ∧
  (∃ (s : State) (g : HeadId) (l : Fin 6), (s.pdOn ↑(bayOf g) = false) ∧ (s.heads[↑g].loops[↑l].sample = none)) ∧
  (∃ (s : State) (g : HeadId) (l : Fin 6), s.heads[↑g].loops[↑l].sample.isSome = true ∧
    ((s.heads[↑g].loops[↑l].sampleIx - 1) :: missesIn s.heads[↑g].loops[↑l].misses (s.heads[↑g].loops[↑l].sampleIx - 1)).length < 50) :=
  ⟨⟨on, 0, by decide +kernel⟩,
   ⟨State.reset, 0, 0, by decide +kernel⟩,
   ⟨head (fun h => { h with loops := h.loops.map (fun l => { l with st := .run, sample := some ⟨5, l.stages, l.notch, 0, 0, false⟩ }) }),
     0, 0, by decide +kernel⟩⟩

/-- What `Obligations.EngineOutputStaysWithinItsLimits` assumes is met, clause by clause. -/
theorem witness_EngineOutputStaysWithinItsLimits :
  (∃ (e : EngSet) (l : LoopSt), (e.lo ≤ e.hi ∧ -131072 ≤ e.lo ∧ e.hi ≤ 131071) ∧ (e.lo ≤ e.hi ∧ -131072 ≤ e.lo ∧ e.hi ≤ 131071 ∧
    0 ≤ e.slew ∧ e.lo ≤ BitVec.toInt l.prevOut ∧ BitVec.toInt l.prevOut ≤ e.hi)) :=
  ⟨E0, LoopSt.reset 0 0, by decide +kernel⟩

/-- What `Obligations.TargetedTestDecidesItsResource` assumes is met, clause by clause. -/
theorem witness_TargetedTestDecidesItsResource :
  (∃ (s : State) (b : BayId), (s.spindle b).st = SpState.fault ∧ (s.spindle b).testPass = none) ∧
  (∃ (s : State) (a : AxisId), (s.axis a).st = AxState.fault ∧ (s.axis a).testPass = none) ∧
  (∃ (s : State) (src : BitVec 16), Tab.get 0 s.srams src.toNat = 1) ∧
  (∃ (s : State) (pass : Bool) (i : Fin 20), pass = false ∧ s.decoders[↑i].st = DecState.retired) ∧
  (∃ (s : State) (pass : Bool) (g : HeadId) (e : EngId), pass = false ∧
    Option.any (fun r => decide (r.failed = false)) (List.find? (fun x => x.phys == 7 * g.val + e.val) s.heads[↑g].retired) = true) ∧
  (∃ (s : State) (i : Fin 8), s.cipher.cores[↑i].st ≠ CoreState.testing) :=
  ⟨⟨spin .fault (fun x => { x with testPass := none }), 0, by decide +kernel⟩,
   ⟨axis (.transport 0) .fault id, .transport 0, by decide +kernel⟩,
   ⟨{ on with srams := [(1, 1)] }, 1, by decide +kernel⟩,
   ⟨{ on with decoders := on.decoders.map (fun d => { d with st := .retired }) }, false, 0, by decide +kernel⟩,
   ⟨head (fun h => { h with retired := [⟨0, false⟩] }), false, 0, 0, by decide +kernel⟩,
   ⟨State.reset, 0, by decide +kernel⟩⟩

/-- What `Obligations.FocusAcquisitionCountsItsAttempts` assumes is met, clause by clause. -/
theorem witness_FocusAcquisitionCountsItsAttempts :
  (∃ (s : State) (g : HeadId), s.answers (Blk.foc g) = true ∧ (s.heads[↑g].foc.st = FocState.off ∨
    s.heads[↑g].foc.st = FocState.failed) ∧ s.headBare g = false ∧ s.pdOn ↑(bayOf g) = true ∧ s.sleds[↑g].homed = true ∧
    s.sas[↑g].homed = true) ∧
  (∃ (s : State) (g : HeadId), (s.answers (Blk.foc g) = true ∧ s.heads[↑g].foc.st ≠ FocState.off ∧
    s.heads[↑g].foc.st ≠ FocState.failed) ∧ (s.heads[↑g].foc.st = FocState.capture)) ∧
  (∃ (s : State) (g : HeadId), s.heads[↑g].foc.st = FocState.identify ∧ s.heads[↑g].foc.waitSpindle = false ∧
    s.heads[↑g].foc.attempts + 1 < s.fld1 (Blk.foc g) FOC.acq_retry) ∧
  (∃ (s : State) (g : HeadId), s.heads[↑g].foc.st = FocState.recapture ∧
    s.heads[↑g].foc.attempts + 1 < s.fld1 (Blk.foc g) FOC.acq_retry) ∧
  (∃ (s : State) (g : HeadId), s.heads[↑g].foc.st = FocState.recapture ∧
    s.fld1 (Blk.foc g) FOC.acq_retry ≤ s.heads[↑g].foc.attempts + 1) ∧
  (∃ (s : State) (g : HeadId), (s.heads[↑g].foc.st ≠ FocState.capture) ∧ (s.heads[↑g].foc.st ≠ FocState.recapture)) :=
  ⟨⟨(List.finRange 6).foldl (fun t l => act t (engBlk 0 l) ENG.slew 77) ([AXIS.vmax .sled, AXIS.amax .sled, AXIS.run_current .sled,
    AXIS.hold_current .sled, AXIS.t_off, AXIS.t_blank, AXIS.fast_rise, AXIS.fast_fall,
    AXIS.hold_delay].foldl (fun t f => act (act t (.sled 0) f 5) (.sa 0) f 5)
    { (((foc .failed id).modSled 0 (fun x => { x with homed := true })).modSa 0 (fun x => { x with homed := true })) with regs := { on.regs with committed := allTags } }),
    0, by decide +kernel⟩,
   ⟨foc .capture id, 0, by decide +kernel⟩,
   ⟨foc .identify (fun x => { x with attempts := 0 }), 0, by decide +kernel⟩,
   ⟨foc .recapture (fun x => { x with attempts := 0 }), 0, by decide +kernel⟩,
   ⟨foc .recapture (fun x => { x with attempts := 100 }), 0, by decide +kernel⟩,
   ⟨State.reset, 0, by decide +kernel⟩⟩

/-- What `Obligations.LayerStepsAndDefectHoldsAreTimed` assumes is met, clause by clause. -/
theorem witness_LayerStepsAndDefectHoldsAreTimed :
  (∃ (s : State) (g : HeadId), s.heads[↑g].foc.st = FocState.jump ∧
    Option.any (fun j => decide (j.phase = JumpPhase.kick)) s.heads[↑g].foc.jump = true) ∧
  (∃ (s : State) (g : HeadId), s.heads[↑g].foc.st = FocState.jump ∧
    Option.any (fun j => decide (j.phase = JumpPhase.coast)) s.heads[↑g].foc.jump = true) ∧
  (∃ (s : State) (g : HeadId), s.heads[↑g].foc.st = FocState.jump ∧
    Option.any (fun j => decide (j.phase = JumpPhase.brake)) s.heads[↑g].foc.jump = true) ∧
  (∃ (s : State) (g : HeadId), s.heads[↑g].foc.st = FocState.jump ∧
    Option.any (fun j => decide (j.phase = JumpPhase.brakeBlind)) s.heads[↑g].foc.jump = true) ∧
  (∃ (s : State) (g : HeadId), s.heads[↑g].foc.st = FocState.jump ∧
    Option.any (fun j => decide (j.phase = JumpPhase.lock)) s.heads[↑g].foc.jump = true) ∧
  (∃ (s : State) (g : HeadId), s.heads[↑g].foc.st = FocState.jump ∧ s.sas[↑g].jumpSeg = false ∧
    Option.any (fun j => decide (j.phase = JumpPhase.settle ∧ (s.heads[↑g].foc.target = none ∨
    s.heads[↑g].foc.target = some j.next))) s.heads[↑g].foc.jump = true) ∧
  (∃ (s : State) (g : HeadId), s.heads[↑g].foc.st = FocState.locked ∧ s.heads[↑g].foc.holdOn = true ∧ s.windowOpen g = false ∧
    Tab.get? s.calib.trials ↑g = none) ∧
  (∃ (s : State) (g : HeadId), s.heads[↑g].foc.st ≠ FocState.locked ∨ s.heads[↑g].foc.holdOn = false) :=
  ⟨⟨foc .jump (fun x => { x with jump := some cell }), 0, by decide +kernel⟩,
   ⟨foc .jump (fun x => { x with jump := some { cell with phase := .coast } }), 0, by decide +kernel⟩,
   ⟨foc .jump (fun x => { x with jump := some { cell with phase := .brake } }), 0, by decide +kernel⟩,
   ⟨foc .jump (fun x => { x with jump := some { cell with phase := .brakeBlind } }), 0, by decide +kernel⟩,
   ⟨foc .jump (fun x => { x with jump := some { cell with phase := .lock } }), 0, by decide +kernel⟩,
   ⟨foc .jump (fun x => { x with jump := some { cell with phase := .settle } }), 0, by decide +kernel⟩,
   ⟨foc .locked (fun x => { x with holdOn := true }), 0, by decide +kernel⟩,
   ⟨State.reset, 0, by decide +kernel⟩⟩

/-- What `Obligations.TrackingTimersFollowTable06_1` assumes is met, clause by clause. -/
theorem witness_TrackingTimersFollowTable06_1 :
  (∃ (s : State) (g : HeadId), s.answers (Blk.trk g) = true ∧ s.heads[↑g].trk.st = TrkState.failed) ∧
  (∃ (s : State) (g : HeadId), s.answers (Blk.trk g) = true ∧ s.heads[↑g].trk.st ≠ TrkState.failed) ∧
  (∃ (s : State) (g : HeadId), s.heads[↑g].trk.st = TrkState.confirm) ∧
  (∃ (s : State) (g : HeadId), (s.heads[↑g].trk.st ≠ TrkState.confirm) ∧ (s.heads[↑g].trk.st ≠ TrkState.jump) ∧
    (s.heads[↑g].trk.st ≠ TrkState.acquire)) ∧
  (∃ (s : State) (g : HeadId), s.heads[↑g].trk.st = TrkState.jump ∧
    Option.any (fun j => decide (j.phase = LensPhase.brake)) s.heads[↑g].trk.lens = true) ∧
  (∃ (s : State) (g : HeadId), s.heads[↑g].trk.st = TrkState.jump ∧
    Option.any (fun j => decide (j.phase = LensPhase.lock)) s.heads[↑g].trk.lens = true) ∧
  (∃ (s : State) (g : HeadId), s.heads[↑g].trk.st = TrkState.jump ∧
    Option.any (fun j => decide (j.phase = LensPhase.kick)) s.heads[↑g].trk.lens = true) ∧
  (∃ (s : State) (g : HeadId), s.heads[↑g].trk.st = TrkState.acquire ∧ s.heads[↑g].trk.running = true) ∧
  (∃ (s : State) (g : HeadId), s.heads[↑g].trk.st = TrkState.acquire) :=
  ⟨⟨trk .failed id, 0, by decide +kernel⟩,
   ⟨on, 0, by decide +kernel⟩,
   ⟨trk .confirm id, 0, by decide +kernel⟩,
   ⟨State.reset, 0, by decide +kernel⟩,
   ⟨trk .jump (fun x => { x with lens := some { lens with phase := .brake } }), 0, by decide +kernel⟩,
   ⟨trk .jump (fun x => { x with lens := some { lens with phase := .lock } }), 0, by decide +kernel⟩,
   ⟨trk .jump (fun x => { x with lens := some lens }), 0, by decide +kernel⟩,
   ⟨trk .acquire (fun x => { x with running := true }), 0, by decide +kernel⟩,
   ⟨trk .acquire id, 0, by decide +kernel⟩⟩

/-- What `Obligations.SeekMovesUnderItsGrant` assumes is met, clause by clause. -/
theorem witness_SeekMovesUnderItsGrant :
  (∃ (s : State) (g : HeadId), s.heads[↑g].trk.st = TrkState.seek ∧ s.heads[↑g].trk.seek = some SeekPhase.waitGrant ∧
    s.seekHeld g = true) ∧
  (∃ (s : State) (g : HeadId), (s.seekHeld g = false) ∧ (s.heads[↑g].trk.seek ≠ some SeekPhase.settling)) ∧
  (∃ (s : State) (g : HeadId), s.heads[↑g].trk.seek = some SeekPhase.settling ∧ s.heads[↑g].trk.st = TrkState.seek) :=
  ⟨⟨{ trk .seek (fun x => { x with seek := some .waitGrant }) with power := { on.power with held := [⟨.seek, 0, 1000⟩] } }, 0,
    by decide +kernel⟩,
   ⟨State.reset, 0, by decide +kernel⟩,
   ⟨trk .seek (fun x => { x with seek := some .settling }), 0, by decide +kernel⟩⟩

/-- What `Obligations.RunoutTablesAreLearntAndFetched` assumes is met, clause by clause. -/
theorem witness_RunoutTablesAreLearntAndFetched :
  (∃ (s : State) (g : HeadId) (l : Fin 3), s.heads[↑g].runout[↑l].blend.isSome = true) ∧
  (∃ (s : State) (g : HeadId) (l : Fin 3), (s.heads[↑g].runout[↑l].blend = none) ∧ (s.heads[↑g].runout[↑l].fetching = false)) ∧
  (∃ (s : State) (g : HeadId) (l : Fin 3), s.focState g ≠ FocState.locked ∧ s.heads[↑g].runout[↑l].fetching = true ∧
    (List.find? (fun y => some y.key == s.heads[↑g].runout[↑l].key) s.runoutStore).isSome = true) ∧
  (∃ (s : State) (g : HeadId) (l : Fin 3), s.heads[↑g].runout[↑l].fetching = true ∧
    List.find? (fun y => some y.key == s.heads[↑g].runout[↑l].key) s.runoutStore = none) ∧
  (∃ (s : State) (g : HeadId), s.answers (Blk.trk g) = true ∧ ∀ (j : Fin 3), s.heads[↑g].runout[↑j].table = TableState.none) :=
  ⟨⟨head (fun h => { h with runout := h.runout.map (fun r => { r with blend := some 3 }) }), 0, 0, by decide +kernel⟩,
   ⟨State.reset, 0, 0, by decide +kernel⟩,
   ⟨{ head (fun h => { h with runout := h.runout.map (fun r => { r with fetching := true, key := some ⟨0, 0, 0, 0, false⟩ }) }) with runoutStore := [⟨⟨0, 0, 0, 0, false⟩, [], none, 0⟩] },
     0, 0, by decide +kernel⟩,
   ⟨head (fun h => { h with runout := h.runout.map (fun r => { r with fetching := true, key := some ⟨0, 0, 0, 0, false⟩ }) }), 0, 0,
     by decide +kernel⟩,
   ⟨on, 0, by decide +kernel⟩⟩

/-- What `Obligations.WedgeTickServesEachHead` assumes is met, clause by clause. -/
theorem witness_WedgeTickServesEachHead :
  (∃ (s : State) (b : BayId), s.pdOn ↑b = true) ∧
  (∃ (s : State) (b : BayId), s.pdOn ↑b = false) :=
  ⟨⟨on, 0, by decide +kernel⟩,
   ⟨State.reset, 0, by decide +kernel⟩⟩

/-- What `Obligations.SpindleStatesFollowTable07_2` assumes is met, clause by clause. -/
theorem witness_SpindleStatesFollowTable07_2 :
  (∃ (s : State) (b : BayId), ((s.spindle b).st = SpState.idle ∨ (s.spindle b).st = SpState.stop) ∧ s.spinHeld b = true ∧
    s.spindleBare b = false ∧ s.t2Inside b = false) ∧
  (∃ (s : State) (b : BayId), ((s.spindle b).st ≠ SpState.idle ∧ (s.spindle b).st ≠ SpState.stop) ∧ ((s.spindle b).st ≠ SpState.sense) ∧
    ((s.spindle b).st ≠ SpState.align) ∧ ((s.spindle b).st ≠ SpState.resync) ∧ ((s.spindle b).st ≠ SpState.stop)) ∧
  (∃ (s : State) (b : BayId) (i : SenseIn), (s.spindle b).st = SpState.sense ∧ i.shuntOk = true ∧
    i.speed < 10 * s.fld (Blk.spindle b) SPINDLE.emf_detect) ∧
  (∃ (s : State) (b : BayId) (i : SenseIn), (s.spindle b).st = SpState.sense ∧ i.shuntOk = true ∧
    10 * s.fld (Blk.spindle b) SPINDLE.emf_detect ≤ i.speed ∧ i.direction = some !s.spReverse b ∧
    i.speed < 10 * s.fld (Blk.spindle b) SPINDLE.handover_rpm) ∧
  (∃ (s : State) (b : BayId), (s.spindle b).st = SpState.align) ∧
  (∃ (s : State) (b : BayId), (s.spindle b).st = SpState.resync) ∧
  (∃ (s : State) (b : BayId), (s.spindle b).st = SpState.stop ∧ (s.spindle b).stopFault = false ∧ (s.spindle b).stopNext = false) ∧
  (∃ (s : State) (b : BayId), (s.spindle b).st = SpState.stop ∧ (s.spindle b).stopFault = false ∧ (s.spindle b).stopNext = true) :=
  ⟨⟨([SPINDLE.pole_pairs, SPINDLE.rs, SPINDLE.ls, SPINDLE.flux, SPINDLE.inertia,
    SPINDLE.accel].foldl (fun t f => t.setFld (.spindle 0) f 1) (act (act
    { spin .idle id with power := { on.power with held := [⟨.spin, 0, 1000⟩] } } (.spindle 0) SPINDLE.cur_bw 1) (.spindle 0)
    SPINDLE.spd_bw 1)), 0, by decide +kernel⟩,
   ⟨State.reset, 0, by decide +kernel⟩,
   ⟨spin .sense id, 0, ⟨0, none, true⟩, by decide +kernel⟩,
   ⟨spin .sense id, 0, ⟨1000, some true, true⟩, by decide +kernel⟩,
   ⟨spin .align id, 0, by decide +kernel⟩,
   ⟨spin .resync id, 0, by decide +kernel⟩,
   ⟨spin .stop id, 0, by decide +kernel⟩,
   ⟨spin .stop (fun x => { x with stopNext := true }), 0, by decide +kernel⟩⟩

/-- What `Obligations.SpindleFaultsStopTheDrive` assumes is met, clause by clause. -/
theorem witness_SpindleFaultsStopTheDrive :
  (∃ (s : State) (b : BayId) (die : Fin 2), ((s.spindle b).st ≠ SpState.off ∧ (s.spindle b).st ≠ SpState.fault) ∧
    ((s.spindle b).st ≠ SpState.off ∧ (s.spindle b).st ≠ SpState.fault ∧ b ∈ dieBays die)) ∧
  (∃ (s : State) (b : BayId), ((s.spindle b).st = SpState.off ∨ (s.spindle b).st = SpState.fault) ∧ ((s.spindle b).st ≠ SpState.brake) ∧
    ((s.spindle b).st ≠ SpState.coast)) ∧
  (∃ (s : State) (b : BayId), (s.spindle b).st = SpState.align ∨ (s.spindle b).st = SpState.ramp ∨ (s.spindle b).st = SpState.run) ∧
  (∃ (s : State) (b : BayId), (s.spindle b).st = SpState.brake) ∧
  (∃ (s : State) (b : BayId), (s.spindle b).st = SpState.coast) ∧
  (∃ (s : State) (b : BayId), s.answers (Blk.spindle b) = true ∧ (s.spindle b).st = SpState.fault ∧ (s.spindle b).testPass = some true) ∧
  (∃ (s : State) (b : BayId), s.answers (Blk.spindle b) = true ∧ (s.spindle b).st = SpState.fault ∧ (s.spindle b).testPass ≠ some true) :=
  ⟨⟨spin .idle id, 0, 0, by decide +kernel⟩,
   ⟨State.reset, 0, by decide +kernel⟩,
   ⟨spin .run id, 0, by decide +kernel⟩,
   ⟨spin .brake id, 0, by decide +kernel⟩,
   ⟨spin .coast id, 0, by decide +kernel⟩,
   ⟨spin .fault (fun x => { x with testPass := some true }), 0, by decide +kernel⟩,
   ⟨spin .fault (fun x => { x with testPass := none }), 0, by decide +kernel⟩⟩

/-- What `Obligations.SpindleRequestsAreServedOrRefused` assumes is met, clause by clause. -/
theorem witness_SpindleRequestsAreServedOrRefused :
  (∃ (s : State) (b : BayId) (v : Bool) (rpm : BitVec 13), (s.answers (Blk.spindle b) = true ∧ ((s.spindle b).st = SpState.idle ∨
    (s.spindle b).st = SpState.stop)) ∧ (s.answers (Blk.spindle b) = true ∧
    (s.spindle b).speed.natAbs ≤ 10 * s.fld (Blk.spindle b) SPINDLE.reverse_rpm ∧ (s.spindle b).st = SpState.idle ∧ s.spReverse b ≠ v) ∧
    (s.answers (Blk.spindle b) = true ∧ (s.spindle b).st = SpState.idle ∧ rpm.toNat ≤ 6000 ∧
    s.fld (Blk.spindle b) SPINDLE.rpm = rpm.toNat)) ∧
  (∃ (s : State) (b : BayId) (rpm : BitVec 13), (s.answers (Blk.spindle b) = true ∧ ((s.spindle b).st = SpState.off ∨
    (s.spindle b).st = SpState.fault)) ∧ (s.answers (Blk.spindle b) = true ∧ ((s.spindle b).st = SpState.off ∨
    (s.spindle b).st = SpState.idle ∨ (s.spindle b).st = SpState.fault)) ∧ (s.answers (Blk.spindle b) = true ∧ 6000 < rpm.toNat)) ∧
  (∃ (s : State) (b : BayId), (s.answers (Blk.spindle b) = true ∧ (s.spindle b).st ≠ SpState.idle ∧ (s.spindle b).st ≠ SpState.stop ∧
    (s.spindle b).st ≠ SpState.off ∧ (s.spindle b).st ≠ SpState.fault) ∧ (s.answers (Blk.spindle b) = true ∧
    (s.spindle b).st ≠ SpState.off ∧ (s.spindle b).st ≠ SpState.idle ∧ (s.spindle b).st ≠ SpState.fault)) ∧
  (∃ (s : State) (b : BayId) (v : Bool), s.answers (Blk.spindle b) = true ∧
    10 * s.fld (Blk.spindle b) SPINDLE.reverse_rpm < (s.spindle b).speed.natAbs ∧ s.spReverse b ≠ v) ∧
  (∃ (s : State) (b : BayId), s.answers (Blk.spindle b) = true ∧ (s.spindle b).st = SpState.run ∧
    (s.spindle b).idRef = -(10 * s.spf b SPINDLE.fw_imax) ∧ s.fwd b (s.spindle b).speed < (s.spindle b).ref / 40) :=
  ⟨⟨spin .idle id, 0, true, 0, by decide +kernel⟩,
   ⟨on, 0, -1, by decide +kernel⟩,
   ⟨spin .run id, 0, by decide +kernel⟩,
   ⟨(spin .run (fun x => { x with speed := 50000 })), 0, true, by decide +kernel⟩,
   ⟨(act (spin .run (fun x => { x with idRef := -1500, ref := 50000 })) (.spindle 0) SPINDLE.fw_imax 1), 0, by decide +kernel⟩⟩

/-- What `Obligations.DriveLoopsRunTheirPeriods` assumes is met, clause by clause. -/
theorem witness_DriveLoopsRunTheirPeriods :
  (∃ (s : State) (b : BayId), ((s.spindle b).st = SpState.off) ∧ ((s.spindle b).st ≠ SpState.run ∧ (s.spindle b).st ≠ SpState.resync ∧
    (s.spindle b).st ≠ SpState.ramp)) ∧
  (∃ (s : State) (b : BayId), (s.spindle b).st ≠ SpState.off) ∧
  (∃ (s : State) (b : BayId) (i : SpeedIn), (s.spindle b).st = SpState.run ∧ (s.adopt (tagSpindle b)).emfLoss b i = false) ∧
  (∃ (s : State) (b : BayId), (s.spindle b).st = SpState.ramp) :=
  ⟨⟨State.reset, 0, by decide +kernel⟩,
   ⟨spin .fault (fun x => { x with testPass := none }), 0, by decide +kernel⟩,
   ⟨spin .run id, 0, V0, by decide +kernel⟩,
   ⟨spin .ramp id, 0, by decide +kernel⟩⟩

/-- What `Obligations.AxesFollowTheirStatesTimersAndTicks` assumes is met, clause by clause. -/
theorem witness_AxesFollowTheirStatesTimersAndTicks :
  (∃ (s : State) (a : AxisId), (s.answers (axisBlk a) = true ∧ (s.axis a).st ≠ AxState.off) ∧ (s.answers (axisBlk a) = true ∧
    (s.axis a).st = AxState.fault ∧ (s.axis a).testPass ≠ some true)) ∧
  (∃ (s : State) (a : AxisId), s.answers (axisBlk a) = true ∧ (s.axis a).st = AxState.disabled ∧
    (s.setFld (axisBlk a) AXIS.enable 1).axisMayEnable a = true) ∧
  (∃ (s : State) (a : AxisId), s.answers (axisBlk a) = true ∧ (s.axis a).st = AxState.hold ∧
    0 < 256 * s.act (axisBlk a) (AXIS.home_dist (axisKind a)) ∧ ∀ (g : HeadId), a ≠ AxisId.sled g ∧ a ≠ AxisId.sa g) ∧
  (∃ (s : State) (a : AxisId), (s.answers (axisBlk a) = true ∧ (s.axis a).st ≠ AxState.hold) ∧ (s.answers (axisBlk a) = true) ∧
    (s.answers (axisBlk a) = true ∧ ((s.axis a).st = AxState.off ∨ (s.axis a).st = AxState.disabled ∨ (s.axis a).st = AxState.fault))) ∧
  (∃ (s : State) (a : AxisId) (ph : Fin 2), s.answers (axisBlk a) = true ∧ ((s.axis a).st = AxState.hold ∨
    (s.axis a).st = AxState.moving ∨ (s.axis a).st = AxState.homing) ∧ openTest s a ph = true) ∧
  (∃ (s : State) (a : AxisId), s.answers (axisBlk a) = true ∧ (s.axis a).st = AxState.fault ∧ (s.axis a).testPass = some true) ∧
  (∃ (s : State) (a : AxisId), (((s.adoptAxis a).axis a).st = AxState.off ∨ ((s.adoptAxis a).axis a).st = AxState.fault) ∧
    ((s.axis a).st ≠ AxState.hold) ∧ ((s.axis a).home ≠ some HomeStep.hold) ∧ ((s.axis a).st = AxState.off ∨
    (s.axis a).st = AxState.disabled ∨ (s.axis a).st = AxState.fault)) ∧
  (∃ (s : State) (a : AxisId) (ph : Fin 2), (((s.adoptAxis a).axis a).st = AxState.hold ∨ ((s.adoptAxis a).axis a).st = AxState.moving) ∧
    ((s.axis a).st = AxState.hold) ∧ (((s.axis a).st = AxState.hold ∨ (s.axis a).st = AxState.moving ∨ (s.axis a).st = AxState.homing) ∧
    openTest s a ph = false)) ∧
  (∃ (s : State) (a : AxisId) (n : Fin 4), (((s.adoptAxis a).axis a).st = AxState.homing) ∧ ((s.axis a).st = AxState.homing ∧
    (s.axis a).home = some HomeStep.hold ∧ a = AxisId.transport n)) :=
  ⟨⟨axis (.transport 0) .fault id, .transport 0, by decide +kernel⟩,
   ⟨axis (.transport 0) .disabled id, .transport 0, by decide +kernel⟩,
   ⟨act (axis (.transport 0) .hold id) (.taxis 0) (AXIS.home_dist .transport) 1, .transport 0, by decide +kernel⟩,
   ⟨on, .sled 0, by decide +kernel⟩,
   ⟨act (axis (.transport 0) .hold id) (.taxis 0) (AXIS.run_current .transport) 0, .transport 0, 0, by decide +kernel⟩,
   ⟨axis (.transport 0) .fault (fun x => { x with testPass := some true }), .transport 0, by decide +kernel⟩,
   ⟨State.reset, .sled 0, by decide +kernel⟩,
   ⟨axis (.transport 0) .hold id, .transport 0, 0, by decide +kernel⟩,
   ⟨axis (.transport 0) .homing (fun x => { x with home := some .hold }), .transport 0, 0, by decide +kernel⟩⟩

/-- What `Obligations.TransportMovesAndModes` assumes is met, clause by clause. -/
theorem witness_TransportMovesAndModes :
  (∃ (s : State) (n : Fin 4) (v : BitVec 32), s.answers (Blk.taxis n) = true ∧ (v.toInt < (s.axPar (AxisId.transport n)).lo ∨
    (s.axPar (AxisId.transport n)).hi < v.toInt)) ∧
  (∃ (s : State) (n : Fin 4), (s.answers (Blk.taxis n) = true ∧ s.trans[↑n].ax.mode = 0 ∧ s.trans[↑n].ax.homed = false) ∧
    (s.answers (Blk.taxis n) = true ∧ s.trans[↑n].ax.mode = 0 ∧ s.trans[↑n].ax.st ≠ AxState.moving) ∧ (s.answers (Blk.taxis n) = true ∧
    s.trans[↑n].ax.st ≠ AxState.moving ∧ s.trans[↑n].ax.st ≠ AxState.homing) ∧ (s.answers (Blk.taxis n) = true)) ∧
  (∃ (s : State) (n : Fin 4) (v : BitVec 32) (m : BitVec 2), (s.answers (Blk.taxis n) = true ∧ n ≠ 2 ∧ s.trans[↑n].ax.mode = 0 ∧
    (s.trans[↑n].ax.st = AxState.hold ∨ s.trans[↑n].ax.st = AxState.moving) ∧ s.trans[↑n].ax.homed = true ∧
    s.trans[↑n].faultHold = false ∧ (s.axPar (AxisId.transport n)).lo ≤ v.toInt ∧ v.toInt ≤ (s.axPar (AxisId.transport n)).hi) ∧
    (s.answers (Blk.taxis n) = true ∧ s.trans[↑n].ax.st ≠ AxState.moving ∧ s.trans[↑n].ax.st ≠ AxState.homing ∧
    s.trans[↑n].ax.homed = true ∧ (m = 0 ∨ m = 2) ∧ m.toNat ≠ s.trans[↑n].ax.mode)) ∧
  (∃ (s : State) (n : Fin 4), s.answers (Blk.taxis n) = true ∧ s.trans[↑n].ax.mode = 0 ∧ s.trans[↑n].ax.st = AxState.moving) ∧
  (∃ (s : State) (n : Fin 4) (g : HeadId), s.answers (Blk.taxis n) = true ∧ s.answers (Blk.sled g) = true ∧
    (s.heads[↑g].trk.st = TrkState.off ∨ s.heads[↑g].trk.st = TrkState.failed) ∧ (s.axis (AxisId.sled g)).st = AxState.hold ∧
    prickBad (s.axPar (AxisId.sled g)) (s.prickTable (Blk.sled g)) = false) ∧
  (∃ (s : State) (n : Fin 4) (g : HeadId), s.answers (Blk.taxis n) = true ∧ s.answers (Blk.sled g) = true ∧
    s.heads[↑g].trk.st = TrkState.follow) :=
  ⟨⟨act (axis (.transport 0) .hold (fun x => { x with homed := true })) (.taxis 0) (AXIS.pos_max .transport) 10, 0, 3000,
    by decide +kernel⟩,
   ⟨on, 0, by decide +kernel⟩,
   ⟨axis (.transport 0) .hold (fun x => { x with homed := true }), 0, 0, 2, by decide +kernel⟩,
   ⟨axis (.transport 0) .moving (fun x => { x with homed := true }), 0, by decide +kernel⟩,
   ⟨((axis (.sled 0) .hold id).setFld (.sled 0) SLSA.pcount 1).setFld (.sled 0) (SLSA.prick_duration 0) 5, 0, 0, by decide +kernel⟩,
   ⟨trk .follow id, 0, 0, by decide +kernel⟩⟩

/-- What `Obligations.EncodersAndStepInputsCount` assumes is met, clause by clause. -/
theorem witness_EncodersAndStepInputsCount :
  (∃ (s : State) (i : Fin 2) (a : Bool) (b : Bool) (since : BitVec 32) (n : Fin 4), (s.trans[2].ax.mode ≠ 1 ∧
    s.fld (Blk.enc i) ENC.enable ≠ 0 ∧ s.fld (Blk.enc i) ENC.invert = 0 ∧ a ≠ s.encs[↑i].a ∧ b = s.encs[↑i].b ∧
    5 * s.fld (Blk.enc i) ENC.filter ≤ since.toNat) ∧ (s.answers (Blk.taxis n) = true ∧ s.trans[↑n].ax.mode ≠ 1)) ∧
  (∃ (s : State) (i : Fin 2) (a : Bool) (b : Bool) (since : BitVec 32), s.trans[2].ax.mode ≠ 1 ∧ s.fld (Blk.enc i) ENC.enable ≠ 0 ∧
    s.fld (Blk.enc i) ENC.invert = 0 ∧ a = s.encs[↑i].a ∧ b ≠ s.encs[↑i].b ∧ 5 * s.fld (Blk.enc i) ENC.filter ≤ since.toNat) ∧
  (∃ (s : State) (i : Fin 2) (a : Bool) (b : Bool) (since : BitVec 32), s.trans[2].ax.mode ≠ 1 ∧ s.fld (Blk.enc i) ENC.enable ≠ 0 ∧
    a ≠ s.encs[↑i].a ∧ b ≠ s.encs[↑i].b ∧ 5 * s.fld (Blk.enc i) ENC.filter ≤ since.toNat) ∧
  (∃ (s : State) (i : Fin 2) (n : Fin 4), (s.fld (Blk.enc i) ENC.enable = 0) ∧ (s.fld (Blk.taxis n) TAXIS.step_edge = 0 ∧
    s.fld (Blk.taxis n) TAXIS.dir_invert = 0 ∧ s.trans[↑n].ax.mode ≠ 2)) ∧
  (∃ (s : State), s.answers (Blk.taxis 2) = true ∧ s.trans[2].ax.mode = 1 ∧ s.masterCount ≠ s.fldS (Blk.taxis 2) TAXIS.switch_at) ∧
  (∃ (s : State), s.answers (Blk.taxis 2) = true ∧ s.trans[2].ax.mode = 1) :=
  ⟨⟨on, 0, true, false, -1, 0, by decide +kernel⟩,
   ⟨on, 0, false, true, -1, by decide +kernel⟩,
   ⟨on, 0, true, true, -1, by decide +kernel⟩,
   ⟨State.reset, 0, 0, by decide +kernel⟩,
   ⟨(axis (.transport 2) .hold (fun x => { x with mode := 1 })).setFld (.taxis 2) TAXIS.switch_at 5, by decide +kernel⟩,
   ⟨axis (.transport 2) .hold (fun x => { x with mode := 1, homed := true }), by decide +kernel⟩⟩

/-- What `Obligations.MailboxTakesAtMostEightRequests` assumes is met, clause by clause. -/
theorem witness_MailboxTakesAtMostEightRequests :
  (∃ (s : State) (b : BayId), 8 ≤ s.bays[↑b].requests.length) ∧
  (∃ (s : State) (b : BayId) (track : BitVec 18) (k : BeamId) (tag : BitVec 16), (s.bays[↑b].requests.length < 8 ∧
    positionMiss track.toNat k = true) ∧ (s.bays[↑b].requests.length < 8) ∧
    (List.find? (fun q => q.tag == tag && !q.opened) s.bays[↑b].requests = none)) ∧
  (∃ (s : State) (b : BayId) (h : Fin 2) (track : BitVec 18) (k : BeamId), s.bays[↑b].requests.length < 8 ∧ s.pdOn ↑b = true ∧
    s.trkState (headOf b h) = TrkState.failed ∧ s.windowOpen (headOf b h) = false ∧ s.focState (headOf b h) ≠ FocState.locked ∧
    positionMiss track.toNat k = false) ∧
  (∃ (s : State) (b : BayId) (track : BitVec 18) (k : BeamId), s.bays[↑b].requests.length < 8 ∧ s.pdOn ↑b = false ∧
    positionMiss track.toNat k = false) ∧
  (∃ (s : State) (b : BayId) (tag : BitVec 16),
    Option.any (fun r => decide (r.isPosition = false)) (List.find? (fun q => q.tag == tag && !q.opened) s.bays[↑b].requests) = true) :=
  ⟨⟨bay (fun x => { x with requests := List.replicate 8 (mail (.position 3 4 0) .held) }), 0, by decide +kernel⟩,
   ⟨State.reset, 0, 0, 1, 0, by decide +kernel⟩,
   ⟨trk .failed id, 0, 0, 0, 0, by decide +kernel⟩,
   ⟨State.reset, 0, 0, 0, by decide +kernel⟩,
   ⟨bay (fun x => { x with requests := [mail (.readWindow 4 0 8) .held] }), 0, 1, by decide +kernel⟩⟩

/-- What `Obligations.BeamsOpenAcquireAndClose` assumes is met, clause by clause. -/
theorem witness_BeamsOpenAcquireAndClose :
  (∃ (s : State) (g : HeadId) (k : BeamId), s.fld (Blk.chan g) CHAN.enable = 1 ∧
    Option.any (fun x => decide (Option.any (fun sl => decide (Option.any (fun disc => decide ((s.beam g k).st = BeamState.idle))
    s.bays[↑(bayOf g)].disc = true)) s.heads[↑g].foc.sl = true)) (s.readWindow? g) = true) ∧
  (∃ (s : State) (g : HeadId) (k : BeamId),
    (Option.any (fun x => decide (Option.any (fun sl => decide (Option.any (fun disc => decide ((s.beam g k).st ≠ BeamState.idle))
    s.bays[↑(bayOf g)].disc = true)) s.heads[↑g].foc.sl = true)) (s.readWindow? g) = true) ∧ ((s.beam g k).st ≠ BeamState.idle ∧
    (s.beam g k).pend = none) ∧ ((s.beam g k).st = BeamState.track ∧ (s.beam g k).defect = none)) ∧
  (∃ (s : State) (g : HeadId) (k : BeamId), (s.readWindow? g = none) ∧ ((s.beam g k).st = BeamState.idle) ∧
    ((s.beam g k).defect = none) ∧ ((s.beam g k).st ≠ BeamState.coast)) ∧
  (∃ (s : State) (g : HeadId) (k : BeamId) (c : BitVec 16), ((s.beam g k).st = BeamState.coast ∧
    Option.any (fun n => decide (c.toNat ≤ 4096)) (s.beam g k).defect = true) ∧ ((s.beam g k).st = BeamState.coast)) ∧
  (∃ (s : State) (g : HeadId) (k : BeamId) (c : BitVec 16), (s.beam g k).st = BeamState.coast ∧
    Option.any (fun n => decide (4096 < c.toNat)) (s.beam g k).defect = true) :=
  ⟨⟨(bay (fun x => { x with requests := [mail (.readWindow 4 0 8) (.running 0)], disc := some 7 })).modHead 0 (fun h =>
    { h with foc := { h.foc with st := .locked, sl := some 3 } }), 0, 0, by decide +kernel⟩,
   ⟨(((bay (fun x => { x with requests := [mail (.readWindow 4 0 8) (.running 0)], disc := some 7 })).modHead 0 (fun h =>
     { h with foc := { h.foc with st := .locked, sl := some 3 } }))).modBeam 0 0 (fun x => { x with st := .track }), 0, 0,
     by decide +kernel⟩,
   ⟨State.reset, 0, 0, by decide +kernel⟩,
   ⟨beam .coast (fun x => { x with defect := some 5 }), 0, 0, 0, by decide +kernel⟩,
   ⟨beam .coast (fun x => { x with defect := some 5 }), 0, 0, -1, by decide +kernel⟩⟩

/-- What `Obligations.HeadersAndSyncsAreJudged` assumes is met, clause by clause. -/
theorem witness_HeadersAndSyncsAreJudged :
  (∃ (s : State) (g : HeadId) (h : HeaderIn) (k : BeamId) (frame : BitVec 32), (s.pdOn ↑(bayOf g) = false ∨
    32 < h.markOffset.toInt.natAbs ∨ headerGood h = false) ∧ ((s.beam g k).st = BeamState.idle) ∧
    (List.find? (fun f => f.head == g && f.beam == k && decide (f.frame = frame.toNat)) s.replay = none)) ∧
  (∃ (s : State) (g : HeadId) (k : BeamId) (h : HeaderIn), s.pdOn ↑(bayOf g) = true ∧ s.heads[↑g].lanes[↑k].stream = false ∧
    h.markOffset.toInt.natAbs ≤ 32 ∧ headerGood h = true) ∧
  (∃ (s : State) (g : HeadId) (k : BeamId), (s.beam g k).st ≠ BeamState.idle ∧ (s.beam g k).next < (s.beam g k).last ∧
    (s.beam g k).pend = none) ∧
  (∃ (s : State) (g : HeadId) (k : BeamId), (s.beam g k).st ≠ BeamState.idle ∧ (s.beam g k).pend.isSome = true) ∧
  (∃ (offset : BitVec 6), 24 < offset.toInt.natAbs) ∧
  (∃ (s : State) (g : HeadId) (k : BeamId) (frame : BitVec 32) (offset : BitVec 6),
    Option.any (fun f => decide (offset.toInt.natAbs ≤ 24)) (List.find? (fun f => f.head == g && f.beam == k && decide (f.frame =
    frame.toNat)) s.replay) = true) :=
  ⟨⟨State.reset, 0, H0, 0, 0, by decide +kernel⟩,
   ⟨on, 0, 0, H0, by decide +kernel⟩,
   ⟨beam .acquire (fun x => { x with next := 0, last := 8 }), 0, 0, by decide +kernel⟩,
   ⟨beam .track (fun x => { x with pend := some ⟨0, false, false, []⟩ }), 0, 0, by decide +kernel⟩,
   ⟨30, by decide +kernel⟩,
   ⟨{ on with replay := [⟨0, 0, 3, 1, .inferred, false, none, 0, [], [], List.replicate 2000 1⟩] }, 0, 0, 1, 0, by decide +kernel⟩⟩

/-- What `Obligations.WriteSessionsStartAndEnd` assumes is met, clause by clause. -/
theorem witness_WriteSessionsStartAndEnd :
  (∃ (s : State) (b : BayId), s.bays[↑b].sess = SessState.slowing ∧ (s.spindle b).atSpeed = true ∧
    s.fld (Blk.spindle b) SPINDLE.rpm = writeRpm ∧ s.writeHeld b = true) ∧
  (∃ (s : State) (b : BayId) (g : HeadId), (s.bays[↑b].sess ≠ SessState.slowing ∨ (s.spindle b).atSpeed = false ∨
    s.writeHeld b = false) ∧ (s.bays[↑(bayOf g)].sess ≠ SessState.writing ∨ s.recordingWaits g = true)) ∧
  (∃ (s : State) (g : HeadId), s.bays[↑(bayOf g)].sess = SessState.writing ∧ s.recordingWaits g = false ∧
    s.wrs[↑(otherHead g)].idle = false) :=
  ⟨⟨({ (bay (fun x => { x with sess := .slowing })).modSpindle 0 (fun x => { x with st := .run, atSpeed := true }) with power := { on.power with held := [⟨.write, 0, 1000⟩] } }).setFld (.spindle 0) SPINDLE.rpm 2700,
    0, by decide +kernel⟩,
   ⟨State.reset, 0, 0, by decide +kernel⟩,
   ⟨((bay (fun x => { x with sess := .writing })).modWr 0 (fun w => { w with idle := true, due := [] })).modWr 1 (fun w =>
     { w with idle := false }), 0, by decide +kernel⟩⟩

/-- What `Obligations.WriteWindowsOpenAndOpcRunsEnd` assumes is met, clause by clause. -/
theorem witness_WriteWindowsOpenAndOpcRunsEnd :
  (∃ (s : State) (g : HeadId), (s.openWrite? g = none) ∧ (s.heads[↑g].foc.sl = none) ∧ (s.wrs[↑g].stream = true ∨ s.hlenHigh g = true ∨
    (s.heads[↑g].lanes.any fun l => l.st != LaneState.up) = true) ∧ (s.bays[↑(bayOf g)].sess ≠ SessState.writing ∨
    s.wrs[↑g].run.isSome = true ∨ s.windowOpen g = true) ∧ (s.wrs[↑g].run = none)) ∧
  (∃ (s : State) (g : HeadId), s.wrs[↑g].stream = false ∧ s.hlenHigh g = false ∧
    (s.heads[↑g].lanes.any fun l => l.st != LaneState.up) = false ∧
    Option.any (fun x => decide (Option.any (fun sl => decide (((List.finRange 4).any fun k => overLevel ((((s.adopt (tagWr g)).adopt
    (tagVchan g)).adoptTrims g [4, 5, 6, 7, 8, 11, 12, 13,
    14]).pLevel g sl k (radius x.1))) = true)) s.heads[↑g].foc.sl = true)) (s.openWrite? g) = true) ∧
  (∃ (s : State) (g : HeadId), s.wrs[↑g].stream = false ∧ s.hlenHigh g = false ∧
    (s.heads[↑g].lanes.any fun l => l.st != LaneState.up) = false ∧ Option.any (fun x => decide (bandOf x.1 ≠ some Band.data ∧
    Option.any (fun sl => decide (((List.finRange 4).any fun k => overLevel ((((s.adopt (tagWr g)).adopt (tagVchan g)).adoptTrims g [4,
    5, 6, 7, 8, 11, 12, 13, 14]).pLevel g sl k (radius x.1))) = false)) s.heads[↑g].foc.sl = true)) (s.openWrite? g) = true) ∧
  (∃ (s : State) (g : HeadId), s.answers (Blk.wr g) = true ∧ s.heads[↑g].foc.sl.isSome = true) ∧
  (∃ (s : State) (g : HeadId), s.answers (Blk.wr g) = true ∧ s.heads[↑g].foc.sl = none) ∧
  (∃ (s : State) (g : HeadId) (turn : BitVec 10), s.bays[↑(bayOf g)].sess = SessState.writing ∧ s.wrs[↑g].run = none ∧
    s.windowOpen g = false ∧ s.opcService g = true ∧
    Option.any (fun sl => decide (Option.any (fun outer => decide (s.opcUsed g sl outer ≤ turn.toNat ∧
    turn.toNat < opcTurns outer)) s.wrs[↑g].due.head? = true)) s.heads[↑g].foc.sl = true) ∧
  (∃ (s : State) (g : HeadId) (outer : Bool) (turn : BitVec 10),
    Option.any (fun sl => decide (turn.toNat < s.opcUsed g sl outer)) s.heads[↑g].foc.sl = true) ∧
  (∃ (s : State) (g : HeadId) (k : BeamId), Option.any (fun run => decide (run.done[↑k] = true)) s.wrs[↑g].run = true) ∧
  (∃ (s : State) (g : HeadId) (k : BeamId) (steps : Vector OpcStep 8), Option.any (fun run => decide (run.done[↑k] = false ∧
    (run.done.set (↑k) true k.isLt).all id = false ∧
    (opcResultOf run.base[↑k] (s.act (Blk.wr g) WR.ber_exp) (s.actS (Blk.wr g) WR.beta_target * 256) steps).isSome = true)) s.wrs[↑g].run
    = true) :=
  ⟨⟨State.reset, 0, by decide +kernel⟩,
   ⟨{ ((bay (fun x => { x with requests := [mail (.writeWindow 0 0 8) (.running 0)], disc := some 7 })).modHead 0 (fun h => { h with foc := { h.foc with st := .locked, sl := some 3 }, lanes := h.lanes.map (fun l => { l with st := .up }) })).setFld (.link 0) LINK.laser_permit 1 with discStore := [⟨7, [], [⟨3, 0, false, 40000, 0, 0⟩]⟩] },
     0, by decide +kernel⟩,
   ⟨((bay (fun x => { x with requests := [mail (.writeWindow 180000 0 8) (.running 0)], disc := some 7 })).modHead 0 (fun h =>
     { h with foc := { h.foc with st := .locked, sl := some 3 }, lanes := h.lanes.map (fun l => { l with st := .up }) })).setFld (.link
     0) LINK.laser_permit 1, 0, by decide +kernel⟩,
   ⟨(bay (fun x => { x with requests := [mail (.readWindow 4 0 8) (.running 0)], disc := some 7 })).modHead 0 (fun h =>
     { h with foc := { h.foc with st := .locked, sl := some 3 } }), 0, by decide +kernel⟩,
   ⟨on, 0, by decide +kernel⟩,
   ⟨(((bay (fun x => { x with sess := .writing })).modHead 0 (fun h =>
     { h with foc := { h.foc with st := .locked, sl := some 3 }, lanes := h.lanes.map (fun l => { l with st := .up }) })).modWr 0 (fun w
     => { w with due := [true] })).setFld (.wr 0) WR.write_enable 1 |>.setFld (.vchan 0) VCHAN.enable 1, 0, 0, by decide +kernel⟩,
   ⟨(foc .locked (fun x => { x with sl := some 3 })).modWr 0 (fun w => { w with used := [(6, 5), (7, 5), (3, 5), (0, 5), (1, 5)] }), 0,
     true, 0, by decide +kernel⟩,
   ⟨(foc .locked (fun x => { x with sl := some 3 })).modWr 0 (fun w =>
     { w with run := some ⟨3, true, 0, Vector.replicate 4 false, Vector.replicate 4 10000, Vector.replicate 4 true⟩ }), 0, 0,
     by decide +kernel⟩,
   ⟨act (act ((foc .locked (fun x => { x with sl := some 3 })).modWr 0 (fun w =>
     { w with run := some ⟨3, true, 0, Vector.replicate 4 false, Vector.replicate 4 10000, Vector.replicate 4 false⟩ })) (.wr 0)
     WR.beta_target 0) (.wr 0) WR.ber_exp 0, 0, 0, Vector.replicate 8 ⟨0, 1, 0⟩, by decide +kernel⟩⟩

/-- What `Obligations.VerifyVerdictsCountAndDecide` assumes is met, clause by clause. -/
theorem witness_VerifyVerdictsCountAndDecide :
  (∃ (s : State) (seq : BitVec 64), s.extentBySeq seq = none) ∧
  (∃ (s : State) (seq : BitVec 64) (cluster : Fin 72) (cw : Fin 32) (w : BitVec 12),
    Option.any (fun e => decide (Option.any (fun c => decide (s.awaitsVerdict e c = true ∧
    (c.ok ||| BitVec.ofNat 32 (2 ^ cw.val)) ≠ BitVec.allOnes 32 ∧
    w.toNat ≤ s.act (Blk.vchan e.head) VCHAN.verify_thr)) e.clusters[↑cluster]? = true)) (s.extentBySeq seq) = true) ∧
  (∃ (s : State) (seq : BitVec 64) (cluster : Fin 72) (w : BitVec 12),
    Option.any (fun e => decide (Option.any (fun c => decide (s.awaitsVerdict e c = true ∧
    s.act (Blk.vchan e.head) VCHAN.verify_thr < w.toNat)) e.clusters[↑cluster]? = true)) (s.extentBySeq seq) = true) ∧
  (∃ (s : State) (seq : BitVec 64),
    Option.any (fun e => decide (Option.any (fun r => decide (r.verified = true)) e.record = true)) (s.extentBySeq seq) = true) ∧
  (∃ (s : State) (seq : BitVec 64) (copies : Vector CopyRead 4),
    Option.any (fun e => decide (Option.any (fun r => decide (r.verified = false ∧
    (copies.all fun c => copyOk c (s.act (Blk.vchan e.head) VCHAN.rec_sym_max)) = true)) e.record = true)) (s.extentBySeq seq) = true) :=
  ⟨⟨State.reset, 0, by decide +kernel⟩,
   ⟨{ on with extents := [extent .written none] }, 1, 0, 0, 0, by decide +kernel⟩,
   ⟨{ on with extents := [extent .written none] }, 1, 0, -1, by decide +kernel⟩,
   ⟨{ on with extents := [extent .written (some (record true))] }, 1, by decide +kernel⟩,
   ⟨{ on with extents := [extent .written (some (record false))] }, 1, Vector.replicate _ R0, by decide +kernel⟩⟩

/-- What `Obligations.AnchorsAndCheckpointsWhenDue` assumes is met, clause by clause. -/
theorem witness_AnchorsAndCheckpointsWhenDue :
  (∃ (s : State) (b : BayId), s.mounts[↑b].st = MountState.mounted ∧ s.mounts[↑b].ckptDue = true) ∧
  (∃ (s : State) (b : BayId), (s.mounts[↑b].st ≠ MountState.mounted ∨ s.mounts[↑b].ckptDue = false) ∧
    (s.mounts[↑b].st ≠ MountState.mounted)) ∧
  (∃ (s : State) (b : BayId), s.mounts[↑b].st = MountState.mounted ∧ s.mounts[↑b].anchorDue = true ∧ s.mounts[↑b].unloadAsked = false) :=
  ⟨⟨mount .mounted (fun m => { m with ckptDue := true, highestSeq := 9 }), 0, by decide +kernel⟩,
   ⟨State.reset, 0, by decide +kernel⟩,
   ⟨mount .mounted (fun m => { m with anchorDue := true }), 0, by decide +kernel⟩⟩

/-- What `Obligations.DecodersTakeAndReleaseCodewords` assumes is met, clause by clause. -/
theorem witness_DecodersTakeAndReleaseCodewords :
  (∃ (s : State) (i : Fin 20), (s.decoders[↑i].st ≠ DecState.active ∨ s.decoders[↑i].job.isSome = true ∨ s.pdOn 15 = false) ∧
    (s.decoders[↑i].job = none)) ∧
  (∃ (s : State) (i : Fin 20), s.pdOn 15 = true ∧ Option.any (fun c => decide (s.decoders[↑i].st = DecState.active ∧
    s.decoders[↑i].job = none)) (s.adopt 2048).nextCodeword = true) ∧
  (∃ (s : State) (i : Fin 20), s.pdOn 15 = true ∧ (s.adopt 2048).nextCodeword = none ∧ s.decoders[↑i].st = DecState.active ∧
    s.decoders[↑i].job = none) ∧
  (∃ (s : State) (i : Fin 20), s.fld Blk.decode DECODE.spare_permit = 0 ∧ (s.resError (srcDecoder ↑i)).1 = false ∧
    s.decoders[↑i].job.isSome = true) ∧
  (∃ (s : State) (i : Fin 20),
    Option.any (fun id => decide (Option.any (fun c => decide (c.stop = false)) (List.find? (fun x => x.id == id) s.codewords) = true))
    s.decoders[↑i].job = true) :=
  ⟨⟨State.reset, 0, by decide +kernel⟩,
   ⟨{ on with codewords := [codeword .ready 0] }, 0, by decide +kernel⟩,
   ⟨on, 0, by decide +kernel⟩,
   ⟨{ (on.setFld .decode DECODE.spare_permit 0) with decoders := on.decoders.map (fun d => { d with job := some 1 }) }, 0,
     by decide +kernel⟩,
   ⟨{ on with codewords := [codeword (.decoding 0) 0], decoders := on.decoders.map (fun d => { d with job := some 1 }) }, 0,
     by decide +kernel⟩⟩

/-- What `Obligations.LadderAndSweepFollowTheirCodeword` assumes is met, clause by clause. -/
theorem witness_LadderAndSweepFollowTheirCodeword :
  (∃ (s : State) (w : BitVec 64) (g : HeadId), (List.find? (fun c => c.id == w.toNat) s.codewords = none) ∧
    (Tab.get? s.sweeps ↑g = none)) ∧
  (∃ (s : State) (w : BitVec 64), Option.any (fun c => decide (c.step = 0 ∨ c.step = 7 ∨
    c.phase = CwPhase.converged)) (List.find? (fun c => c.id == w.toNat) s.codewords) = true) ∧
  (∃ (s : State) (w : BitVec 64), Option.any (fun c => decide (1 ≤ c.step ∧ c.step ≤ 4 ∧
    c.phase ≠ CwPhase.converged)) (List.find? (fun c => c.id == w.toNat) s.codewords) = true) ∧
  (∃ (s : State) (g : HeadId), Option.any (fun x => decide (x.settling = true ∧
    List.find? (fun c => c.id == x.cw) s.codewords = none)) (Tab.get? s.sweeps ↑g) = true) :=
  ⟨⟨State.reset, 0, 0, by decide +kernel⟩,
   ⟨{ on with codewords := [codeword .ready 0] }, 1, by decide +kernel⟩,
   ⟨{ on with codewords := [codeword .ladder 1] }, 1, by decide +kernel⟩,
   ⟨{ on with sweeps := [(0, ⟨1, 0, [], true⟩)] }, 0, by decide +kernel⟩⟩

/-- What `Obligations.MountsRunTheirStagesInOrder` assumes is met, clause by clause. -/
theorem witness_MountsRunTheirStagesInOrder :
  (∃ (s : State) (b : BayId), s.committedOnce 2048 = true ∧ s.mounts[↑b].st = MountState.none) ∧
  (∃ (s : State) (b : BayId) (r : MountRead), (s.mounts[↑b].st ≠ MountState.none ∨ s.committedOnce 2048 = false) ∧
    (s.mounts[↑b].st ≠ MountState.mounting ∨ s.mounts[↑b].stage ≠ readStage r)) ∧
  (∃ (s : State) (b : BayId), s.mounts[↑b].st = MountState.mounting ∧ s.mounts[↑b].stage = 1) ∧
  (∃ (s : State) (b : BayId), s.mounts[↑b].st = MountState.mounting ∧ s.mounts[↑b].stage = 2) ∧
  (∃ (s : State) (b : BayId), s.mounts[↑b].st = MountState.mounting) ∧
  (∃ (s : State) (b : BayId), s.mounts[↑b].st = MountState.mounted) ∧
  (∃ (s : State) (b : BayId), s.mounts[↑b].st = MountState.readOnly) :=
  ⟨⟨{ (foc .failed id).modSled 0 (fun x => { x with homed := true }) with regs := { on.regs with committed := allTags } }, 0,
    by decide +kernel⟩,
   ⟨State.reset, 0, .decided, by decide +kernel⟩,
   ⟨mount .mounting (fun m => { m with stage := 1 }), 0, by decide +kernel⟩,
   ⟨mount .mounting (fun m => { m with stage := 2 }), 0, by decide +kernel⟩,
   ⟨mount .mounting id, 0, by decide +kernel⟩,
   ⟨mount .mounted (fun m => { m with ckptDue := true, highestSeq := 9 }), 0, by decide +kernel⟩,
   ⟨mount .readOnly id, 0, by decide +kernel⟩⟩

/-- What `Obligations.HostLinkResetsAndPresence` assumes is met, clause by clause. -/
theorem witness_HostLinkResetsAndPresence :
  (∃ (s : State) (f : FuncId), (s.host.active = true ∧ s.present f = true ∧ ↑f ≠ 0) ∧ (s.minimal = false ∧ s.host.active = true ∧
    s.host.vfEnable = true)) ∧
  (∃ (s : State) (f : FuncId), (s.host.active = false ∨ s.present f = false) ∧ (s.host.active = true) ∧ (s.minimal = false ∧
    s.host.active = true)) ∧
  (∃ (s : State), s.host.active = false) ∧
  (∃ (s : State), s.minimal = true ∨ s.host.active = false) :=
  ⟨⟨{ on with host := { on.host with vfEnable := true } }, 1, by decide +kernel⟩,
   ⟨State.reset, 1, by decide +kernel⟩,
   ⟨{ on with host := { on.host with active := false } }, by decide +kernel⟩,
   ⟨{ State.reset with minimal := true }, by decide +kernel⟩⟩

/-- What `Obligations.MsixEntriesHoldWhatIsWritten` assumes is met, clause by clause. -/
theorem witness_MsixEntriesHoldWhatIsWritten :
  (∃ (s : State) (f : FuncId) (v : BitVec 11), s.host.active = true ∧ s.present f = true ∧ vectorCount f ≤ v.toNat) ∧
  (∃ (s : State) (f : FuncId) (v : BitVec 11) (word : BitVec 2) (value : BitVec 32), (s.host.active = true ∧ s.present f = true ∧
    v.toNat < vectorCount f ∧ ((s.msixEntry f v.toNat).write word.toNat value).pend = false) ∧ (s.host.active = true ∧
    s.present f = true ∧ word = 0) ∧ (s.host.active = true ∧ s.present f = true ∧ s.listedVectors f = [])) ∧
  (∃ (s : State) (f : FuncId) (v : BitVec 11) (word : BitVec 2) (value : BitVec 32), s.host.active = true ∧ s.present f = true ∧
    (s.msixFn f).fmask = false ∧ (s.msixFn f).enable = true ∧ v.toNat < vectorCount f ∧
    ((s.msixEntry f v.toNat).write word.toNat value).pend = true ∧ ((s.msixEntry f v.toNat).write word.toNat value).mask = false) ∧
  (∃ (s : State) (f : FuncId) (word : BitVec 2), s.host.active = true ∧ s.present f = true ∧ word = 2) ∧
  (∃ (s : State) (f : FuncId) (word : BitVec 2), s.host.active = true ∧ s.present f = true ∧ word = 3) :=
  ⟨⟨{ on with host := { on.host with vfEnable := true } }, 1, -1, by decide +kernel⟩,
   ⟨State.reset, 0, 0, 0, 0, by decide +kernel⟩,
   ⟨{ on with host := { on.host with vfEnable := true }, msixFns := [(0, ⟨true, false⟩)], msix := [(0, ⟨0, 0, false, true⟩)] }, 0, 0, 0,
     0, by decide +kernel⟩,
   ⟨State.reset, 0, 2, by decide +kernel⟩,
   ⟨State.reset, 0, -1, by decide +kernel⟩⟩

/-- What `Obligations.AttachDetachAndNudges` assumes is met, clause by clause. -/
theorem witness_AttachDetachAndNudges :
  (∃ (s : State) (f : FuncId), s.nudgeable f = false) ∧
  (∃ (s : State) (f : FuncId) (blk : AttachIn) (op : BitVec 3), (s.nudgeable f = true) ∧ (s.nudgeable f = true ∧
    s.attachOk f blk = false) ∧ (s.nudgeable f = true ∧ (s.func f).st ≠ FState.attached) ∧ ((s.func f).st ≠ FState.detaching) ∧
    (s.nudgeable f = true ∧ 5 ≤ op.toNat)) ∧
  (∃ (s : State) (f : FuncId) (blk : AttachIn), s.nudgeable f = true ∧ s.attachOk f blk = true) ∧
  (∃ (s : State) (f : FuncId), s.nudgeable f = true ∧ (s.func f).st = FState.attached ∧ ∀ c ∈ s.cmds, c.f ≠ f) ∧
  (∃ (s : State) (f : FuncId), (s.func f).st = FState.detaching) ∧
  (∃ (s : State) (f : FuncId) (q : BitVec 18), (s.nudgeable f = true ∧ (s.sq? f q.toNat).isSome = true) ∧ (s.nudgeable f = true ∧
    (s.cq? f q.toNat).isSome = true)) :=
  ⟨⟨State.reset, 1, by decide +kernel⟩,
   ⟨State.reset, 0, A0, -1, by decide +kernel⟩,
   ⟨on, 0, ⟨0, 0, 0, 0, 1, 1, 0⟩, by decide +kernel⟩,
   ⟨{ on with funcs := [(0, { Func.reset with st := .attached })] }, 0, by decide +kernel⟩,
   ⟨{ on with funcs := [(0, { Func.reset with st := .detaching, grace := some 0 })] }, 0, by decide +kernel⟩,
   ⟨{ on with sqs := [⟨0, 0, 0, 2, 0, false, 0, 0, 0, false, none, false⟩], cqs := [⟨0, 0, 0, 2, 0, 0, 0, 0, 0, true, 0, false, [], 0⟩] },
     0, 0, by decide +kernel⟩⟩

/-- What `Obligations.QueuesPollFetchAndPost` assumes is met, clause by clause. -/
theorem witness_QueuesPollFetchAndPost :
  (∃ (s : State) (f : FuncId) (line : BitVec 12) (sq : Bool), s.host.active = true ∧
    Option.any (fun l => decide (l.parked = false)) (s.line? f sq line.toNat) = true) ∧
  (∃ (s : State) (f : FuncId) (line : BitVec 12) (sq : Bool), (s.line? f sq line.toNat = none ∨ s.host.active = false) ∧
    (s.arb.paused = true ∨ s.host.active = false ∨ s.pick = none)) ∧
  (∃ (s : State) (e : EntryIn), s.arb.paused = false ∧ s.host.active = true ∧ Option.any (fun p => decide (p.sq.q = 0 ∨ e.opcode ≠ 2 ∨
    s.overlapUsed < 65536)) s.pick = true) ∧
  (∃ (s : State) (id : BitVec 64), Option.any (fun c => decide (c.stage = Stage.ended ∧ c.posts = true ∧ s.nextToPost c = true ∧
    (s.cqs.any fun x => x.held.any fun y => y.cmd == some c.id) = false ∧ (s.cmdCq c).isSome = true)) (s.cmd? id.toNat) = true) ∧
  (∃ (s : State) (id : BitVec 64), Option.any (fun c => decide (c.stage ≠ Stage.ended ∨ c.posts = false ∨
    s.nextToPost c = false)) (s.cmd? id.toNat) = true) ∧
  (∃ (s : State) (f : FuncId) (q : BitVec 18), Option.any (fun x => decide (x.unsig ≠ 0 ∧ x.aggTime ≠ 0)) (s.cq? f q.toNat) = true) ∧
  (∃ (s : State) (f : FuncId) (q : BitVec 18), Option.any (fun x => decide (x.unsig = 0 ∨ x.aggTime = 0)) (s.cq? f q.toNat) = true) :=
  ⟨⟨{ on with lines := [⟨0, true, 0, 1, 0, false, false⟩] }, 0, 0, true, by decide +kernel⟩,
   ⟨State.reset, 0, 0, true, by decide +kernel⟩,
   ⟨{ on with funcs := [(0, { Func.reset with st := .attached })], sqs := [⟨0, 1, 0, 8, 1, false, 0, 1, 0, false, none, false⟩], cqs := [⟨0, 1, 0, 8, 0, 0, 0, 0, 0, true, 0, false, [], 0⟩] },
     entry 9 [], by decide +kernel⟩,
   ⟨{ doing { cmd 1 9 [] with stage := .ended } with sqs := [⟨0, 1, 0, 8, 1, false, 0, 1, 0, false, none, false⟩], cqs := [⟨0, 1, 0, 8, 0, 0, 0, 0, 0, true, 0, false, [], 0⟩] },
     1, by decide +kernel⟩,
   ⟨doing (cmd 1 1 []), 1, by decide +kernel⟩,
   ⟨{ on with cqs := [⟨0, 1, 0, 8, 0, 0, 5, 0, 0, true, 0, false, [], 1⟩] }, 0, 1, by decide +kernel⟩,
   ⟨{ on with sqs := [⟨0, 0, 0, 2, 0, false, 0, 0, 0, false, none, false⟩], cqs := [⟨0, 0, 0, 2, 0, 0, 0, 0, 0, true, 0, false, [], 0⟩] },
     0, 0, by decide +kernel⟩⟩

/-- What `Obligations.IoCommandsResolveTransferAndEnd` assumes is met, clause by clause. -/
theorem witness_IoCommandsResolveTransferAndEnd :
  (∃ (s : State) (id : BitVec 64), s.cmd? id.toNat = none) ∧
  (∃ (s : State) (id : BitVec 64), Option.any (fun c => decide (c.isRead = true ∧ c.stage = Stage.running)) (s.cmd? id.toNat) = true) ∧
  (∃ (s : State) (id : BitVec 64), (Option.any (fun c => decide (c.isWrite = true ∧ c.stage = Stage.running ∧
    (c.units.all fun u => u == UnitSt.todo) = true)) (s.cmd? id.toNat) = true) ∧ (Option.any (fun c => decide (c.isWrite = true ∧
    c.stage = Stage.running)) (s.cmd? id.toNat) = true)) ∧
  (∃ (s : State) (id : BitVec 64), Option.any (fun c => decide (c.isWrite = true ∧ c.stage = Stage.dataIn)) (s.cmd? id.toNat) = true) ∧
  (∃ (s : State) (id : BitVec 64), Option.any (fun c => decide (c.admin = false ∧ c.e.opcode = 3 ∧ c.stage = Stage.running ∧
    s.onReadOnly c.e.nsid = false ∧ c.waitFor = [] ∧ c.anchors = [] ∧ (specByte c.e 36 ≠ 1 ∨
    s.discsSinceAnchor = []))) (s.cmd? id.toNat) = true) ∧
  (∃ (s : State) (id : BitVec 64), s.discsSinceAnchor ≠ [] ∧ Option.any (fun c => decide (c.admin = false ∧ c.e.opcode = 3 ∧
    c.stage = Stage.running ∧ s.onReadOnly c.e.nsid = false ∧ c.waitFor = [] ∧ c.anchors = [] ∧
    specByte c.e 36 = 1)) (s.cmd? id.toNat) = true) ∧
  (∃ (s : State) (id : BitVec 64), (Option.any (fun c => decide (c.admin = false ∧ c.e.opcode = 3 ∧ c.stage = Stage.running ∧
    s.onReadOnly c.e.nsid = false ∧ c.waitFor ≠ [])) (s.cmd? id.toNat) = true) ∧
    (Option.any (fun c => decide (c.waitFor ≠ [])) (s.cmd? id.toNat) = true)) ∧
  (∃ (s : State) (id : BitVec 64), Option.any (fun c => decide (c.isFence = true ∧ c.stage = Stage.running ∧
    c.waitFor = [])) (s.cmd? id.toNat) = true) :=
  ⟨⟨State.reset, 0, by decide +kernel⟩,
   ⟨doing (cmd 1 1 []), 1, by decide +kernel⟩,
   ⟨doing (cmd 1 2 []), 1, by decide +kernel⟩,
   ⟨doing { cmd 1 2 [] with stage := .dataIn }, 1, by decide +kernel⟩,
   ⟨doing (cmd 1 3 []), 1, by decide +kernel⟩,
   ⟨{ doing (cmd 1 3 [1]) with mounts := vmod on.mounts (0 : BayId) (fun m => { m with st := .mounted, sinceAnchor := 1 }), bays := vmod on.bays (0 : BayId) (fun x => { x with disc := some 7 }) },
     1, by decide +kernel⟩,
   ⟨doing { cmd 1 3 [] with waitFor := [5] }, 1, by decide +kernel⟩,
   ⟨doing (cmd 1 4 []), 1, by decide +kernel⟩⟩

/-- What `Obligations.EndingACommandRecordsItsStatus` assumes is met, clause by clause. -/
theorem witness_EndingACommandRecordsItsStatus :
  (∃ (s : State) (id : ℕ), s.cmd? id = none) ∧
  (∃ (s : State) (id : ℕ), Option.any (fun c => decide (c.stage = Stage.ended)) (s.cmd? id) = true) ∧
  (∃ (s : State) (id : ℕ), Option.any (fun c => decide (c.stage ≠ Stage.ended ∧ c.isRead = false ∧ c.isWrite = false ∧
    c.isFence = false ∧ c.req ≠ 2049 ∧ c.noPost = false ∧ ∀ x ∈ s.cmds, x.req = c.req → x.onQuota = false)) (s.cmd? id) = true) :=
  ⟨⟨State.reset, 0, by decide +kernel⟩,
   ⟨doing { cmd 1 9 [] with stage := .ended }, 1, by decide +kernel⟩,
   ⟨doing (cmd 1 3 []), 1, by decide +kernel⟩⟩

/-- What `Obligations.QueuesAreCreatedAndDeleted` assumes is met, clause by clause. -/
theorem witness_QueuesAreCreatedAndDeleted :
  (∃ (s : State) (id : BitVec 64), Option.any (fun c => decide (s.createCqStatus c = 0)) (s.adminCmd? id 128) = true) ∧
  (∃ (s : State) (id : BitVec 64), Option.any (fun c => decide (s.createCqStatus c ≠ 0)) (s.adminCmd? id 128) = true) ∧
  (∃ (s : State) (id : BitVec 64), Option.any (fun c => decide (s.createSqStatus c = 0)) (s.adminCmd? id 129) = true) ∧
  (∃ (s : State) (id : BitVec 64), Option.any (fun c => decide (s.createSqStatus c ≠ 0)) (s.adminCmd? id 129) = true) ∧
  (∃ (s : State) (id : BitVec 64), Option.any (fun c => decide (specLe c.e 36 4 = 0 ∨
    s.sq? c.f (specLe c.e 36 4) = none)) (s.adminCmd? id 130) = true) ∧
  (∃ (s : State) (id : BitVec 64), (∀ x ∈ s.cqs, x.held = []) ∧ Option.any (fun c => decide (specLe c.e 36 4 ≠ 0 ∧
    (s.sq? c.f (specLe c.e 36 4)).isSome = true ∧ ∀ x ∈ s.cmds, x.f = c.f → x.sq ≠ specLe c.e 36 4)) (s.adminCmd? id 130) = true) ∧
  (∃ (s : State) (id : BitVec 64), Option.any (fun c => decide (specLe c.e 36 4 = 0 ∨
    s.cq? c.f (specLe c.e 36 4) = none)) (s.adminCmd? id 131) = true) ∧
  (∃ (s : State) (id : BitVec 64), Option.any (fun c => decide (specLe c.e 36 4 ≠ 0 ∧ s.cq? c.f (specLe c.e 36 4) ≠ none ∧
    (s.sqs.any fun x => x.f == c.f && x.cq == specLe c.e 36 4) = true)) (s.adminCmd? id 131) = true) ∧
  (∃ (s : State) (id : BitVec 64), Option.any (fun c => decide (specLe c.e 36 4 ≠ 0 ∧ s.cq? c.f (specLe c.e 36 4) ≠ none ∧
    (s.sqs.any fun x => x.f == c.f && x.cq == specLe c.e 36 4) = false)) (s.adminCmd? id 131) = true) :=
  ⟨⟨(doing (cmd 0 0x80 [1, 0, 0, 0, 63])).setFld (.func 0) (FUNC.count 0) 2, 1, by decide +kernel⟩,
   ⟨doing (cmd 0 0x80 []), 1, by decide +kernel⟩,
   ⟨{ (doing (cmd 0 0x81 [1, 0, 0, 0, 63, 0, 0, 0, 1])).setFld (.func 0) (FUNC.count 0) 2 with cqs := [⟨0, 1, 0, 2, 0, 0, 0, 0, 0, true, 0, false, [], 0⟩] },
     1, by decide +kernel⟩,
   ⟨doing (cmd 0 0x81 []), 1, by decide +kernel⟩,
   ⟨doing (cmd 0 0x82 []), 1, by decide +kernel⟩,
   ⟨{ doing (cmd 0 0x82 [1]) with sqs := [⟨0, 1, 0, 2, 0, false, 0, 0, 0, false, none, false⟩] }, 1, by decide +kernel⟩,
   ⟨doing (cmd 0 0x83 []), 1, by decide +kernel⟩,
   ⟨{ doing (cmd 0 0x83 [1]) with cqs := [⟨0, 1, 0, 2, 0, 0, 0, 0, 0, true, 0, false, [], 0⟩], sqs := [⟨0, 1, 0, 2, 1, false, 0, 0, 0, false, none, false⟩] },
     1, by decide +kernel⟩,
   ⟨{ doing (cmd 0 0x83 [1]) with cqs := [⟨0, 1, 0, 2, 0, 0, 0, 0, 0, true, 0, false, [], 0⟩] }, 1, by decide +kernel⟩⟩

/-- What `Obligations.SelfTestsMeteringAndActivation` assumes is met, clause by clause. -/
theorem witness_SelfTestsMeteringAndActivation :
  (∃ (s : State) (id : BitVec 64), s.selfTest = none ∧ Option.any (fun c => decide (specByte c.e 36 = 1)) (s.adminCmd? id 132) = true) ∧
  (∃ (s : State) (id : BitVec 64), s.selfTest = none ∧ Option.any (fun c => decide (specByte c.e 36 = 2)) (s.adminCmd? id 132) = true) ∧
  (∃ (s : State) (id : BitVec 64), (Option.any (fun x => decide (Option.any (fun c => decide (specByte c.e 36 = 1 ∧
    x.cmd ≠ c.id)) (s.adminCmd? id 132) = true)) s.selfTest = true) ∧
    (Option.any (fun x => decide (x.suspended = false)) s.selfTest = true)) ∧
  (∃ (s : State) (id : BitVec 64), Option.any (fun c => decide (specByte c.e 36 = 15)) (s.adminCmd? id 132) = true) ∧
  (∃ (s : State), (s.ioOutstanding = false ∧ Option.any (fun x => decide (x.suspended = true)) s.selfTest = true) ∧
    (Option.any (fun x => decide (x.suspended = true)) s.selfTest = true)) ∧
  (∃ (s : State), (s.selfTest = none) ∧ (s.mgmt.act = none) ∧ (s.mgmt.newAct = false)) ∧
  (∃ (s : State) (id : BitVec 64), (s.adminCmd? id 133).isSome = true) ∧
  (∃ (s : State) (id : BitVec 64), Option.any (fun c => decide (s.activation c = none)) (s.adminCmd? id 136) = true) ∧
  (∃ (s : State) (id : BitVec 64), s.pdOn 19 = true ∧
    Option.any (fun c => decide ((s.activation c).isSome = true)) (s.adminCmd? id 136) = true) ∧
  (∃ (s : State), s.mgmt.act.isSome = true) ∧
  (∃ (s : State), s.mgmt.newAct = true) :=
  ⟨⟨doing (cmd 0 0x84 [1]), 1, by decide +kernel⟩,
   ⟨doing (cmd 0 0x84 [2]), 1, by decide +kernel⟩,
   ⟨{ doing (cmd 0 0x84 [1]) with selfTest := some ⟨2, false, false, 0, 0⟩ }, 1, by decide +kernel⟩,
   ⟨doing (cmd 0 0x84 [15]), 1, by decide +kernel⟩,
   ⟨{ on with selfTest := some ⟨2, false, true, 0, 0⟩ }, by decide +kernel⟩,
   ⟨State.reset, by decide +kernel⟩,
   ⟨doing (cmd 0 0x85 []), 1, by decide +kernel⟩,
   ⟨doing (cmd 0 0x88 []), 1, by decide +kernel⟩,
   ⟨{ doing (cmd 0 0x88 [1]) with nv := { on.nv with copies := on.nv.copies.set 0 (imageBytes 0 1 1 0 []) } }, 1, by decide +kernel⟩,
   ⟨on.modMgmt (fun m => { m with act := some ⟨1, 0, 5⟩ }), by decide +kernel⟩,
   ⟨on.modMgmt (fun m => { m with newAct := true }), by decide +kernel⟩⟩

/-- What `Obligations.NamespacesAndKeysAreManaged` assumes is met, clause by clause. -/
theorem witness_NamespacesAndKeysAreManaged :
  (∃ (s : State) (id : BitVec 64), Option.any (fun c => decide (s.nsCreateStatus c ≠ 0)) (s.opCmd? id 134 1) = true) ∧
  (∃ (s : State) (id : BitVec 64), Option.any (fun c => decide (s.nsCreateStatus c = 0)) (s.opCmd? id 134 1) = true) ∧
  (∃ (s : State) (id : BitVec 64), Option.any (fun c => decide (s.ns? (specLe c.e 40 4) = none)) (s.opCmd? id 134 2) = true) ∧
  (∃ (s : State) (id : BitVec 64),
    Option.any (fun c => decide (Option.any (fun n => decide ((s.cmds.any fun x => !x.admin && x.e.nsid == n.nsid) = true)) (s.ns?
    (specLe c.e 40 4)) = true)) (s.opCmd? id 134 2) = true) ∧
  (∃ (s : State) (id : BitVec 64),
    Option.any (fun c => decide (Option.any (fun n => decide ((s.cmds.any fun x => !x.admin && x.e.nsid == n.nsid) = false)) (s.ns?
    (specLe c.e 40 4)) = true)) (s.opCmd? id 134 2) = true) ∧
  (∃ (s : State) (id : BitVec 64), Option.any (fun c => decide ((s.ns? (specLe c.e 40 4)).isSome = true)) (s.opCmd? id 134 3) = true) ∧
  (∃ (s : State) (id : BitVec 64), Option.any (fun c => decide ((s.cipher.ops.any fun o => o.cmd == c.id) = false ∧
    s.loadStatus c = 0)) (s.opCmd? id 135 1) = true) ∧
  (∃ (s : State) (id : BitVec 64), Option.any (fun c => decide ((s.cipher.ops.any fun o => o.cmd == c.id) = false ∧
    s.loadStatus c ≠ 0)) (s.opCmd? id 135 1) = true) ∧
  (∃ (s : State) (id : BitVec 64), Option.any (fun c => decide ((s.cipher.ops.any fun o => o.cmd == c.id) = false ∧
    specLe c.e 40 4 ≤ 65535)) (s.opCmd? id 135 2) = true) ∧
  (∃ (s : State) (id : BitVec 64), Option.any (fun c => decide ((s.cipher.ops.any fun o => o.cmd == c.id) = false ∧
    65535 < specLe c.e 40 4)) (s.opCmd? id 135 2) = true) ∧
  (∃ (s : State) (id : BitVec 64), Option.any (fun c => decide (specLe c.e 40 4 ≤ 65535)) (s.opCmd? id 135 3) = true) :=
  ⟨⟨doing (cmd 0 0x86 [1, 0, 0, 0, 0]), 1, by decide +kernel⟩,
   ⟨doing (cmd 0 0x86 [1, 0, 0, 0, 1]), 1, by decide +kernel⟩,
   ⟨doing (cmd 0 0x86 [2, 0, 0, 0, 1]), 1, by decide +kernel⟩,
   ⟨{ doing (cmd 0 0x86 [2, 0, 0, 0, 1]) with nss := [⟨1, 0, 0, 9, 0⟩], cmds := [cmd 0 0x86 [2, 0, 0, 0, 1], { cmd 1 1 [] with id := 2 }] },
     1, by decide +kernel⟩,
   ⟨{ doing (cmd 0 0x86 [2, 0, 0, 0, 1]) with nss := [⟨1, 0, 0, 9, 0⟩] }, 1, by decide +kernel⟩,
   ⟨{ doing (cmd 0 0x86 [3, 0, 0, 0, 1]) with nss := [⟨1, 0, 0, 9, 0⟩] }, 1, by decide +kernel⟩,
   ⟨{ doing { cmd 0 0x87 [1] with e := { entry 0x87 [1] with buffer := 1 :: List.replicate 63 0 } } with cipher := { on.cipher with st := .ready } },
     1, by decide +kernel⟩,
   ⟨doing (cmd 0 0x87 [1]), 1, by decide +kernel⟩,
   ⟨doing (cmd 0 0x87 [2]), 1, by decide +kernel⟩,
   ⟨doing (cmd 0 0x87 [2, 0, 0, 0, 0, 0, 1]), 1, by decide +kernel⟩,
   ⟨doing (cmd 0 0x87 [3]), 1, by decide +kernel⟩⟩

/-- What `Obligations.BuffersPoolsAndQuotas` assumes is met, clause by clause. -/
theorem witness_BuffersPoolsAndQuotas :
  (∃ (s : State) (p : Fin 16) (n : BitVec 24), List.find? (fun b => b.ref == { pool := p, index := n.toNat }) s.bufs = none) ∧
  (∃ (s : State) (p : Fin 16) (n : BitVec 24), (s.fld (Blk.pool p) POOL.release = 1 ∧
    Option.any (fun b => decide (b.count < 255)) (List.find? (fun b => b.ref == { pool := p, index := n.toNat }) s.bufs) = true) ∧
    (s.fld (Blk.pool p) POOL.release = 1 ∧
    Option.any (fun b => decide (b.count ≤ 1)) (List.find? (fun b => b.ref == { pool := p, index := n.toNat }) s.bufs) = true)) ∧
  (∃ (s : State) (p : Fin 16) (n : BitVec 24), s.fld (Blk.pool p) POOL.release = 1 ∧
    Option.any (fun b => decide (255 ≤ b.count)) (List.find? (fun b => b.ref == { pool := p, index := n.toNat }) s.bufs) = true) ∧
  (∃ (s : State) (p : Fin 16) (n : BitVec 24), s.fld (Blk.pool p) POOL.release = 1 ∧
    Option.any (fun b => decide (1 < b.count)) (List.find? (fun b => b.ref == { pool := p, index := n.toNat }) s.bufs) = true) ∧
  (∃ (s : State) (p : Fin 16) (n : BitVec 24) (o : Owner), (s.fld (Blk.pool p) POOL.release = 0 ∧
    (List.find? (fun b => b.ref == { pool := p, index := n.toNat }) s.bufs).isSome = true) ∧ (s.fld (Blk.pool p) POOL.release = 0 ∧
    Option.any (fun b => decide (b.owners.contains o = true ∧
    (List.filter (fun x => x != o) b.owners).isEmpty = true)) (List.find? (fun b => b.ref == { pool := p, index := n.toNat }) s.bufs) =
    true)) ∧
  (∃ (s : State) (p : Fin 16) (n : BitVec 24) (o : Owner), s.fld (Blk.pool p) POOL.release = 0 ∧
    Option.any (fun b => decide (b.owners.contains o = false)) (List.find? (fun b => b.ref == { pool := p, index := n.toNat }) s.bufs) =
    true) ∧
  (∃ (s : State) (p : Fin 16) (n : BitVec 24) (o : Owner), s.fld (Blk.pool p) POOL.release = 0 ∧
    Option.any (fun b => decide (b.owners.contains o = true ∧
    (List.filter (fun x => x != o) b.owners).isEmpty = false)) (List.find? (fun b => b.ref == { pool := p, index := n.toNat }) s.bufs) =
    true) ∧
  (∃ (s : State) (p : Fin 16), s.answers (Blk.pool p) = true ∧ s.fld (Blk.pool p) POOL.enable ≠ 1 ∧ s.poolOk p = true) ∧
  (∃ (s : State) (p : Fin 16) (r : ReqId), (s.answers (Blk.pool p) = true ∧ s.fld (Blk.pool p) POOL.enable ≠ 1 ∧ s.poolOk p = false) ∧
    (s.poolWaits = [] ∧ s.answers (Blk.pool p) = true) ∧ (s.answers (Blk.quota r) = true ∧ ∀ x ∈ s.cmds,
    x.req = ↑r → x.onQuota = false)) ∧
  (∃ (s : State) (p : Fin 16), s.answers (Blk.pool p) = true ∧ s.fld (Blk.pool p) POOL.enable = 1) :=
  ⟨⟨State.reset, 0, 0, by decide +kernel⟩,
   ⟨({ on with bufs := [⟨⟨0, 0⟩, 0, [.disc], 1, none⟩] }).setFld (.pool 0) POOL.release 1, 0, 0, by decide +kernel⟩,
   ⟨({ on with bufs := [⟨⟨0, 0⟩, 0, [], 255, none⟩] }).setFld (.pool 0) POOL.release 1, 0, 0, by decide +kernel⟩,
   ⟨({ on with bufs := [⟨⟨0, 0⟩, 0, [.disc, .cipher], 2, none⟩] }).setFld (.pool 0) POOL.release 1, 0, 0, by decide +kernel⟩,
   ⟨{ on with bufs := [⟨⟨0, 0⟩, 0, [.disc], 1, none⟩] }, 0, 0, .disc, by decide +kernel⟩,
   ⟨{ on with bufs := [⟨⟨0, 0⟩, 0, [], 255, none⟩] }, 0, 0, .disc, by decide +kernel⟩,
   ⟨{ on with bufs := [⟨⟨0, 0⟩, 0, [.disc, .cipher], 2, none⟩] }, 0, 0, .disc, by decide +kernel⟩,
   ⟨((on.setFld (.pool 0) POOL.log2_size 12).setFld (.pool 0) POOL.count 1).setFld (.pool 0) POOL.use_mask 1, 0, by decide +kernel⟩,
   ⟨on, 0, 0, by decide +kernel⟩,
   ⟨on.setFld (.pool 0) POOL.enable 1, 0, by decide +kernel⟩⟩

/-- What `Obligations.UncachedStoreWritesItsBytesAlone` assumes is met, clause by clause. -/
theorem witness_UncachedStoreWritesItsBytesAlone :
  (∃ (s : State) (addr : BitVec 37), s.cached addr.toNat = none) ∧
  (∃ (s : State) (addr : BitVec 37) (data : List Byte), s.cached addr.toNat = none ∧
    (s.dramCh (addrChan addr.toNat)).st = DramState.active ∧
    s.mirrored addr.toNat (List.take (64 - addr.toNat % 64) data).length = false) ∧
  (∃ (s : State) (addr : BitVec 37) (data : List Byte), (s.dramCh DramChan.a).st = DramState.active ∧
    (s.dramCh DramChan.b).st = DramState.active ∧ s.cached addr.toNat = none ∧
    addr.toNat + (List.take (64 - addr.toNat % 64) data).length ≤ 2 ^ 36 ∧
    s.mirrored addr.toNat (List.take (64 - addr.toNat % 64) data).length = true) :=
  ⟨⟨State.reset, 0, by decide +kernel⟩,
   ⟨dram .training .active (fun x => { x with rejoin := true }), -1, [], by decide +kernel⟩,
   ⟨dram .active .active id, 0, [], by decide +kernel⟩⟩

/-- What `Obligations.CacheOperationsAndWays` assumes is met, clause by clause. -/
theorem witness_CacheOperationsAndWays :
  (∃ (s : State) (w : BitVec 16) (on : BitVec 8) (way : Fin 16) (addr : BitVec 37), (s.answers Blk.ccache = true ∧ s.cache.op = none) ∧
    (s.answers Blk.ccache = true ∧ lockOk (s.cache.locked ||| w.toNat) s.cache.powered s.cache.draining = false) ∧
    (s.answers Blk.ccache = true) ∧ (s.answers Blk.ccache = true ∧ ∀ i < 8, on.getLsbD i = bitOf (s.fld Blk.ccache CCACHE.way_on) i) ∧
    (s.answers Blk.ccache = true ∧ bitOf s.cache.draining ↑way = false) ∧ (s.answers Blk.ccache = true ∧
    List.find? (fun v => v.line == addr.toNat / 64) s.cache.victims = none)) ∧
  (∃ (s : State) (base : ℕ) (n : ℕ), (s.answers Blk.ccache = true ∧ s.cache.op ≠ none) ∧ (s.answers Blk.ccache = true ∧
    s.cache.op = some (CacheOp.clean base n))) ∧
  (∃ (s : State) (way : Fin 16), s.answers Blk.ccache = true ∧ bitOf s.cache.draining ↑way = true) ∧
  (∃ (s : State) (addr : BitVec 37), s.answers Blk.ccache = true ∧
    (List.find? (fun v => v.line == addr.toNat / 64) s.cache.victims).isSome = true) :=
  ⟨⟨on, -1, -1, 0, 0, by decide +kernel⟩,
   ⟨on.modCache (fun c => { c with op := some (.clean 0 1) }), 0, 1, by decide +kernel⟩,
   ⟨on.modCache (fun c => { c with draining := 65535 }), 0, by decide +kernel⟩,
   ⟨on.modCache (fun c => { c with victims := [⟨0, List.replicate 64 0, true, false⟩] }), 0, by decide +kernel⟩⟩

/-- What `Obligations.DramChannelsFollowTable15_2` assumes is met, clause by clause. -/
theorem witness_DramChannelsFollowTable15_2 :
  (∃ (s : State) (c : DramChan), (s.answers (Blk.dramc c) = true ∧ ((s.dramCh c).st = DramState.failed ∨
    (s.dramCh c).st = DramState.off ∧ s.pdOn (chanPd c) = true ∧ s.timingLoaded c = true)) ∧ (s.answers (Blk.dramc c) = true ∧
    (s.dramCh (otherChan c)).st ≠ DramState.active)) ∧
  (∃ (s : State) (c : DramChan), s.answers (Blk.dramc c) = true ∧ (s.dramCh c).st = DramState.active) ∧
  (∃ (s : State) (c : DramChan), (s.dramCh c).st = DramState.training ∧ (s.dramCh c).rejoin = true ∧ s.otherServes c = true) ∧
  (∃ (s : State) (c : DramChan), (s.poolWaits = [] ∧ (s.dramCh c).st = DramState.training ∧ (s.dramCh c).rejoin = false) ∧
    ((s.dramCh c).st = DramState.training ∧ (s.dramCh c).attempts + 1 < s.fld1 (Blk.dramc c) DRAMC.train_retry)) ∧
  (∃ (s : State) (c : DramChan), (s.dramCh c).st = DramState.training ∧
    s.fld1 (Blk.dramc c) DRAMC.train_retry ≤ (s.dramCh c).attempts + 1) ∧
  (∃ (s : State) (c : DramChan), ((s.dramCh c).st ≠ DramState.training) ∧ ((s.dramCh c).st ≠ DramState.switching) ∧
    ((s.dramCh c).st ≠ DramState.diagnose) ∧ ((s.dramCh c).st ≠ DramState.resilver) ∧ (s.otherServes c = false)) ∧
  (∃ (s : State) (c : DramChan), (s.answers (Blk.dramc c) = true ∧ (s.dramCh (otherChan c)).st = DramState.active ∧
    (s.dramCh c).st = DramState.active) ∧ ((s.dramCh c).st = DramState.active ∧ s.otherServes c = true)) ∧
  (∃ (s : State) (c : DramChan), (s.dramCh c).st = DramState.switching) ∧
  (∃ (s : State) (c : DramChan), (s.dramCh c).st = DramState.diagnose) ∧
  (∃ (s : State) (c : DramChan), s.poolWaits = [] ∧ (s.dramCh c).st = DramState.resilver) :=
  ⟨⟨on, .a, by decide +kernel⟩,
   ⟨dram .training .active (fun x => { x with rejoin := true }), .b, by decide +kernel⟩,
   ⟨dram .training .active (fun x => { x with rejoin := true }), .a, by decide +kernel⟩,
   ⟨dram .training .off id, .a, by decide +kernel⟩,
   ⟨dram .training .off (fun x => { x with attempts := 100 }), .a, by decide +kernel⟩,
   ⟨State.reset, .a, by decide +kernel⟩,
   ⟨dram .active .active id, .a, by decide +kernel⟩,
   ⟨dram .switching .active id, .a, by decide +kernel⟩,
   ⟨dram .diagnose .active id, .a, by decide +kernel⟩,
   ⟨dram .resilver .active id, .a, by decide +kernel⟩⟩

/-- What `Obligations.MemoryErrorsAndScrubbing` assumes is met, clause by clause. -/
theorem witness_MemoryErrorsAndScrubbing :
  (∃ (s : State) (addr : BitVec 37), (s.hole addr.toNat = true) ∧ (s.fld Blk.memprot MEMPROT.scrub_enable = 0)) ∧
  (∃ (s : State) (addr : BitVec 37), s.hole addr.toNat = false ∧ (s.dramCh (addrChan addr.toNat)).st.serves = false) ∧
  (∃ (s : State) (addr : BitVec 37) (e : BurstErrors), s.hole addr.toNat = false ∧ (s.dramCh (addrChan addr.toNat)).st.serves = true ∧
    s.judgeBurst addr.toNat e = BurstVerdict.clean) ∧
  (∃ (s : State) (addr : BitVec 37) (e : BurstErrors) (devs : List (ℕ × ℕ)), s.hole addr.toNat = false ∧
    (s.dramCh (addrChan addr.toNat)).st.serves = true ∧ s.judgeBurst addr.toNat e = BurstVerdict.corrected devs) ∧
  (∃ (s : State) (addr : BitVec 37) (e : BurstErrors), s.hole addr.toNat = false ∧ (s.dramCh (addrChan addr.toNat)).st.serves = true ∧
    s.judgeBurst addr.toNat e = BurstVerdict.lost) ∧
  (∃ (s : State), s.fld Blk.memprot MEMPROT.scrub_enable ≠ 0 ∧ s.scrubNext.isSome = true) ∧
  (∃ (s : State), (s.fld Blk.memprot MEMPROT.scrub_enable ≠ 0) ∧ (s.answers Blk.memprot = true)) ∧
  (∃ (s : State) (c : DramChan) (bank : BitVec 6) (acts : Vector (BitVec 12) 5), (s.dramCh c).st = DramState.active ∧
    (s.dramCh c).throttles = [] ∧ (List.map (fun x => x.toNat) acts.toList).sum ≤ s.fld (Blk.dramc c) DRAMC.act_thr ∧
    Tab.get 0 (s.dramCh c).raa bank.toNat + (List.map (fun x => x.toNat) acts.toList).sum < (s.dramCh c).imt) ∧
  (∃ (s : State) (c : DramChan) (acts : Vector (BitVec 12) 5), (s.dramCh c).st = DramState.active ∧
    s.fld (Blk.dramc c) DRAMC.act_thr < (List.map (fun x => x.toNat) acts.toList).sum ∧ (topClass acts).2 ≠ 0) ∧
  (∃ (s : State) (c : DramChan), (s.dramCh c).st = DramState.failed) :=
  ⟨⟨State.reset, -1, by decide +kernel⟩,
   ⟨State.reset, 0, by decide +kernel⟩,
   ⟨dram .active .active id, 0, ⟨[]⟩, by decide +kernel⟩,
   ⟨dram .active .active id, 0, ⟨[(0, 1)]⟩, [(0, 1)], by decide +kernel⟩,
   ⟨dram .active .active id, 0, ⟨[(0, 8), (2, 8)]⟩, by decide +kernel⟩,
   ⟨dram .training .active (fun x => { x with rejoin := true }), by decide +kernel⟩,
   ⟨on, by decide +kernel⟩,
   ⟨dram .active .active (fun x => { x with imt := 100 }), .a, 0, Vector.replicate _ default, by decide +kernel⟩,
   ⟨act ((dram .active .active (fun x => { x with imt := 100 })).setFld (.dramc .a) DRAMC.act_thr 5) (.dramc .a) DRAMC.act_thr 5, .a,
     #v[0, 100, 0, 0, 0], by decide +kernel⟩,
   ⟨dram .active .failed id, .b, by decide +kernel⟩⟩

/-- What `Obligations.CipherRequestsUnitsAndAlarms` assumes is met, clause by clause. -/
theorem witness_CipherRequestsUnitsAndAlarms :
  (∃ (s : State) (cmd : BitVec 64) (lba : BitVec 64), (s.cipher.st = CipherState.keygen ∧ s.allFenced = false ∧ s.cipher.ops = [] ∧
    Option.any (fun c => decide (c.stage = Stage.running ∧ c.isWrite = true ∧ c.first ≤ lba.toNat ∧
    c.units[lba.toNat - c.first]? = some UnitSt.todo)) (s.cmd? cmd.toNat) = true) ∧ (s.cipher.st = CipherState.keygen ∧
    s.cipher.ops = [] ∧ s.cipher.queue = [])) ∧
  (∃ (s : State) (cmd : BitVec 64) (core : Fin 8) (slot : BitVec 16), (s.cmd? cmd.toNat = none) ∧ (s.cipher.cores[↑core].job = none) ∧
    (s.cipher.fetching.contains slot.toNat = false) ∧ (s.allReqs = [] ∧ s.cipher.ops = []) ∧ (s.cipher.st ≠ CipherState.keygen)) ∧
  (∃ (s : State) (core : Fin 8), (s.cipher.cores[↑core].again = false ∧ s.cipher.cores[↑core].job.isSome = true) ∧
    (s.cipher.cores[↑core].job.isSome = true)) ∧
  (∃ (s : State) (slot : BitVec 16), s.cipher.ops = [] ∧ s.cipher.queue = [] ∧ s.cipher.fetching.contains slot.toNat = true ∧
    s.slotState slot.toNat = 1) ∧
  (∃ (s : State), s.answers Blk.cipher = true ∧ s.cipher.st = CipherState.alarm ∧ s.cipher.active = 0) ∧
  (∃ (s : State), s.answers Blk.cipher = true ∧ (s.cipher.st ≠ CipherState.alarm ∨ s.cipher.active ≠ 0)) :=
  ⟨⟨{ doing { cmd 1 2 [] with units := [.todo] } with cipher := { on.cipher with st := .keygen } }, 1, 0, by decide +kernel⟩,
   ⟨State.reset, 0, 0, 0, by decide +kernel⟩,
   ⟨on.modCipher (fun c => { c with st := .ready, cores := c.cores.map (fun x => { x with job := some req }) }), 0, by decide +kernel⟩,
   ⟨{ on with cipher := { on.cipher with st := .ready, fetching := [1], kek := some (List.replicate 32 0), epoch := 0 }, slots := [(1, ⟨1, 0, 0, 5, 0, List.replicate 72 0, 0⟩)] },
     1, by decide +kernel⟩,
   ⟨on.modCipher (fun c => { c with st := .alarm }), by decide +kernel⟩,
   ⟨on, by decide +kernel⟩⟩

/-- What `Obligations.ChainPortsTrainHoldAndReplay` assumes is met, clause by clause. -/
theorem witness_ChainPortsTrainHoldAndReplay :
  (∃ (s : State) (p : PacketIn) (q : Port), ((s.port (portIx p.port)).st = PortState.train ∧ p.crcOk = true ∧
    (s.port (portIx p.port)).good < 3) ∧ ((s.port (portIx q)).st = PortState.train ∧
    (s.port (portIx q)).attempts + 1 < s.fld1 Blk.chain CHAIN.retrain_limit)) ∧
  (∃ (s : State) (p : PacketIn), (s.port (portIx p.port)).st = PortState.train ∧ p.crcOk = true ∧ 3 ≤ (s.port (portIx p.port)).good) ∧
  (∃ (s : State) (p : PacketIn), (s.port (portIx p.port)).st = PortState.train ∧ p.crcOk = false) ∧
  (∃ (s : State) (q : Port), (s.port (portIx q)).st = PortState.train ∧
    s.fld1 Blk.chain CHAIN.retrain_limit ≤ (s.port (portIx q)).attempts + 1) ∧
  (∃ (s : State) (q : Port) (p : PacketIn), ((s.port (portIx q)).st ≠ PortState.train) ∧ ((s.port (portIx q)).st ≠ PortState.up) ∧
    ((s.port (portIx p.port)).st ≠ PortState.up)) ∧
  (∃ (s : State) (q : Port) (p : PacketIn), ((s.port (portIx q)).st = PortState.up) ∧ ((s.port (portIx p.port)).st = PortState.up ∧
    p.crcOk = false)) ∧
  (∃ (s : State) (p : PacketIn), (s.port (portIx p.port)).st = PortState.up ∧ p.crcOk = true ∧
    Option.map (fun x => x.seq) (s.port (portIx p.port)).sent.head? = some p.tag.toNat) ∧
  (∃ (s : State) (p : PacketIn), (s.port (portIx p.port)).st = PortState.up ∧ p.crcOk = true ∧
    p.seq.toNat = (s.port (portIx p.port)).rxSeq ∧ p.source.toNat = s.moduleId ∧ s.chain.nonces.contains p.tag.toNat = true) ∧
  (∃ (s : State) (p : PacketIn), (s.port (portIx p.port)).st = PortState.up ∧ p.crcOk = true ∧
    p.seq.toNat = (s.port (portIx p.port)).rxSeq ∧ p.source.toNat ≠ s.moduleId) ∧
  (∃ (s : State) (p : PacketIn), s.chain.dupId = false ∧ (s.port (portIx p.port)).st = PortState.up ∧ p.crcOk = true ∧
    p.seq.toNat = (s.port (portIx p.port)).rxSeq ∧ p.source.toNat = s.moduleId) ∧
  (∃ (s : State), (s.answers Blk.chain = true ∧ ∀ (k : Fin 2), (s.port k).st ≠ PortState.up) ∧ (s.answers Blk.chain = true)) ∧
  (∃ (s : State), s.answers Blk.chain = true ∧ s.moduleId ≠ 65535 ∧ s.pdOn 17 = true ∧ s.time.refLost = false) :=
  ⟨⟨port .train id, P0, .cu, by decide +kernel⟩,
   ⟨port .train (fun x => { x with good := 3 }), P0, by decide +kernel⟩,
   ⟨port .train id, { P0 with crcOk := false }, by decide +kernel⟩,
   ⟨port .train (fun x => { x with attempts := 1000 }), .cu, by decide +kernel⟩,
   ⟨State.reset, .cu, P0, by decide +kernel⟩,
   ⟨port .up id, .cu, { P0 with crcOk := false }, by decide +kernel⟩,
   ⟨port .up (fun x => { x with sent := [⟨1, [], 0⟩] }), { P0 with tag := 1, source := 1 }, by decide +kernel⟩,
   ⟨((chain (fun c => { c with nonces := [1] })).setFld .chain CHAIN.module_id 1), { P0 with tag := 1, source := 1 }, by decide +kernel⟩,
   ⟨port .up id, P0, by decide +kernel⟩,
   ⟨(chain id).setFld .chain CHAIN.module_id 1, { P0 with tag := 1, source := 1 }, by decide +kernel⟩,
   ⟨on, by decide +kernel⟩,
   ⟨on.setFld .chain CHAIN.module_id 5, by decide +kernel⟩⟩

/-- What `Obligations.ChainTrafficIsServedAndAnswered` assumes is met, clause by clause. -/
theorem witness_ChainTrafficIsServedAndAnswered :
  (∃ (s : State) (p : PacketIn), (s.port (portIx p.port)).st = PortState.up ∧ p.crcOk = true ∧
    p.seq.toNat = (s.port (portIx p.port)).rxSeq ∧ p.dest.toNat = s.moduleId ∧ Option.any (fun w => decide (w.write = true ∧
    s.served? (w.localAddr p.address.toNat) p.payload.length = true)) (s.windowFor p.source.toNat p.address.toNat p.payload.length) =
    true) ∧
  (∃ (s : State) (p : PacketIn) (n : BitVec 16), ((s.port (portIx p.port)).st = PortState.up ∧ p.crcOk = true ∧
    p.seq.toNat = (s.port (portIx p.port)).rxSeq ∧ p.dest.toNat = s.moduleId ∧
    Option.any (fun w => decide (w.write = false)) (s.windowFor p.source.toNat p.address.toNat p.payload.length) = true) ∧
    ((s.port (portIx p.port)).st = PortState.up ∧ p.crcOk = true ∧ p.seq.toNat = (s.port (portIx p.port)).rxSeq ∧
    p.dest.toNat = s.moduleId ∧ (s.windowFor p.source.toNat p.address.toNat n.toNat).isSome = true) ∧
    ((s.port (portIx p.port)).st = PortState.up ∧ p.crcOk = true ∧ p.seq.toNat = (s.port (portIx p.port)).rxSeq ∧
    p.dest.toNat = s.moduleId ∧
    Option.any (fun w => decide (w.mirror = false)) (s.windowFor p.source.toNat p.address.toNat p.payload.length) = true)) ∧
  (∃ (s : State) (p : PacketIn), ((s.port (portIx p.port)).st = PortState.up ∧ p.crcOk = true ∧
    p.seq.toNat = (s.port (portIx p.port)).rxSeq ∧ p.dest.toNat = s.moduleId ∧
    s.windowFor p.source.toNat p.address.toNat p.payload.length = none) ∧ ((s.port (portIx p.port)).st = PortState.up ∧ p.crcOk = true ∧
    p.seq.toNat = (s.port (portIx p.port)).rxSeq ∧ p.dest.toNat = s.moduleId ∧
    List.find? (fun r => r.tag == p.tag.toNat) s.chain.reqs = none) ∧ ((s.port (portIx p.port)).st = PortState.up ∧ p.crcOk = true ∧
    p.seq.toNat = (s.port (portIx p.port)).rxSeq ∧ p.dest.toNat = s.moduleId)) ∧
  (∃ (s : State) (p : PacketIn), (s.port (portIx p.port)).st = PortState.up ∧ p.crcOk = true ∧
    p.seq.toNat = (s.port (portIx p.port)).rxSeq ∧ p.dest.toNat = s.moduleId ∧ (BitVec.getLsbD p.flags 0 = true ∨ p.status ≠ 0) ∧
    Option.any (fun r => decide (r.cmd = none)) (List.find? (fun r => r.tag == p.tag.toNat) s.chain.reqs) = true) ∧
  (∃ (s : State) (p : PacketIn),
    Option.any (fun r => decide (r.cmd = none)) (List.find? (fun r => r.tag == p.tag.toNat) s.chain.reqs) = true) ∧
  (∃ (s : State) (p : PacketIn) (m : Fin 64) (n : BitVec 64), (List.find? (fun r => r.tag == p.tag.toNat) s.chain.reqs = none) ∧
    (s.nextMessage ↑m = none) ∧ (List.find? (fun x => x.num == n.toNat && !x.done) s.chain.msgs = none) ∧ (s.masterPort = none ∧
    s.fld Blk.chain CHAIN.time_master ≠ 1)) ∧
  (∃ (s : State) (m : Fin 64) (n : BitVec 64), (s.chain.dupId = false ∧ Option.any (fun x => decide ((s.route x.peer).isSome = true ∧
    Option.any (fun c => decide (c.stage = Stage.dataIn ∧
    (s.freeSlot x).isSome = true)) (s.cmd? x.cmd) = true)) (s.nextMessage ↑m) = true) ∧
    (Option.any (fun m => decide (m.slot = none)) (List.find? (fun x => x.num == n.toNat && !x.done) s.chain.msgs) = true)) ∧
  (∃ (s : State) (p : PacketIn), s.chain.peers = [] ∧ (s.port (portIx p.port)).st = PortState.up ∧ p.crcOk = true ∧
    p.seq.toNat = (s.port (portIx p.port)).rxSeq ∧ p.dest.toNat = s.moduleId ∧ 32 ≤ p.payload.length ∧
    p.payload.length - 32 < ofLe (List.take 4 (List.drop 28 p.payload)) ∧ Option.any (fun w => decide (w.mirror = true ∧
    (p.address.toNat - w.base) % 4194304 = 0)) (s.windowFor p.source.toNat p.address.toNat p.payload.length) = true) ∧
  (∃ (s : State) (p : PacketIn), (s.port (portIx p.port)).st = PortState.up ∧ p.crcOk = true ∧
    p.seq.toNat = (s.port (portIx p.port)).rxSeq ∧ p.dest.toNat = s.moduleId ∧
    Option.any (fun m => decide (m.done = true)) (List.find? (fun x => x.num == ofLe (List.take 8 p.payload) && x.peer == p.source.toNat
    && x.slot.isSome) s.chain.msgs) = true) ∧
  (∃ (s : State) (p : PacketIn), (s.port (portIx p.port)).st = PortState.up ∧ p.crcOk = true ∧
    p.seq.toNat = (s.port (portIx p.port)).rxSeq ∧ p.dest.toNat = s.moduleId ∧
    Option.any (fun m => decide (m.done = false)) (List.find? (fun x => x.num == ofLe (List.take 8 p.payload) && x.peer == p.source.toNat
    && x.slot.isSome) s.chain.msgs) = true) ∧
  (∃ (s : State) (p : PacketIn), (s.port (portIx p.port)).st = PortState.up ∧ p.crcOk = true ∧
    p.seq.toNat = (s.port (portIx p.port)).rxSeq ∧ p.dest.toNat = s.moduleId ∧ Option.any (fun r => decide (r.type = 16 ∧
    r.cmd = none)) (List.find? (fun r => r.tag == p.tag.toNat) s.chain.reqs) = true) ∧
  (∃ (s : State), s.masterPort = none ∧ s.fld Blk.chain CHAIN.time_master = 1) ∧
  (∃ (s : State), Option.any (fun i => decide ((s.port i).neighbour.isSome = true)) s.masterPort = true) :=
  ⟨⟨act (act (act (act { (chain id).setFld .chain CHAIN.module_id 0 with drams := (dram .active .active id).drams } (.win 0) WIN.enable
    1) (.win 0) WIN.src_id 0xFFFF) (.win 0) WIN.size 1) (.win 0) WIN.write 1, P0, by decide +kernel⟩,
   ⟨act (act (act ((chain id).setFld .chain CHAIN.module_id 0) (.win 0) WIN.enable 1) (.win 0) WIN.src_id 0xFFFF) (.win 0) WIN.size 1,
     P0, 0, by decide +kernel⟩,
   ⟨(chain (fun c => { c with reqs := [⟨1, 0x10, none⟩] })).setFld .chain CHAIN.module_id 0, P0, by decide +kernel⟩,
   ⟨(chain (fun c => { c with reqs := [⟨1, 0x10, none⟩] })).setFld .chain CHAIN.module_id 0, { P0 with tag := 1, status := 1 },
     by decide +kernel⟩,
   ⟨chain (fun c => { c with reqs := [⟨1, 0x10, none⟩] }), { P0 with tag := 1, source := 1 }, by decide +kernel⟩,
   ⟨State.reset, P0, 0, 0, by decide +kernel⟩,
   ⟨{ doing { cmd 1 2 [] with stage := .dataIn } with chain := ((port .up (fun x => { x with seen := [(9, 1)] })).modChain (fun c => { c with msgs := [⟨0, 0, 9, 0, 1, none, 1, 0, none, false⟩] })).chain },
     0, 0, by decide +kernel⟩,
   ⟨act (act (act (act ((chain id).setFld .chain CHAIN.module_id 0) (.win 0) WIN.enable 1) (.win 0) WIN.src_id 0xFFFF) (.win 0) WIN.size
     1) (.win 0) WIN.mirror 1, { P0 with payload := List.replicate 28 0 ++ [1, 0, 0, 0] }, by decide +kernel⟩,
   ⟨(chain (fun c => { c with msgs := [⟨0, 0, 1, 0, 1, some 0, 1, 0, none, true⟩] })).setFld .chain CHAIN.module_id 0,
     { P0 with tag := 1, source := 1 }, by decide +kernel⟩,
   ⟨(chain (fun c => { c with msgs := [⟨0, 0, 1, 0, 1, some 0, 1, 0, none, false⟩] })).setFld .chain CHAIN.module_id 0,
     { P0 with tag := 1, source := 1 }, by decide +kernel⟩,
   ⟨(chain (fun c => { c with reqs := [⟨1, 0x10, none⟩] })).setFld .chain CHAIN.module_id 0, { P0 with tag := 1, source := 1 },
     by decide +kernel⟩,
   ⟨(chain id).setFld .chain CHAIN.time_master 1, by decide +kernel⟩,
   ⟨(port .up (fun x => { x with seen := [(9, 1)] })).modChain (fun c => { c with masters := [9] }), by decide +kernel⟩⟩

/-- What `Obligations.InvalidHeadersGiveNoPosition` assumes is met, clause by clause. -/
theorem witness_InvalidHeadersGiveNoPosition :
  (∃ (h : HeaderIn), h.biphaseOk = false ∨ h.parityOk = false ∨ 12 ≤ slLayer h.sideLayer) :=
  ⟨{ H0 with biphaseOk := false }, by decide +kernel⟩

/-- What `Obligations.TargetsOutsideTheLimitsAreRefused` assumes is met, clause by clause. -/
theorem witness_TargetsOutsideTheLimitsAreRefused :
  (∃ (s : State) (n : Fin 4) (v : BitVec 32), s.answers (Blk.taxis n) = true ∧ (v.toInt < (s.axPar (AxisId.transport n)).lo ∨
    (s.axPar (AxisId.transport n)).hi < v.toInt)) :=
  ⟨act (axis (.transport 0) .hold (fun x => { x with homed := true })) (.taxis 0) (AXIS.pos_max .transport) 10, 0, 3000,
    by decide +kernel⟩

/-- What `Obligations.TimebaseWordsReadAsOneValue` assumes is met, clause by clause. -/
theorem witness_TimebaseWordsReadAsOneValue :
  (∃ (s : State), s.answers Blk.timebase = true) :=
  ⟨State.reset, by decide +kernel⟩

/-- What `Obligations.PowerAndTimeInputsAct` assumes is met, clause by clause. -/
theorem witness_PowerAndTimeInputsAct :
  (∃ (s : State) (i : Iface) (d : Fin 20) (mw : BitVec 17), (s.answers Blk.power = true) ∧ (s.answers Blk.power = true ∧
    Tab.get? s.regs.writeLatch[↑(ifaceIx i)] Blk.power.base = none) ∧ (bitOf s.power.on.toNat ↑d = bitOf s.power.state.toNat ↑d ∨
    s.power.powerFail = true) ∧ (s.answers Blk.power = true ∧ s.power.queue = []) ∧ (s.power.queue = []) ∧ (s.power.overCap = false ∧
    s.cap < mw.toNat)) ∧
  (∃ (s : State) (i : Iface), (s.answers Blk.power = true ∧ (Tab.get? s.regs.writeLatch[↑(ifaceIx i)] Blk.power.base).isSome = true) ∧
    ((Tab.get? s.regs.writeLatch[↑(ifaceIx i)] 131088).isSome = true)) ∧
  (∃ (s : State) (d : Fin 20), s.power.powerFail = false ∧ bitOf s.power.on.toNat ↑d = true ∧ bitOf s.power.state.toNat ↑d = false) ∧
  (∃ (s : State) (d : Fin 20), s.power.powerFail = false ∧ s.power.queue = [] ∧ bitOf s.power.on.toNat ↑d = false ∧
    bitOf s.power.state.toNat ↑d = true) ∧
  (∃ (s : State) (who : ℕ), s.power.queue = [{ cls := GrantClass.seek, who := who }] ∧
    (s.grantFor { cls := GrantClass.seek, who := who }).isSome = true) ∧
  (∃ (s : State) (mw : BitVec 17) (b : Bool) (c : BitVec 16) (i : Iface) (a : BitVec 26), (mw.toNat ≤ s.cap ∧ (s.power.overCap = false ∨
    b = false)) ∧ (s.power.thermalWarn = false ∧ 1600 ≤ c.toInt) ∧ (s.power.powerFail = false) ∧ (s.time.refLost = false) ∧
    (s.time.refLost = false ∨ s.power.powerFail = true) ∧ (wideLow (a.toNat / 4 * 4) = false ∧
    Tab.get? s.regs.readLatch[↑(ifaceIx i)] (a.toNat / 4 * 4) = none)) ∧
  (∃ (s : State) (mw : BitVec 17), s.power.overCap = true ∧ s.power.queue = [] ∧ mw.toNat ≤ s.cap) ∧
  (∃ (s : State) (c : BitVec 16), c.toInt < 1600 ∨ s.power.thermalWarn = true) ∧
  (∃ (s : State), (s.power.powerFail = true) ∧ (s.power.powerFail = true ∧ s.power.on = s.power.state ∧ s.power.queue = [] ∧
    ∀ (b : BayId), (s.spindle b).wantStart = false)) ∧
  (∃ (s : State), s.time.refLost = true) ∧
  (∃ (s : State), s.time.refLost = true ∧ s.power.powerFail = false ∧ s.mgmt.started = false) :=
  ⟨⟨State.reset, .pcie, 0, -1, by decide +kernel⟩,
   ⟨{ on with regs := { on.regs with writeLatch := Vector.replicate 3 [(0x10000, 5), (0x20010, 6)] } }, .pcie, by decide +kernel⟩,
   ⟨{ on with power := { on.power with state := 0 } }, 0, by decide +kernel⟩,
   ⟨{ on with power := { on.power with on := 0 } }, 0, by decide +kernel⟩,
   ⟨{ on with power := { on.power with on := 0, state := 0, queue := [⟨.seek, 1⟩] } }, 1, by decide +kernel⟩,
   ⟨State.reset, 0, true, 3000, .pcie, 0, by decide +kernel⟩,
   ⟨{ on with power := { on.power with overCap := true } }, 0, by decide +kernel⟩,
   ⟨State.reset, 0, by decide +kernel⟩,
   ⟨{ on with power := { on.power with powerFail := true } }, by decide +kernel⟩,
   ⟨{ on with time := { on.time with refLost := true } }, by decide +kernel⟩,
   ⟨{ State.reset with time := { on.time with refLost := true } }, by decide +kernel⟩⟩

/-- What `Obligations.CalibrationTrialsMarginsAndTrends` assumes is met, clause by clause. -/
theorem witness_CalibrationTrialsMarginsAndTrends :
  (∃ (v : BitVec 16), v.toInt < -640 ∨ 2400 < v.toInt) ∧
  (∃ (s : State) (g : HeadId) (v : BitVec 16), Option.any (fun p => decide (-640 ≤ v.toInt ∧ v.toInt ≤ 2400 ∧
    (v.toInt - p).natAbs < 8)) (Tab.get? s.calib.temps ↑g) = true) ∧
  (∃ (s : State) (g : HeadId) (v : BitVec 16), Option.any (fun p => decide (-640 ≤ v.toInt ∧ v.toInt ≤ 2400 ∧
    8 ≤ (v.toInt - p).natAbs)) (Tab.get? s.calib.temps ↑g) = true) ∧
  (∃ (s : State) (g : HeadId) (i : MarginIn) (b : BayId) (k : BeamId) (p : Fin 5) (x : Trend) (v : BitVec 32),
    (Tab.get? s.calib.trials ↑g = none ∧ (s.heads[↑g].foc.sl = none ∨ s.fld Blk.calib CALIB.auto_trim = 0 ∨ s.heads[↑g].lost = true)) ∧
    (s.calib.changed = false) ∧ (s.calib.vcore = 0 ∧ s.calib.decoderSteps = 0 ∧ s.calib.limits = Vector.replicate 8 0 ∧
    i.decoderSlow = [] ∧ ∀ k ∈ marginKeys, (s.margin i k).short = false) ∧ (s.speedWant b = s.bays[↑b].speedStep ∨
    s.bays[↑b].sess ≠ SessState.read ∨ (s.bays[↑b].requests.any fun r => r.isRead && r.opened) = true) ∧
    (s.trendNow (Trend.laser g k p) = false) ∧ (s.trendNow x = true ∧
    Option.any (fun base => decide (s.trendLevel x base (s.trendValue x v.toNat) = 0)) (s.trendBase x) = true)) ∧
  (∃ (s : State) (g : HeadId), s.fld Blk.calib CALIB.auto_trim ≠ 0 ∧ s.sweeps = [] ∧ Tab.get? s.calib.trials ↑g = none ∧
    s.heads[↑g].lost = false ∧ s.heads[↑g].foc.sl.isSome = true) ∧
  (∃ (s : State) (g : HeadId), Option.any (fun x => decide (x.phase = TrialPhase.plus)) (Tab.get? s.calib.trials ↑g) = true) ∧
  (∃ (s : State) (g : HeadId) (f : BitVec 16), Option.any (fun x => decide (x.phase = TrialPhase.minus ∧
    ((x.fraction : Int) - (f.toNat : Int)).natAbs * 50 < 65536)) (Tab.get? s.calib.trials ↑g) = true) ∧
  (∃ (s : State) (g : HeadId) (f : BitVec 16), Option.any (fun x => decide (x.phase = TrialPhase.minus ∧
    65536 ≤ ((x.fraction : Int) - (f.toNat : Int)).natAbs * 50)) (Tab.get? s.calib.trials ↑g) = true) ∧
  (∃ (s : State) (g : HeadId) (w : BitVec 16), Option.any (fun x => decide (x.phase = TrialPhase.judge ∧
    w.toNat * 100 ≤ x.before * 105)) (Tab.get? s.calib.trials ↑g) = true) ∧
  (∃ (s : State) (g : HeadId) (w : BitVec 16), Option.any (fun x => decide (x.phase = TrialPhase.judge ∧
    x.before * 105 < w.toNat * 100)) (Tab.get? s.calib.trials ↑g) = true) ∧
  (∃ (s : State), s.calib.changed = true ∧ ∀ (n : ℕ), s.calib.lastSetWrite = some n → n + 3600000000000 ≤ s.time.localNs) ∧
  (∃ (s : State), Option.any (fun n => decide (s.time.localNs < n + 3600000000000)) s.calib.lastSetWrite = true) ∧
  (∃ (s : State) (i : MarginIn), s.fld Blk.calib CALIB.replan_enable ≠ 0 ∧ Tab.get? s.calib.waits 2 = none ∧
    s.fld Blk.power POWER.trim < 10 ∧ i.decoderSlow = [] ∧ ∀ k ∈ marginKeys, (s.margin i k).short = decide (k = 2)) ∧
  (∃ (s : State) (b : BayId), s.speedWant b ≠ s.bays[↑b].speedStep ∧ s.bays[↑b].sess = SessState.read ∧
    (s.bays[↑b].requests.any fun r => r.isRead && r.opened) = false ∧ s.fld (Blk.spindle b) SPINDLE.rpm ≠ s.readRpm b) ∧
  (∃ (s : State) (x : Trend), s.trendNow x = true ∧ s.trendBase x = none) ∧
  (∃ (s : State) (x : Trend) (v : BitVec 32), s.trendNow x = true ∧ Tab.get 0 s.calib.trends (trendKey x) < 2 ∧
    Option.any (fun base => decide (s.trendLevel x base (s.trendValue x v.toNat) = 2)) (s.trendBase x) = true) :=
  ⟨⟨3000, by decide +kernel⟩,
   ⟨{ on with calib := { on.calib with temps := [(0, 0)] } }, 0, 0, by decide +kernel⟩,
   ⟨{ on with calib := { on.calib with temps := [(0, 0)] } }, 0, 100, by decide +kernel⟩,
   ⟨State.reset, 0, M0, 0, 0, 0, .backEmf 0, 1, by decide +kernel⟩,
   ⟨(bay (fun x => { x with requests := [mail (.readWindow 4 0 8) (.running 0)], disc := some 7 })).modHead 0 (fun h =>
     { h with foc := { h.foc with st := .locked, sl := some 3 } }), 0, by decide +kernel⟩,
   ⟨{ on with calib := { on.calib with trials := [(0, ⟨trimKey 1 0 3, .plus, 0, 8, 0, 100⟩)] } }, 0, by decide +kernel⟩,
   ⟨{ on with calib := { on.calib with trials := [(0, ⟨trimKey 1 0 3, .minus, 0, 8, 0, 100⟩)] } }, 0, 0, by decide +kernel⟩,
   ⟨{ on with calib := { on.calib with trials := [(0, ⟨trimKey 1 0 3, .minus, 0, 8, 0, 100⟩)] } }, 0, -1, by decide +kernel⟩,
   ⟨{ on with calib := { on.calib with trials := [(0, ⟨trimKey 1 0 3, .judge, 0, 8, 0, 100⟩)] } }, 0, 0, by decide +kernel⟩,
   ⟨{ on with calib := { on.calib with trials := [(0, ⟨trimKey 1 0 3, .judge, 0, 8, 0, 100⟩)] } }, 0, -1, by decide +kernel⟩,
   ⟨{ on with calib := { on.calib with changed := true } }, by decide +kernel⟩,
   ⟨{ on with calib := { on.calib with changed := true, lastSetWrite := some 5 } }, by decide +kernel⟩,
   ⟨on, { M0 with cipherUnitNs := 3401 }, by decide +kernel⟩,
   ⟨bay (fun x => { x with speedStep := 3 }), 0, by decide +kernel⟩,
   ⟨head (fun h => { h with temp := 240 }), .laser 0 0 0, by decide +kernel⟩,
   ⟨State.reset, .backEmf 0, 0, by decide +kernel⟩⟩

/-- What `Obligations.StartsEndInFullOrMinimalMode` assumes is met, clause by clause. -/
theorem witness_StartsEndInFullOrMinimalMode :
  (∃ (s : State) (i : StartIn) (p : MgmtPath), (s.mgmt.startStep = 0 ∧ s.mgmt.started = false ∧ i.vinOk = true ∧ i.pwrGood = true) ∧ ((s.mgmt.startStep = 0 ∧ s.mgmt.started = false ∧ i.vinOk = true ∧ i.pwrGood = true) ∧ i.tamperLow = false ∧ i.otpOk = true ∧ i.flashOk = true ∧ i.firmwareOk = true ∧ i.domainsOk = true ∧ (State.chooseCopy ((State.startRecord { s.latchStrap with minimal := false }).modNv (fun n => { n with noFlash := false }))).any (fun x => let read := (State.startRecord { s.latchStrap with minimal := false }).modNv (fun n => { n with noFlash := false }); let u := (read.takeCopy x.1 x.2).modMgmt (fun m => { m with fw := versionOf (read.takeCopy x.1 x.2).nv.img, startStep := 5 }); decide (((u.startRuns.step6a (!u.regs.loaded)).step6b i).step6Fault i = none)) = true) ∧ (s.mgmt.started = false ∧ s.minimal = false ∧ s.failedStarts < 2 ∧ s.nv.boot.length < 2000) ∧ (s.mgmt.startStep = 0 ∨ s.power.powerFail = true) ∧ ((s.path p).busy = false)) ∧
  (∃ (s : State) (i : StartIn), (¬(s.mgmt.startStep = 0 ∧ s.mgmt.started = false ∧ i.vinOk = true ∧ i.pwrGood = true)) ∧ (s.mgmt.started = true ∨ s.minimal = true) ∧ (s.mgmt.startStep ≠ 0 ∧ s.power.powerFail = false) ∧ (s.mgmt.startStep ≠ 0 ∧ s.power.powerFail = false ∧ s.mgmt.started = true ∧ s.minimal = false ∧ i.firmwareOk = true ∧ i.domainsOk = true ∧ (let w := s.warmDown.warmForget; let u := w.modMgmt (fun m => { m with fw := versionOf w.nv.img, startStep := 5 }); decide (((u.startRuns.step6a (!u.regs.loaded)).step6b i).step6Fault i = none)) = true) ∧ (s.mgmt.startStep ≠ 0 ∧ s.power.powerFail = false ∧ s.mgmt.started = true ∧ s.minimal = false ∧ i.firmwareOk = true ∧ i.domainsOk = true ∧ (((s.warmDown.warmForget.modMgmt fun m => { mbox := m.mbox, smb := m.smb, fw := versionOf s.warmDown.warmForget.nv.img, oldFw := m.oldFw, oldCopy := m.oldCopy, act := m.act, coreB := m.coreB, newAct := m.newAct, startStep := 5, started := m.started, reason := m.reason }).startRuns.step6a !(s.warmDown.warmForget.modMgmt fun m => { mbox := m.mbox, smb := m.smb, fw := versionOf s.warmDown.warmForget.nv.img, oldFw := m.oldFw, oldCopy := m.oldCopy, act := m.act, coreB := m.coreB, newAct := m.newAct, startStep := 5, started := m.started, reason := m.reason }).regs.loaded).step6b i).step6Fault i = none)) ∧
  (∃ (s : State) (i : StartIn), s.mgmt.startStep = 0 ∧ s.mgmt.started = false ∧ s.failedStarts < 2 ∧ s.nv.boot.length < 2000 ∧
    i.vinOk = true ∧ i.pwrGood = true ∧ i.tamperLow = false ∧ i.otpOk = false) ∧
  (∃ (s : State) (i : StartIn), s.mgmt.startStep = 0 ∧ s.mgmt.started = false ∧ 2 ≤ s.failedStarts ∧ s.nv.boot.length < 2000 ∧
    i.vinOk = true ∧ i.pwrGood = true ∧ i.tamperLow = false ∧ i.otpOk = false) ∧
  (∃ (s : State) (p : MgmtPath), s.mgmt.act = none ∧ (s.path p).busy = true ∧ (s.path p).op = 6 ∧
    Option.any (fun l => decide (l ≠ [])) (s.path p).args = true) ∧
  (∃ (s : State) (p : MgmtPath), s.mgmt.act = none ∧ (s.path p).busy = true ∧ (s.path p).op = 6 ∧ Option.any (fun l => decide (l ≠ [] ∧
    bitOf (byteField l 0 1) 2 = true)) (s.path p).args = true) ∧
  (∃ (s : State) (p : MgmtPath), s.mgmt.act.isSome = true ∧ Option.any (fun l => decide (l ≠ [])) (s.path p).args = true) :=
  ⟨⟨State.reset, S0, .mailbox, by decide +kernel⟩,
   ⟨on, S0, by decide +kernel⟩,
   ⟨State.reset, { S0 with otpOk := false }, by decide +kernel⟩,
   ⟨{ State.reset with nv := { State.reset.nv with boot := [⟨1, 0, 0, 0, 1⟩, ⟨3, 9, 0, 0, 1⟩, ⟨1, 0, 0, 0, 2⟩, ⟨3, 9, 0, 0, 2⟩] } },
     { S0 with otpOk := false }, by decide +kernel⟩,
   ⟨runs (path 6 [2]), .sideband, by decide +kernel⟩,
   ⟨runs (path 6 [4]), .sideband, by decide +kernel⟩,
   ⟨(runs (path 6 [2])).modMgmt (fun m => { m with act := some ⟨1, 0, 5⟩ }), .sideband, by decide +kernel⟩⟩

/-- What `Obligations.ManagementPathsAnswerTheirRequests` assumes is met, clause by clause. -/
theorem witness_ManagementPathsAnswerTheirRequests :
  (∃ (s : State) (p : MgmtPath) (q : ℕ × Instr), q ∈ [(1, Instr.logRead p), (2, Instr.meterRead p), (3, Instr.sensorRead p), (4,
    Instr.nvWrite p), (5, Instr.nvRead p), (7, Instr.events p)] ∧ ((s.path p).busy = false ∨ (s.path p).op ≠ q.1)) ∧
  (∃ (s : State) (p : MgmtPath) (q : ℕ × Instr), (s.path p).busy = true ∧ (s.path p).args = none ∧ q ∈ [(1, Instr.logRead p), (2,
    Instr.meterRead p), (3, Instr.sensorRead p), (4, Instr.nvWrite p), (5, Instr.nvRead p), (7, Instr.events p)] ∧ (s.path p).op = q.1) ∧
  (∃ (s : State), s.answers Blk.mgmt = true ∧ s.mgmt.mbox.busy = true) ∧
  (∃ (s : State), s.answers Blk.mgmt = true ∧ s.mgmt.mbox.busy = false ∧ 1 ≤ ofLe (List.take 2 s.mgmt.mbox.request) ∧
    ofLe (List.take 2 s.mgmt.mbox.request) ≤ 7 ∧ s.mgmt.mbox.request.length = 4096) ∧
  (∃ (s : State), s.mgmt.smb.busy = true) ∧
  (∃ (s : State), s.mgmt.smb.busy = false ∧ 16 ≤ s.mgmt.smb.request.length ∧ 1 ≤ ofLe (List.take 2 s.mgmt.smb.request) ∧
    ofLe (List.take 2 s.mgmt.smb.request) ≤ 7) ∧
  (∃ (s : State), s.mgmt.smb.busy = false ∧ 16 ≤ s.mgmt.smb.request.length ∧ 7 < ofLe (List.take 2 s.mgmt.smb.request)) ∧
  (∃ (s : State) (p : MgmtPath), Option.any (fun a => decide (Option.any (fun b => decide ((s.path p).busy = true ∧ (s.path p).op = 1 ∧
    Option.any (fun args => decide (6 ≤ args.length ∧
    byteField args 4 2 ≤ 126)) (s.path p).args = true)) s.log.entries.head? = true)) s.log.entries.getLast? = true) ∧
  (∃ (s : State) (p : MgmtPath), (s.path p).busy = true ∧ (s.path p).op = 1 ∧ Option.any (fun args => decide (args.length < 6 ∨
    126 < byteField args 4 2)) (s.path p).args = true) ∧
  (∃ (s : State) (p : MgmtPath), s.minimal = false ∧ (s.path p).busy = true ∧ (s.path p).op = 2 ∧
    Option.any (fun args => decide (4 ≤ args.length ∧ byteField args 2 2 = 0 ∧ byteField args 0 2 ≤ 2049)) (s.path p).args = true) ∧
  (∃ (s : State) (p : MgmtPath), s.minimal = true ∧ (s.path p).busy = true ∧ (s.path p).op = 2 ∧ (s.path p).args.isSome = true) ∧
  (∃ (s : State) (p : MgmtPath), s.minimal = false ∧ (s.path p).busy = true ∧ (s.path p).op = 2 ∧
    Option.any (fun args => decide (args.length < 4 ∨ 100 < byteField args 2 2 ∨
    2049 < byteField args 0 2 + byteField args 2 2)) (s.path p).args = true) ∧
  (∃ (s : State) (p : MgmtPath), s.minimal = false ∧ (s.path p).busy = true ∧ (s.path p).op = 3 ∧ (s.path p).args.isSome = true) ∧
  (∃ (s : State) (p : MgmtPath), s.minimal = true ∧ (s.path p).busy = true ∧ (s.path p).op = 3 ∧ (s.path p).args.isSome = true) ∧
  (∃ (s : State) (p : MgmtPath), s.nv.noFlash = false ∧ (s.path p).busy = true ∧ (s.path p).op = 5 ∧
    Option.any (fun args => decide (7 ≤ args.length ∧ byteField args 0 1 ≤ 1 ∧ byteField args 5 2 ≤ 4032 ∧
    byteField args 1 4 + byteField args 5 2 ≤ 8388608)) (s.path p).args = true) ∧
  (∃ (s : State) (p : MgmtPath), (s.path p).busy = true ∧ (s.path p).op = 4 ∧
    Option.any (fun args => decide (s.pieceStatus p args ≠ 0)) (s.path p).args = true) ∧
  (∃ (s : State) (p : MgmtPath), (s.path p).busy = true ∧ (s.path p).op = 4 ∧ Option.any (fun args => decide (s.pieceStatus p args = 0 ∧
    bitOf (byteField args 4 4) 0 = true ∧ bitOf (byteField args 4 4) 1 = false)) (s.path p).args = true) ∧
  (∃ (s : State) (p : MgmtPath), ((s.path p).busy = true ∧ (s.path p).op = 7 ∧
    Option.any (fun args => decide (4 ≤ args.length)) (s.path p).args = true) ∧ ((s.path p).busy = true ∧ (s.path p).op = 7 ∧
    p = MgmtPath.sideband ∧ Option.any (fun args => decide (4 ≤ args.length)) (s.path p).args = true)) :=
  ⟨⟨State.reset, .mailbox, (1, .logRead .mailbox), by decide +kernel⟩,
   ⟨runs { path 1 [] with running := [1, 0, 0, 0, 100, 0, 0, 0, 0, 0, 0, 0, 0, 0, 0, 0] }, .sideband, (1, .logRead .sideband),
     by decide +kernel⟩,
   ⟨on.modMgmt (fun m => { m with mbox := { m.mbox with busy := true } }), by decide +kernel⟩,
   ⟨on.modMgmt (fun m => { m with mbox := { m.mbox with request := 7 :: List.replicate 4095 0 } }), by decide +kernel⟩,
   ⟨runs (path 6 [2]), by decide +kernel⟩,
   ⟨on.modMgmt (fun m => { m with smb := { m.smb with request := 7 :: List.replicate 15 0 } }), by decide +kernel⟩,
   ⟨on.modMgmt (fun m => { m with smb := { m.smb with request := 8 :: List.replicate 15 0 } }), by decide +kernel⟩,
   ⟨{ runs (path 1 [0, 0, 0, 0, 1, 0]) with log := { on.log with entries := [⟨0, 0, 0, .start, 0, []⟩], next := 1 } }, .sideband,
     by decide +kernel⟩,
   ⟨runs (path 1 []), .sideband, by decide +kernel⟩,
   ⟨runs (path 2 [0, 0, 0, 0]), .sideband, by decide +kernel⟩,
   ⟨{ runs (path 2 [0, 0, 0, 0]) with minimal := true }, .sideband, by decide +kernel⟩,
   ⟨runs (path 2 []), .sideband, by decide +kernel⟩,
   ⟨runs (path 3 []), .sideband, by decide +kernel⟩,
   ⟨{ runs (path 3 []) with minimal := true }, .sideband, by decide +kernel⟩,
   ⟨runs (path 5 [0, 0, 0, 0, 0, 8, 0]), .sideband, by decide +kernel⟩,
   ⟨runs (path 4 []), .sideband, by decide +kernel⟩,
   ⟨runs (path 4 [0, 0, 0, 0, 1, 0, 0, 0, 9]), .sideband, by decide +kernel⟩,
   ⟨runs (path 7 [1, 0, 0, 0]), .sideband, by decide +kernel⟩⟩

/-- What `Obligations.RegisterWritesImagesAndMetersAct` assumes is met, clause by clause. -/
theorem witness_RegisterWritesImagesAndMetersAct :
  (∃ (s : State) (g : HeadId) (e : Fin 7) (b : BayId) (c : DramChan) (n : Fin 4), (s.answers (Blk.eng g e) = false) ∧
    (s.answers (Blk.spindle b) = false) ∧ (s.answers (Blk.dramc c) = false) ∧ (s.answers (Blk.taxis n) = false) ∧
    (s.answers (Blk.chan g) = false) ∧ (s.answers Blk.cipher = false)) ∧
  (∃ (s : State), (s.answers Blk.chain = false) ∧ (s.answers Blk.calib = false) ∧ (s.answers Blk.power = true) ∧
    (s.nv.programming = none) ∧ (s.mayWriteOwned = false) ∧ (s.nv.hold = none ∨ s.time.localNs < s.nv.holdAt + 10000000000)) ∧
  (∃ (s : State) (a : BitVec 26), (s.answers Blk.power = false) ∧ (s.spanAnswers (a.toNat / 4 * 4) = false)) ∧
  (∃ (n : BitVec 16), n ≠ 4 ∧ n ≠ 8) ∧
  (∃ (a : BitVec 64), a.toNat % 4 = 0) ∧
  (∃ (first : BitVec 16) (last : BitVec 16), (commitRange first.toNat last.toNat).isEmpty = true) ∧
  (∃ (first : BitVec 16) (last : BitVec 16), (commitRange first.toNat last.toNat).isEmpty = false) ∧
  (∃ (s : State), s.answers Blk.mgmt = true) ∧
  (∃ (s : State), s.power.powerFail = false ∧ s.nv.programming.isSome = true) ∧
  (∃ (s : State) (ok : Bool), (Option.any (fun x => decide (ok = false ∨ s.power.powerFail = true)) s.nv.programming = true) ∧
    (s.power.powerFail = true ∨ s.nv.noFlash = true)) ∧
  (∃ (s : State), s.mayWriteOwned = true) ∧
  (∃ (s : State), s.nv.hold.isSome = true ∧ s.nv.holdAt + 10000000000 ≤ s.time.localNs) ∧
  (∃ (s : State), s.power.powerFail = false ∧ s.nv.noFlash = false ∧ s.meter.snap.isSome = true) :=
  ⟨⟨State.reset, 0, 0, 0, .a, 0, by decide +kernel⟩,
   ⟨State.reset, by decide +kernel⟩,
   ⟨{ State.reset with minimal := true }, 0x10000, by decide +kernel⟩,
   ⟨0, by decide +kernel⟩,
   ⟨0, by decide +kernel⟩,
   ⟨0, 0, by decide +kernel⟩,
   ⟨0, -1, by decide +kernel⟩,
   ⟨on, by decide +kernel⟩,
   ⟨{ on with nv := { on.nv with programming := some (0, [], true) } }, by decide +kernel⟩,
   ⟨{ on with power := { on.power with powerFail := true }, nv := { on.nv with programming := some (0, [], true) } }, true,
     by decide +kernel⟩,
   ⟨{ on with nv := { on.nv with dueOwned := true } }, by decide +kernel⟩,
   ⟨{ on with nv := { on.nv with hold := some .sideband, holdAt := 0 }, time := { on.time with localNs := 10000000000 } },
     by decide +kernel⟩,
   ⟨{ on with meter := { on.meter with snap := some (4, 0, []) } }, by decide +kernel⟩⟩

/-- What `Obligations.StepServesTheQueueInOrder` assumes is met, clause by clause. -/
theorem witness_StepServesTheQueueInOrder :
  (∃ (s : State), (s.pending = []) ∧ (s.pending = [] ∧ s.time.slew = 0 ∧ s.time.slewFrac = 0)) :=
  ⟨State.reset, by decide +kernel⟩

/-- What `Obligations.ResetLeavesEveryFieldBare` assumes is met, clause by clause. -/
theorem witness_ResetLeavesEveryFieldBare :
  (∃ (d : ℕ), d < 20) :=
  ⟨0, by decide +kernel⟩

/-- What the legality of a step assumes is met: the machine is legal after reset. -/
theorem witness_EveryStepKeepsTheModuleLegal : ∃ s : State, s.Legal :=
  ⟨State.reset, by unfold State.Legal modeLegal logBounded; decide +kernel⟩

/-- The reference's return is claimed of states with a legal mode. -/
theorem witness_legal_mode : ∃ s : State, modeLegal s := ⟨on, by unfold modeLegal; decide +kernel⟩

/-- A table of 65,536 overlapping writes, with an SQ whose next command is not yet known. -/
def overlapFull : State :=
  { on with
    funcs := [(0, { Func.reset with st := .attached })]
    sqs := [⟨0, 1, 0, 8, 1, false, 0, 1, 0, false, none, false⟩]
    cqs := [⟨0, 1, 0, 8, 0, 0, 0, 0, 0, true, 0, false, [], 0⟩]
    cmds := List.replicate 65536 { cmd 3 2 [] with f := 5 } }

/-- A fetch may find the overlap table full (R339). -/
theorem witness_overlap_full : ∃ (s : State) (e : EntryIn) (p : Pick), s.arb.paused = false ∧ s.host.active = true ∧
    s.pick = some p ∧ p.sq.q ≠ 0 ∧ e.opcode = 2 ∧ 65536 ≤ s.overlapUsed :=
  ⟨overlapFull, entry 2 [], .normal ⟨0, 1, 0, 8, 1, false, 0, 1, 0, false, none, false⟩ 0, by decide +kernel⟩

end Sys2Proof.Tests
end

namespace Sys2Proof.Machine

/-! ### Every command, through the dispatch -/

/-- The six commands that start, restart or reset the module (R458, R481 to R483, R526). -/
def startsModule : Instr → Bool
  | .coldStart _ | .startTimeout | .warmStart _ | .referenceRestored _ | .restart _ _ | .rstNAssert => true
  | _ => false

/-- The dispatch: a command that does not start the module keeps what its own meaning keeps. -/
theorem exec_keep (i : Instr) (s : State) (h : startsModule i = false) : KeepNext s (exec i s) := by
  cases i with
  | coldStart | startTimeout | warmStart | referenceRestored | restart | rstNAssert => cases h
  | _ =>
    -- Each arm is a call of one meaning, whose own `exec…_keep` closes it.
    simp only [exec]
    simp

/-- A command that starts the module goes on as well, and keeps the queue, the log's bound, the DRAM's form and a legal mode. -/
theorem exec_ends_of_starts (i : Instr) (s : State) (h : startsModule i = true) : EndsNext s (exec i s) := by
  cases i with
  | coldStart x => exact execColdStart_ends x s
  | startTimeout => exact execStartTimeout_ends s
  | warmStart x => exact execWarmStart_ends x s
  | referenceRestored x => exact execReferenceRestored_ends x s
  | restart p x => exact execRestart_ends p x s
  | rstNAssert => exact execRstNAssert_ends s
  | _ => cases h

/-- Whatever the command and the state, the outcome is a next state that keeps the queue, the log's bound, the DRAM's form and a
legal mode. -/
theorem exec_ends (i : Instr) (s : State) : EndsNext s (exec i s) := by
  cases h : startsModule i with
  | false => exact (exec_keep i s h).ends
  | true => exact exec_ends_of_starts i s h

/-- Settles O59: every command's outcome keeps the queue (`exec_ends`). -/
theorem everyCommandAnswersAndKeepsTheQueue : Obligations.EveryCommandAnswersAndKeepsTheQueue := by
  intro i s
  obtain ⟨t, ht, ⟨hqueue, -, -⟩, -⟩ := exec_ends i s
  exact ⟨t, ht, hqueue⟩

/-! ### A step -/

theorem step_cons (i : Instr) (rest : List Instr) (s : State) :
    step { s with pending := i :: rest } = exec i { s with pending := rest } := rfl

theorem step_idle (s : State) (h : s.pending = []) : step s = .next s.idle := by
  simp only [step, h]

/-- Clamping to a range that holds 0 keeps 0. -/
theorem clampI_zero (a : Int) : clampI 0 (min 0 a) (max 0 a) = 0 := by
  simp only [clampI]
  omega

/-- Without a slew, time leaves the published offset as it was (R439). -/
theorem Timebase.advance_offset (t : Timebase) (n : Nat) (hs : t.slew = 0) (hf : t.slewFrac = 0) :
    (t.advance n).offset = t.offset := by
  simp [Timebase.advance, hs, hf, clampI_zero]

/-- Settles O56: the front command runs on the state with the queue's rest, and an empty queue leaves a step to the timebase alone. -/
theorem stepServesTheQueueInOrder : Obligations.StepServesTheQueueInOrder := by
  refine ⟨fun c rest s => step_cons c rest s, fun s h => ?_, fun s h hs hf => ?_⟩
  · exact ⟨s.idle, step_idle s h, rfl, rfl⟩
  · exact ⟨s.idle, step_idle s h, s.time.advance_offset 40 hs hf⟩

/-! ### The state after reset -/

/-- Before the Factory values are loaded, a field that nothing has set holds its Bare value (R6). -/
theorem State.reset_fields (b : Blk) (f : Field) :
    State.reset.fld b f = f.bare ∧ State.reset.act b f = f.bare ∧ State.reset.sta b f = f.bare := ⟨rfl, rfl, rfl⟩

theorem State.reset_legal : State.reset.Legal :=
  ⟨nofun, Nat.zero_le _, rfl⟩

theorem State.reset_pdOn (d : Nat) : State.reset.pdOn d = false := by
  simp [State.pdOn, State.reset, Power.reset, bitOf]

theorem State.reset_head (g : HeadId) : State.reset.heads[g.val] = Head.reset g := by
  simp [State.reset]

theorem State.reset_loop (g : HeadId) (l : Fin 6) : (State.reset.heads[g.val]).loops[l.val] = LoopSt.reset g l.val := by
  simp [State.reset_head, Head.reset]

theorem State.reset_spindle (b : BayId) : State.reset.spindle b = Spindle.reset := by
  simp [State.spindle, State.reset, Bay.reset]

theorem State.reset_axis (a : AxisId) : State.reset.axis a = Axis.reset := by
  cases a <;> simp [State.axis, State.reset, Transport.reset]

theorem State.reset_port (k : Fin 2) : State.reset.port k = PortSt.reset := by
  simp [State.port, State.reset, Chain.reset]

/-- Settles O57, part by part: the fields, the domains, and every sequencer, drive, axis and port at its reset value. -/
theorem resetLeavesEveryFieldBare : Obligations.ResetLeavesEveryFieldBare := by
  refine ⟨State.reset_fields, State.reset_legal, rfl, rfl, rfl, rfl, rfl, rfl, fun d _ => State.reset_pdOn d,
    fun g => ⟨?_, ?_, fun l => ?_⟩, fun b => ?_, fun a => ?_, fun k => ?_⟩
  · rw [State.focState, State.reset_head]; rfl
  · rw [State.trkState, State.reset_head]; rfl
  · rw [State.reset_loop]; rfl
  · rw [State.reset_spindle]; rfl
  · rw [State.reset_axis]; rfl
  · rw [State.reset_port]; rfl

end Sys2Proof.Machine

namespace Sys2Proof.Machine

/-! ### The legal states -/

/-- What every command leaves is enough to stay legal. -/
theorem Ends.legal {s t : State} (h : Ends s t) (hs : s.Legal) : t.Legal := by
  obtain ⟨⟨-, hlog, hdram⟩, hmode⟩ := h
  obtain ⟨mode, log, dram⟩ := hs
  exact ⟨hmode mode, hlog log, hdram dram⟩

/-- The commands that wait are no part of legality. -/
theorem State.legal_of_pending {s : State} (q : List Instr) (hs : s.Legal) : State.Legal { s with pending := q } := hs

/-- Time moves the timebase alone, which is no part of legality. -/
theorem State.idle_legal {s : State} (hs : s.Legal) : s.idle.Legal := hs

/-- Every command leaves a legal state legal. -/
theorem exec_legal (i : Instr) {s : State} (hs : s.Legal) : Next (exec i s) State.Legal := by
  obtain ⟨t, ht, hends⟩ := exec_ends i s
  exact ⟨t, ht, hends.legal hs⟩

/-- With a command at the front of the queue, a step carries it out on the queue's rest. -/
theorem step_front {s : State} {i : Instr} {rest : List Instr} (h : s.pending = i :: rest) :
    step s = exec i { s with pending := rest } := by
  simp only [step, h]

/-- Settles O58: a step idles or carries out the front command, and both keep a legal state legal. -/
theorem everyStepKeepsTheModuleLegal : Obligations.EveryStepKeepsTheModuleLegal := by
  intro s hs
  cases hq : s.pending with
  | nil => exact ⟨s.idle, step_idle s hq, State.idle_legal hs⟩
  | cons i rest =>
    rw [step_front hq]
    exact exec_legal i (State.legal_of_pending rest hs)

/-! ### The I/O commands (R27, R29, R342, R344, R345) -/

theorem State.adminCmd?_of_unknown {s : State} {id : BitVec 64} (h : s.cmd? id.toNat = none) (op : Byte) :
    s.adminCmd? id op = none := by
  simp only [State.adminCmd?, h]

/-- READ, WRITE with its data come and not come, FLUSH, FENCE and three admin commands, each for the command that a number names. -/
def hostCommands (id : BitVec 64) : List Instr :=
  [.read id, .write id true, .write id false, .flush id, .fence id, .getMetering id, .createCq id, .deleteSq id]

/-- A number that names no command changes nothing. -/
theorem exec_hostCommands_unknown {s : State} {id : BitVec 64} (h : s.cmd? id.toNat = none) :
    ∀ i ∈ hostCommands id, exec i s = .next s := by
  have hadmin := State.adminCmd?_of_unknown h
  simp only [hostCommands, List.forall_mem_cons, exec]
  refine ⟨?read, ?write, ?writeFailed, ?flush, ?fence, ?getMetering, ?createCq, ?deleteSq, nofun⟩
  case read => simp only [execRead, h]
  case write => simp only [execWrite, h]
  case writeFailed => simp only [execWrite, h]
  case flush => simp only [execFlush, h]
  case fence => simp only [execFence, h]
  case getMetering => simp only [execGetMetering, hadmin]
  case createCq => simp only [execCreateCq, hadmin]
  case deleteSq => simp only [execDeleteSq, hadmin]

/-- Outputs sent one after another stand in the outbox newest first. -/
theorem State.foldl_emit {α : Type} (g : α → Output) (l : List α) (s : State) :
    l.foldl (fun t x => t.emit (g x)) s = { s with out := (l.map g).reverse ++ s.out } := by
  induction l generalizing s with
  | nil => rfl
  | cons x l ih =>
    rw [List.foldl_cons, ih]
    simp [State.emit]

section
variable {s : State} {id : BitVec 64} {c : Cmd} (hc : s.cmd? id.toNat = some c)
include hc

theorem execRead_running (hread : c.isRead = true) (hrun : c.stage = .running) : execRead id s =
    .next (((c.blocks.mapIdx (fun i x => (i, x))).foldl (fun t p => t.readBlock c p.1 p.2) s).readCheck c.id) := by
  simp only [execRead, hc, hread, hrun, and_self, if_true]

theorem execWrite_untouched (hwrite : c.isWrite = true) (hrun : c.stage = .running)
    (htodo : c.units.all (fun u => u == .todo) = true) : execWrite id true s = .next (s.dmaIn c) := by
  simp [execWrite, hc, hwrite, hrun, htodo]

theorem execWrite_dataFailed (hwrite : c.isWrite = true) (hrun : c.stage = .running) :
    execWrite id false s = .next (s.draw.2.failWrite c.id (stat 0 3) (s.draw.1 % c.count) false) := by
  simp [execWrite, hc, hwrite, hrun]

theorem execWrite_dataIn (hwrite : c.isWrite = true) (hin : c.stage = .dataIn) (ok : Bool) :
    execWrite id ok s = .next s.placeReady := by
  simp [execWrite, hc, hwrite, hin]

section
variable (hio : c.admin = false) (hop : c.e.opcode = 3) (hrun : c.stage = .running) (hrw : s.onReadOnly c.e.nsid = false)
include hio hop hrun hrw

theorem execFlush_ends (hwait : c.waitFor = []) (hanchors : c.anchors = [])
    (hnone : specByte c.e 36 ≠ 1 ∨ s.discsSinceAnchor = []) :
    execFlush id s = .next (s.finish c.id 0 0 0xFFFFFFFF false) := by
  have hdiscs : (if specByte c.e 36 = 1 then s.discsSinceAnchor else []) = [] := by
    rcases hnone with hflag | hdiscs
    · exact if_neg hflag
    · rw [hdiscs, ite_self]
  simp [execFlush, hc, hio, hop, hrun, hrw, hwait, hanchors, hdiscs]

/-- Its flag set, a FLUSH asks each disc written since its last generation for one. -/
theorem execFlush_asksAnchors (hwait : c.waitFor = []) (hanchors : c.anchors = []) (hflag : specByte c.e 36 = 1)
    (hdiscs : s.discsSinceAnchor ≠ []) :
    execFlush id s = .next (s.modCmd c.id (fun x => { x with anchors := s.discsSinceAnchor })) := by
  simp [execFlush, hc, hio, hop, hrun, hrw, hwait, hanchors, hflag, hdiscs]

theorem execFlush_waits (hwait : c.waitFor ≠ []) : execFlush id s = .next s := by
  simp [execFlush, hc, hio, hop, hrun, hrw, hwait]

end

theorem execFence_ends (hfence : c.isFence = true) (hrun : c.stage = .running) (hwait : c.waitFor = []) :
    execFence id s = .next (s.finish c.id 0 0 0xFFFFFFFF false) := by
  simp only [execFence, hc, hfence, hrun, hwait, and_self, if_true]

theorem execFence_waits (hwait : c.waitFor ≠ []) : execFence id s = .next s := by
  simp only [execFence, hc, hwait, and_false, if_false]

end

/-- Settles O35, clause by clause: a number that names no command, then READ, WRITE, FLUSH and FENCE. -/
theorem ioCommandsResolveTransferAndEnd : Obligations.IoCommandsResolveTransferAndEnd := by
  intro s id
  refine ⟨exec_hostCommands_unknown, fun c hc =>
    ⟨?read, ?writeData, ?writeFailed, ?writePlaced, ?flush, ?flushWaits, ?fence, ?fenceWaits⟩⟩
  case read => exact execRead_running hc
  case writeData => exact fun hwrite hrun htodo =>
    ⟨s.dmaIn c, execWrite_untouched hc hwrite hrun htodo, by simp only [State.dmaIn, State.foldl_emit, and_self]⟩
  case writeFailed => exact execWrite_dataFailed hc
  case writePlaced => exact execWrite_dataIn hc
  case flush => exact fun hio hop hrun hrw hwait hanchors =>
    ⟨execFlush_ends hc hio hop hrun hrw hwait hanchors, execFlush_asksAnchors hc hio hop hrun hrw hwait hanchors⟩
  case flushWaits => exact execFlush_waits hc
  case fence => exact execFence_ends hc
  case fenceWaits => exact execFence_waits hc

end Sys2Proof.Machine

namespace Sys2Proof.Machine

/-! ### Invalid wedge headers (R42) -/

theorem exec_wedgeHeader (g : HeadId) (k : BeamId) (h : HeaderIn) (s : State) :
    exec (.wedgeHeader g k h) s = execWedgeHeader g k h s := rfl

theorem slValid_eq_false_iff (sl : BitVec 5) : slValid sl = false ↔ 12 ≤ slLayer sl := by
  rw [slValid, decide_eq_false_iff_not, Nat.not_lt]

/-- A header is turned down for one of the three reasons of R42, or for a wedge number that no turn has. -/
theorem headerGood_eq_false_iff (h : HeaderIn) :
    headerGood h = false ↔
      h.biphaseOk = false ∨ h.parityOk = false ∨ 12 ≤ slLayer h.sideLayer ∨ 720 ≤ h.wedge.toNat := by
  simp only [headerGood, Bool.and_eq_false_iff, slValid_eq_false_iff, decide_eq_false_iff_not, Nat.not_lt, or_assoc]

theorem execWedgeHeader_of_headerGood_eq_false (g : HeadId) (k : BeamId) {h : HeaderIn} (s : State)
    (hbad : headerGood h = false) : execWedgeHeader g k h s = .next s := by
  simp only [execWedgeHeader, hbad, Bool.not_false, Bool.or_true, if_true]

/-- Settles O48: each of the three reasons makes the header a bad one, and a bad header is passed over. -/
theorem invalidHeadersGiveNoPosition : Obligations.InvalidHeadersGiveNoPosition := by
  intro s g k h hinvalid
  have hbad : headerGood h = false := by
    rw [headerGood_eq_false_iff]
    rcases hinvalid with hbiphase | hparity | hlayer
    · exact .inl hbiphase
    · exact .inr (.inl hparity)
    · exact .inr (.inr (.inl hlayer))
  rw [exec_wedgeHeader]
  exact execWedgeHeader_of_headerGood_eq_false g k s hbad

end Sys2Proof.Machine

namespace Sys2Proof.Machine

/-! ### What a commit to the calibration store reaches (R461) -/

/-- The value that a commit keeps of v: v within the range of the trim (Table 19-1). -/
def trimClamp (key : Nat) (v : Int) : Int :=
  clampI v (trimRange (keyCode key) (keyIndex key)).1 (trimRange (keyCode key) (keyIndex key)).2

/-- A commit's first part: a value outside its range is reported. -/
def State.reportLimit (s : State) (key : Nat) (v : Int) : State :=
  if trimClamp key v = v then s
  else (s.flag .calib CALIB.trim_limit).logEv (srcBlock 15) .trimLimit [key, keyHead key]

/-- A commit's second part: the value goes to the base set of a sweep that moves the trim, else to the trims. -/
def State.storeTrim (s : State) (key : Nat) (w : Int) : State :=
  match Tab.get? s.sweeps (keyHead key) with
  | some x =>
    if (Tab.get? x.base key).isSome then { s with sweeps := Tab.put s.sweeps (keyHead key) { x with base := Tab.put x.base key w } }
    else { s with trims := Tab.put s.trims key w }
  | none => { s with trims := Tab.put s.trims key w }

theorem State.commitTrim_eq (s : State) (key : Nat) (v : Int) :
    s.commitTrim key v = (s.reportLimit key v).storeTrim key (trimClamp key v) := rfl

theorem State.reportLimit_frame (s : State) (key : Nat) (v : Int) :
    s.reportLimit key v = { s with regs := (s.reportLimit key v).regs, log := (s.reportLimit key v).log } := by
  unfold State.reportLimit
  split <;> rfl

theorem State.storeTrim_frame (s : State) (key : Nat) (w : Int) :
    s.storeTrim key w = { s with trims := (s.storeTrim key w).trims, sweeps := (s.storeTrim key w).sweeps } := by
  unfold State.storeTrim
  split
  · split <;> rfl
  · rfl

theorem State.reportLimit_sweeps (s : State) (key : Nat) (v : Int) : (s.reportLimit key v).sweeps = s.sweeps := by
  rw [State.reportLimit_frame]

theorem State.reportLimit_trims (s : State) (key : Nat) (v : Int) : (s.reportLimit key v).trims = s.trims := by
  rw [State.reportLimit_frame]

theorem State.commitTrim_frame (s : State) (key : Nat) (v : Int) :
    s.commitTrim key v = { s with
      regs := (s.commitTrim key v).regs, log := (s.commitTrim key v).log
      trims := (s.commitTrim key v).trims, sweeps := (s.commitTrim key v).sweeps } := by
  rw [State.commitTrim_eq, State.storeTrim_frame, State.reportLimit_frame]

@[simp] theorem State.commitTrim_calib (s : State) (key : Nat) (v : Int) : (s.commitTrim key v).calib = s.calib := by
  rw [State.commitTrim_frame]

@[simp] theorem State.commitTrim_heads (s : State) (key : Nat) (v : Int) : (s.commitTrim key v).heads = s.heads := by
  rw [State.commitTrim_frame]

@[simp] theorem State.commitTrim_free (s : State) (key : Nat) (v : Int) : (s.commitTrim key v).free = s.free := by
  rw [State.commitTrim_frame]

/-- Two states with the same trims and sweeps store a value alike. -/
theorem State.storeTrim_trims_congr {s u : State} (htrims : u.trims = s.trims) (hsweeps : u.sweeps = s.sweeps) (key : Nat) (w : Int) :
    (u.storeTrim key w).trims = (s.storeTrim key w).trims := by
  simp only [State.storeTrim, htrims, hsweeps]
  split
  · split <;> rfl
  · rfl

/-- Two states with the same trims and sweeps commit a value alike. -/
theorem State.commitTrim_trims_congr {s u : State} (htrims : u.trims = s.trims) (hsweeps : u.sweeps = s.sweeps) (key : Nat) (v : Int) :
    (u.commitTrim key v).trims = (s.commitTrim key v).trims := by
  rw [State.commitTrim_eq, State.commitTrim_eq]
  refine State.storeTrim_trims_congr ?_ ?_ key _
  · rw [State.reportLimit_trims, State.reportLimit_trims, htrims]
  · rw [State.reportLimit_sweeps, State.reportLimit_sweeps, hsweeps]

/-- The calibration's own state has no part in what a commit stores. -/
theorem State.commitTrim_modCalib_trims (s : State) (f : CalibSt → CalibSt) (key : Nat) (v : Int) :
    ((s.modCalib f).commitTrim key v).trims = (s.commitTrim key v).trims :=
  State.commitTrim_trims_congr (s := s) (u := s.modCalib f) rfl rfl key v

theorem State.commitTrim_of_sweeps_nil {s : State} (h : s.sweeps = []) (key : Nat) (v : Int) :
    s.commitTrim key v = { s with
      regs := (s.reportLimit key v).regs, log := (s.reportLimit key v).log
      trims := Tab.put s.trims key (trimClamp key v) } := by
  rw [State.commitTrim_eq, State.reportLimit_frame]
  simp only [State.storeTrim, h, Tab.get?]

/-- Of the status fields a commit writes the limit flag alone. -/
theorem State.commitTrim_sta (s : State) (key : Nat) (v : Int) (b : Blk) (f : Field)
    (h : regKey .calib CALIB.trim_limit ≠ regKey b f) : (s.commitTrim key v).sta b f = s.sta b f := by
  rw [State.commitTrim_eq, State.storeTrim_frame]
  change (s.reportLimit key v).sta b f = s.sta b f
  unfold State.reportLimit
  split
  · rfl
  · exact (s.sta_setSta .calib b CALIB.trim_limit f 1).trans (if_neg h)

/-! ### Head temperature (R72, R462) -/

theorem exec_trimTempRecompute (g : HeadId) (v : BitVec 16) (s : State) :
    exec (.trimTempRecompute g v) s = execTrimTempRecompute g v s := rfl

theorem State.modHead_heads (s : State) (g : HeadId) (f : Head → Head) :
    (s.modHead g f).heads[g.val] = f s.heads[g.val] ∧ ∀ k : HeadId, k ≠ g → (s.modHead g f).heads[k.val] = s.heads[k.val] :=
  ⟨vmod_get_self s.heads g f, fun k hk => vmod_get_ne s.heads g f k hk⟩

theorem execTrimTempRecompute_of_outside {v : BitVec 16} (h : v.toInt < -640 ∨ 2400 < v.toInt) (g : HeadId) (s : State) :
    let fault := s.modHead g (fun h => { h with sensorFault := true })
    execTrimTempRecompute g v s = .next (if s.heads[g.val].sensorFault then fault
      else fault.logEv srcCalib .sensorFault [g.val, v.toNat]) := by
  simp only [execTrimTempRecompute, h, if_true]
  split <;> rfl

section
variable {v : BitVec 16} {s : State} {g : HeadId} {p : Int}
  (hlow : -640 ≤ v.toInt) (hhigh : v.toInt ≤ 2400) (hlast : Tab.get? s.calib.temps g.val = some p)
include hlow hhigh hlast

theorem execTrimTempRecompute_near (h : (v.toInt - p).natAbs < 8) :
    execTrimTempRecompute g v s = .next (s.modHead g (fun h => { h with temp := v.toInt, sensorFault := false })) := by
  have hin : ¬ (v.toInt < -640 ∨ 2400 < v.toInt) := by omega
  simp only [execTrimTempRecompute, hin, if_false, hlast, decide_eq_true_eq, if_neg (Nat.not_le.mpr h)]

theorem execTrimTempRecompute_far (h : 8 ≤ (v.toInt - p).natAbs) :
    execTrimTempRecompute g v s =
      .next ((s.modHead g (fun h => { h with temp := v.toInt, sensorFault := false })).recomputeTrims g) := by
  have hin : ¬ (v.toInt < -640 ∨ 2400 < v.toInt) := by omega
  simp only [execTrimTempRecompute, hin, if_false, hlast, decide_eq_true_eq, if_pos h]

end

/-! ### Trials (R466) -/

theorem exec_trialPhaseEnd (g : HeadId) (f w : BitVec 16) (s : State) :
    exec (.trialPhaseEnd g f w) s = execTrialPhaseEnd g f w s := rfl

/-- The head's trial is x. -/
def State.putTrial (s : State) (g : HeadId) (x : Trial) : State :=
  s.modCalib (fun c => { c with trials := Tab.put c.trials g.val x })

/-- The head has no trial. -/
def State.dropTrial (s : State) (g : HeadId) : State :=
  s.modCalib (fun c => { c with trials := Tab.erase c.trials g.val })

@[simp] theorem State.putTrial_trials (s : State) (g : HeadId) (x : Trial) : Tab.get? (s.putTrial g x).calib.trials g.val = some x :=
  (Tab.get?_put s.calib.trials g.val g.val x).trans (if_pos rfl)

@[simp] theorem State.dropTrial_trials (s : State) (g : HeadId) : Tab.get? (s.dropTrial g).calib.trials g.val = none :=
  (Tab.get?_erase s.calib.trials g.val g.val).trans (if_pos rfl)

/-- The trial that begins on a head in focus on side-layer sl, of the trim that the next free value names (log entry 53). -/
def State.drawnTrial (s : State) (g : HeadId) (sl : BitVec 5) (weight : Nat) : Trial :=
  let key := trimKey (1 + Config.freeNat s.free % 3) g.val sl.toNat
  ⟨key, .plus, Tab.get 0 s.trims key, 8, 0, weight⟩

theorem State.trialStart_refused {s : State} {g : HeadId}
    (h : s.heads[g.val].foc.sl = none ∨ s.fld .calib CALIB.auto_trim = 0 ∨ s.heads[g.val].lost = true) (weight : Nat) :
    s.trialStart g weight = s := by
  unfold State.trialStart
  split
  next => rfl
  next sl hsl =>
    have hbar : s.fld .calib CALIB.auto_trim = 0 ∨ s.heads[g.val].lost = true ∨ (Tab.get? s.sweeps g.val).isSome = true := by
      rcases h with hnone | hoff | hlost
      · simp [hsl] at hnone
      · exact .inl hoff
      · exact .inr (.inl hlost)
    exact if_pos hbar

theorem State.trialStart_begins {s : State} {g : HeadId} {sl : BitVec 5} (hsl : s.heads[g.val].foc.sl = some sl)
    (hauto : s.fld .calib CALIB.auto_trim ≠ 0) (hlost : s.heads[g.val].lost = false) (hsweeps : s.sweeps = []) (weight : Nat) :
    let x := s.drawnTrial g sl weight
    s.trialStart g weight = ((s.draw.2.putTrial g x).commitTrim x.key (x.base + 8)).incSat .calib CALIB.trials := by
  simp only [State.trialStart, hsl, hauto, hlost, hsweeps, Tab.get?]
  rfl

/-- A trial that begins commits + dither to its trim. -/
theorem State.trialStart_spec {s : State} {g : HeadId} {sl : BitVec 5} (hsl : s.heads[g.val].foc.sl = some sl)
    (hauto : s.fld .calib CALIB.auto_trim ≠ 0) (hlost : s.heads[g.val].lost = false) (hsweeps : s.sweeps = []) (weight : Nat) :
    let x := s.drawnTrial g sl weight
    let t := s.trialStart g weight
    t.calib = (s.putTrial g x).calib ∧ t.trims = Tab.put s.trims x.key (trimClamp x.key (x.base + 8)) ∧
      t = { s with calib := t.calib, trims := t.trims, regs := t.regs, log := t.log, free := t.free } := by
  have hnone : (s.draw.2.putTrial g (s.drawnTrial g sl weight)).sweeps = [] := hsweeps
  dsimp only
  rw [State.trialStart_begins hsl hauto hlost hsweeps, State.commitTrim_of_sweeps_nil hnone]
  exact ⟨rfl, rfl, rfl⟩

theorem execTrialPhaseEnd_of_no_trial {s : State} {g : HeadId} (h : Tab.get? s.calib.trials g.val = none) (f w : BitVec 16) :
    execTrialPhaseEnd g f w s = .next (s.trialStart g w.toNat) := by
  simp only [execTrialPhaseEnd, h]

section
variable {s : State} {g : HeadId} {x : Trial} (hx : Tab.get? s.calib.trials g.val = some x) (f w : BitVec 16)
include hx

theorem execTrialPhaseEnd_plus (hphase : x.phase = .plus) : execTrialPhaseEnd g f w s =
    .next ((s.putTrial g { x with phase := .minus, fraction := f.toNat }).commitTrim x.key (x.base - x.dither)) := by
  simp only [execTrialPhaseEnd, hx, hphase]
  rfl

theorem execTrialPhaseEnd_minus_alike (hphase : x.phase = .minus) (hdiff : ((x.fraction : Int) - f.toNat).natAbs * 50 < 65536) :
    execTrialPhaseEnd g f w s = .next ((s.dropTrial g).commitTrim x.key x.base) := by
  simp only [execTrialPhaseEnd, hx, hphase, hdiff, if_true]
  rfl

/-- Of the two sides of the dither, that with the lower fraction of low margins is taken. -/
theorem execTrialPhaseEnd_minus_better (hphase : x.phase = .minus) (hdiff : 65536 ≤ ((x.fraction : Int) - f.toNat).natAbs * 50) :
    let d := if x.fraction < f.toNat then x.dither else -x.dither
    execTrialPhaseEnd g f w s = .next ((s.putTrial g { x with phase := .judge, dither := d }).commitTrim x.key (x.base + d)) := by
  have hside : (x.fraction : Int) - f.toNat < 0 ↔ x.fraction < f.toNat := by omega
  simp only [execTrialPhaseEnd, hx, hphase, if_neg (Nat.not_lt.mpr hdiff), hside]
  rfl

theorem execTrialPhaseEnd_judge_stands (hphase : x.phase = .judge) (hweight : w.toNat * 100 ≤ x.before * 105) :
    execTrialPhaseEnd g f w s = .next ((s.dropTrial g).learnTrim g x.key x.dither) := by
  simp only [execTrialPhaseEnd, hx, hphase, hweight, if_true]
  rfl

theorem execTrialPhaseEnd_judge_rejected (hphase : x.phase = .judge) (hweight : x.before * 105 < w.toNat * 100) :
    execTrialPhaseEnd g f w s = .next ((((s.dropTrial g).commitTrim x.key x.base).incSat .calib CALIB.rejected).logEv
      srcCalib .trimRejected [x.key, g.val]) := by
  simp only [execTrialPhaseEnd, hx, hphase, if_neg (Nat.not_le.mpr hweight)]
  rfl

end

/-- A saturating counter counts one up. -/
theorem State.incSat_sta (s : State) (b : Blk) (f : Field) : (s.incSat b f).sta b f = min (s.sta b f + 1) (2 ^ f.width - 1) := by
  have hfits : min (s.sta b f + 1) (2 ^ f.width - 1) < 2 ^ f.width :=
    Nat.lt_of_le_of_lt (Nat.min_le_right _ _) (Nat.sub_one_lt (Nat.two_pow_pos _).ne')
  exact (s.sta_setSta_self b f _).trans (Nat.mod_eq_of_lt hfits)

/-! ### Head sets (R463) -/

theorem exec_headSetNvWrite (s : State) : exec .headSetNvWrite s = execHeadSetNvWrite s := rfl

theorem execHeadSetNvWrite_due {s : State} (hchanged : s.calib.changed = true)
    (hdue : ∀ n, s.calib.lastSetWrite = some n → n + 3600000000000 ≤ s.time.localNs) :
    execHeadSetNvWrite s = .next { s with
      calib := { s.calib with changed := false, lastSetWrite := some s.time.localNs }, nv := { s.nv with dueOwned := true } } := by
  cases hlast : s.calib.lastSetWrite with
  | none => simp only [execHeadSetNvWrite, hlast, hchanged, Bool.and_true, if_true]
  | some n => simp only [execHeadSetNvWrite, hlast, hchanged, hdue n hlast, decide_true, Bool.and_true, if_true]

theorem execHeadSetNvWrite_unchanged {s : State} (h : s.calib.changed = false) : execHeadSetNvWrite s = .next s := by
  simp only [execHeadSetNvWrite, h, Bool.false_and, Bool.false_eq_true, if_false]

theorem execHeadSetNvWrite_early {s : State} {n : Nat} (hlast : s.calib.lastSetWrite = some n)
    (hearly : s.time.localNs < n + 3600000000000) : execHeadSetNvWrite s = .next s := by
  simp only [execHeadSetNvWrite, hlast, decide_eq_false (Nat.not_le.mpr hearly), Bool.and_false, Bool.false_eq_true, if_false]

/-! ### Speed steps (R469) -/

theorem exec_speedStepApply (b : BayId) (s : State) : exec (.speedStepApply b) s = execSpeedStepApply b s := rfl

theorem execSpeedStepApply_kept {b : BayId} {s : State}
    (h : s.speedWant b = s.bays[b.val].speedStep ∨ s.bays[b.val].sess ≠ .read ∨
      s.bays[b.val].requests.any (fun r => r.isRead && r.opened) = true) : execSpeedStepApply b s = .next s := by
  simp only [execSpeedStepApply, h, if_true]

/-- A spindle that does not turn at the read speed keeps its target under a new step. -/
theorem execSpeedStepApply_off_target {b : BayId} {s : State} (hwant : s.speedWant b ≠ s.bays[b.val].speedStep)
    (hread : s.bays[b.val].sess = .read) (hclosed : s.bays[b.val].requests.any (fun r => r.isRead && r.opened) = false)
    (hrpm : s.fld (.spindle b) SPINDLE.rpm ≠ s.readRpm b) :
    execSpeedStepApply b s = .next ((s.modBay b (fun y => { y with speedStep := s.speedWant b })).logEv
      (srcBay b 1) .speedStep [s.speedWant b]) := by
  simp only [execSpeedStepApply, hwant, hread, hclosed, hrpm, ne_eq, not_true_eq_false, Bool.false_eq_true, or_false, if_false,
    decide_false]

/-! ### Margins (R467 to R470) -/

theorem exec_marginEvaluation (i : MarginIn) (s : State) : exec (.marginEvaluation i) s = execMarginEvaluation i s := rfl

/-- The registers of the calibration block lie above those of every loop's engine (Tables 21-1, 21-2). -/
theorem regKey_engBlk_ne_calib (g : HeadId) (l : Fin 6) (e f : Field) (he : e.off < 0x400) (hlo : e.lo < 32) :
    regKey .calib f ≠ regKey (engBlk g l) e := by
  simp only [regKey, engBlk, Blk.base, headBase, bayBase]
  omega

@[simp] theorem State.runSlacks_setSta_calib (s : State) (f : Field) (v : Nat) : (s.setSta .calib f v).runSlacks = s.runSlacks := by
  have hslack : ∀ g l, (s.setSta .calib f v).sta (engBlk g l) ENG.slack_min = s.sta (engBlk g l) ENG.slack_min := fun g l =>
    (s.sta_setSta .calib (engBlk g l) f ENG.slack_min v).trans
      (if_neg (regKey_engBlk_ne_calib g l ENG.slack_min f (by decide) (by decide)))
  simp only [State.runSlacks, hslack, State.setSta_fields]

@[simp] theorem State.margin_setSta_calib (s : State) (i : MarginIn) (f : Field) (v k : Nat) :
    (s.setSta .calib f v).margin i k = s.margin i k := by
  simp only [State.margin, State.runSlacks_setSta_calib]
  rfl

@[simp] theorem State.margin_trackGood (s : State) (i : MarginIn) (k : Nat) : (s.trackGood i).margin i k = s.margin i k := rfl

/-- The measures of an evaluation with no slow decoder: the status fields, and since when each margin is good. -/
def State.measured (s : State) (i : MarginIn) : State :=
  let worst := leastSlack s.runSlacks
  let s1 := (s.setSta .calib CALIB.worst_slack (min 0xFFF (min i.enginePrediction ((worst.map (·.1)).getD i.enginePrediction)))).setSta
    .calib CALIB.worst_engine ((worst.map (fun w => ((s.heads[w.2.1.val]).loops[w.2.2.val]).runner)).getD 0)
  (s1.setSta .calib CALIB.cap_now (match s1.capacity i with
    | some (c, d) => min 65535 (100 * c / max 1 d)
    | none => 65535)).trackGood i

/-- Measuring writes status fields and the times since which the margins are good. -/
theorem State.measured_frame (s : State) (i : MarginIn) :
    s.measured i = { s with
      regs := { s.regs with sts := (s.measured i).regs.sts }, calib := { s.calib with good := (s.measured i).calib.good } } := rfl

@[simp] theorem State.measured_margin (s : State) (i : MarginIn) (k : Nat) : (s.measured i).margin i k = s.margin i k := by
  simp only [State.measured, State.margin_trackGood, State.margin_setSta_calib]

@[simp] theorem State.measured_fld (s : State) (i : MarginIn) (b : Blk) (f : Field) : (s.measured i).fld b f = s.fld b f := rfl

/-- The settling time of a margin is over. -/
def State.settled (s : State) (k : Nat) : Bool :=
  match Tab.get? s.calib.waits k with
  | some t => decide (t ≤ s.time.localNs)
  | none => true

theorem State.settled_of_no_wait {s : State} {k : Nat} (h : Tab.get? s.calib.waits k = none) : s.settled k = true := by
  simp only [State.settled, h]

/-- The margins for which an evaluation acts. -/
def State.shortMargins (s : State) (i : MarginIn) : List Nat := marginKeys.filter (fun k => (s.margin i k).short && s.settled k)

theorem execMarginEvaluation_eq {i : MarginIn} (hslow : i.decoderSlow = []) (s : State) :
    execMarginEvaluation i s =
      let m := s.measured i
      if m.fld .calib CALIB.replan_enable = 0 then .next m
      else if (m.shortMargins i).isEmpty then .next m.undoStep else .next (m.restoreMargins i (m.shortMargins i)) := by
  simp only [execMarginEvaluation, hslow, List.foldl_nil]
  rfl

theorem State.shortMargins_of_none_short {s : State} {i : MarginIn} (h : ∀ k ∈ marginKeys, (s.margin i k).short = false) :
    s.shortMargins i = [] := by
  refine List.filter_eq_nil_iff.mpr fun k hk => ?_
  simp only [h k hk, Bool.false_and, Bool.false_eq_true, not_false_eq_true]

theorem State.shortMargins_of_cipher_short {s : State} {i : MarginIn}
    (h : ∀ k ∈ marginKeys, (s.margin i k).short = decide (k = 2)) (hsettled : s.settled 2 = true) : s.shortMargins i = [2] := by
  have hcipher : ∀ k ∈ marginKeys, ((s.margin i k).short && s.settled k) = decide (k = 2) := by
    intro k hk
    rw [h k hk]
    by_cases hk2 : k = 2
    · subst hk2
      rw [hsettled, Bool.and_true]
    · simp only [hk2, decide_false, Bool.false_and]
  rw [State.shortMargins, List.filter_congr hcipher]
  decide

theorem State.limitClear_of_no_limits {s : State} (h : s.calib.limits = Vector.replicate 8 0) : s.limitClear = none := by
  refine List.find?_eq_none.mpr fun b _ => ?_
  simp [h]

/-- Where no step stands, there is none to undo (R470). -/
theorem State.undoStep_of_no_steps {s : State} (hvcore : s.calib.vcore = 0) (hdecoder : s.calib.decoderSteps = 0)
    (hlimits : s.calib.limits = Vector.replicate 8 0) : s.undoStep = s := by
  simp only [State.undoStep, State.limitClear_of_no_limits hlimits, hvcore, hdecoder, Nat.lt_irrefl, false_and, if_false]

/-- A cipher margin alone short has the step of VCORE for its only step (Table 19-3). -/
theorem State.restoreMargins_of_cipher {s : State} (h : s.fld .power POWER.trim < 10) (i : MarginIn) :
    s.restoreMargins i [2] = (s.takeStep i 2 2).settleMargins [2] := by
  simp [State.restoreMargins, marginSteps, State.stepCan, worstMargin, h]

theorem execMarginEvaluation_reports_alone {s : State} {i : MarginIn} (hslow : i.decoderSlow = [])
    (hshort : ∀ k ∈ marginKeys, (s.margin i k).short = false) (hvcore : s.calib.vcore = 0) (hdecoder : s.calib.decoderSteps = 0)
    (hlimits : s.calib.limits = Vector.replicate 8 0) : execMarginEvaluation i s = .next (s.measured i) := by
  have hnone : (s.measured i).shortMargins i = [] :=
    State.shortMargins_of_none_short fun k hk => by rw [State.measured_margin, hshort k hk]
  have hundo : (s.measured i).undoStep = s.measured i := State.undoStep_of_no_steps hvcore hdecoder hlimits
  rw [execMarginEvaluation_eq hslow]
  dsimp only
  rw [hnone, hundo, List.isEmpty_nil, if_pos rfl, ite_self]

theorem execMarginEvaluation_raises_vcore {s : State} {i : MarginIn} (hslow : i.decoderSlow = [])
    (hreplan : s.fld .calib CALIB.replan_enable ≠ 0) (hshort : ∀ k ∈ marginKeys, (s.margin i k).short = decide (k = 2))
    (hwait : Tab.get? s.calib.waits 2 = none) (htrim : s.fld .power POWER.trim < 10) :
    execMarginEvaluation i s = .next (((s.measured i).takeStep i 2 2).settleMargins [2]) := by
  have hcipher : (s.measured i).shortMargins i = [2] :=
    State.shortMargins_of_cipher_short (fun k hk => by rw [State.measured_margin, hshort k hk]) (State.settled_of_no_wait hwait)
  have hrestore : (s.measured i).restoreMargins i [2] = ((s.measured i).takeStep i 2 2).settleMargins [2] :=
    State.restoreMargins_of_cipher (by rwa [State.measured_fld]) i
  simp only [execMarginEvaluation_eq hslow, State.measured_fld, hreplan, hcipher, hrestore, List.isEmpty_cons, Bool.false_eq_true,
    if_false]

theorem State.takeStep_vcore (s : State) (i : MarginIn) (k : Nat) :
    s.takeStep i k 2 =
      ((s.setFld .power POWER.trim (s.fld .power POWER.trim + 1)).modCalib (fun c => { c with vcore := c.vcore + 1 })).action 2 := rfl

/-- A step of VCORE reaches the register file and the calibration's state. -/
theorem State.takeStep_vcore_frame (s : State) (i : MarginIn) (k : Nat) :
    s.takeStep i k 2 = { s with regs := (s.takeStep i k 2).regs, calib := { s.calib with vcore := s.calib.vcore + 1 } } := rfl

theorem State.takeStep_vcore_trim {s : State} (h : s.fld .power POWER.trim < 10) (i : MarginIn) (k : Nat) :
    (s.takeStep i k 2).fld .power POWER.trim = s.fld .power POWER.trim + 1 := by
  have hfits : s.fld .power POWER.trim + 1 < 2 ^ POWER.trim.width := by
    simp only [POWER.trim] at h ⊢
    omega
  rw [State.takeStep_vcore]
  exact ((s.fld_setFld .power .power POWER.trim POWER.trim _).trans (if_pos rfl)).trans (Nat.mod_eq_of_lt hfits)

theorem State.takeStep_vcore_action (s : State) (i : MarginIn) (k : Nat) : (s.takeStep i k 2).sta .calib CALIB.last_action = 2 :=
  State.sta_setSta_self _ .calib CALIB.last_action 2

theorem State.settleMargins_frame (s : State) (l : List Nat) :
    s.settleMargins l = { s with calib := { s.calib with waits := (s.settleMargins l).calib.waits } } := rfl

theorem State.settleMargins_fld (s : State) (l : List Nat) (b : Blk) (f : Field) : (s.settleMargins l).fld b f = s.fld b f := rfl

theorem State.settleMargins_sta (s : State) (l : List Nat) (b : Blk) (f : Field) : (s.settleMargins l).sta b f = s.sta b f := rfl

/-- The step of VCORE after an evaluation's measures, with its margin waiting to settle. -/
theorem State.vcoreStep_spec {s : State} (h : s.fld .power POWER.trim < 10) (i : MarginIn) :
    let t := ((s.measured i).takeStep i 2 2).settleMargins [2]
    t.fld .power POWER.trim = s.fld .power POWER.trim + 1 ∧ t.calib.vcore = s.calib.vcore + 1 ∧ t.sta .calib CALIB.last_action = 2 ∧
      t = { s with regs := t.regs, calib := t.calib } := by
  refine ⟨?trim, ?vcore, ?action, ?frame⟩
  case trim => rw [State.settleMargins_fld, State.takeStep_vcore_trim (by rwa [State.measured_fld]), State.measured_fld]
  case vcore => rw [State.settleMargins_frame, State.takeStep_vcore_frame, State.measured_frame]
  case action => rw [State.settleMargins_sta, State.takeStep_vcore_action]
  case frame => rw [State.settleMargins_frame, State.takeStep_vcore_frame, State.measured_frame]

/-! ### Trends (R471) -/

theorem exec_trendEvaluation (x : Trend) (v : BitVec 32) (s : State) : exec (.trendEvaluation x v) s = execTrendEvaluation x v s := rfl

theorem execTrendEvaluation_not_now {s : State} {x : Trend} (h : s.trendNow x = false) (v : BitVec 32) :
    execTrendEvaluation x v s = .next s := by
  simp only [execTrendEvaluation, h, Bool.not_false, if_true]

/-- The state with a trend at a level. -/
def State.putTrend (s : State) (x : Trend) (level : Nat) : State :=
  s.modCalib (fun c => { c with trends := Tab.set 0 c.trends (trendKey x) level })

@[simp] theorem State.putTrend_trends (s : State) (x : Trend) (level : Nat) :
    Tab.get 0 (s.putTrend x level).calib.trends (trendKey x) = level :=
  (Tab.get_set 0 s.calib.trends (trendKey x) (trendKey x) level).trans (if_pos rfl)

/-- A crossing of the warn level is reported. -/
def State.warnTrend (s : State) (x : Trend) (v : Nat) : State := (s.flag .calib CALIB.trend_warn).logVec (trendSrc x) .trend [1, v] 4

/-- A crossing of the limit is reported, and no margin is left. -/
def State.limitTrend (s : State) (x : Trend) (v : Nat) : State :=
  (((s.flag .calib CALIB.trend_limit).flag .calib CALIB.margin_exhausted).action 4).logVec (trendSrc x) .trend [2, v] 4

section
variable {s : State} {x : Trend} (hnow : s.trendNow x = true)
include hnow

theorem execTrendEvaluation_first (hbase : s.trendBase x = none) (v : BitVec 32) :
    execTrendEvaluation x v s = .next { s with
      calib := { s.calib with bases := Tab.put s.calib.bases (trendKey x) (s.trendValue x v.toNat) }
      nv := { s.nv with dueOwned := true } } := by
  simp only [execTrendEvaluation, hnow, hbase, Bool.not_true, Bool.false_eq_true, if_false]

variable {v : BitVec 32} {base : Nat} (hbase : s.trendBase x = some base)
include hbase

theorem execTrendEvaluation_below (hlevel : s.trendLevel x base (s.trendValue x v.toNat) = 0) :
    execTrendEvaluation x v s = .next (s.putTrend x 0) := by
  have hwarn : ¬ (1 : Nat) ≤ 0 := by decide
  have hlimit : ¬ (0 : Nat) = 2 := by decide
  simp only [execTrendEvaluation, hnow, hbase, hlevel, hwarn, hlimit, and_false, Bool.not_true, Bool.false_eq_true, if_false]
  rfl

theorem execTrendEvaluation_limit (hlevel : s.trendLevel x base (s.trendValue x v.toNat) = 2)
    (hold : Tab.get 0 s.calib.trends (trendKey x) < 2) :
    let n := s.trendValue x v.toNat
    execTrendEvaluation x v s = .next ((if Tab.get 0 s.calib.trends (trendKey x) < 1 then (s.putTrend x 2).warnTrend x n
      else s.putTrend x 2).limitTrend x n) := by
  have hwarn : (1 : Nat) ≤ 2 := by decide
  simp only [execTrendEvaluation, hnow, hbase, hlevel, hold, hwarn, and_true, Bool.not_true, Bool.false_eq_true, if_false, if_true]
  rfl

end

theorem State.fireVector_frame (s : State) (f : FuncId) (v : Nat) :
    s.fireVector f v = { s with msix := (s.fireVector f v).msix, out := (s.fireVector f v).out } := by
  unfold State.fireVector
  split_ifs
  · rfl
  · rfl
  · dsimp only
    split <;> rfl

/-- An event raises its bit, and reaches MSI-X and what leaves the module. -/
theorem State.mgmtEvent_frame (s : State) (bit : Nat) :
    s.mgmtEvent bit = { s with
      log := { s.log with events := s.log.events ||| BitVec.ofNat 13 (2 ^ bit) }
      msix := (s.mgmtEvent bit).msix, out := (s.mgmtEvent bit).out } := by
  unfold State.mgmtEvent
  dsimp only
  split
  · rw [State.fireVector_frame]
  · rfl

theorem State.logVec_frame (s : State) (src : BitVec 16) (e : Ev) (data : List Nat) (bit : Nat) :
    s.logVec src e data bit = { s with
      log := (s.logVec src e data bit).log, msix := (s.logVec src e data bit).msix, out := (s.logVec src e data bit).out } := by
  rw [State.logVec, State.mgmtEvent_frame]
  rfl

theorem State.logVec_calib (s : State) (src : BitVec 16) (e : Ev) (data : List Nat) (bit : Nat) :
    (s.logVec src e data bit).calib = s.calib := by
  rw [State.logVec_frame]

theorem State.logVec_sta (s : State) (src : BitVec 16) (e : Ev) (data : List Nat) (bit : Nat) (b : Blk) (f : Field) :
    (s.logVec src e data bit).sta b f = s.sta b f := by
  rw [State.logVec_frame]
  rfl

theorem State.logVec_event (s : State) (src : BitVec 16) (e : Ev) (data : List Nat) {bit : Nat} (h : bit < 13) :
    (s.logVec src e data bit).log.events.getLsbD bit = true := by
  rw [State.logVec, State.mgmtEvent_frame]
  simp only [BitVec.getLsbD_or, BitVec.getLsbD_ofNat, h, Nat.testBit_two_pow_self, decide_true, Bool.and_true, Bool.or_true]

theorem State.warnTrend_calib (s : State) (x : Trend) (v : Nat) : (s.warnTrend x v).calib = s.calib := State.logVec_calib ..

theorem State.limitTrend_calib (s : State) (x : Trend) (v : Nat) : (s.limitTrend x v).calib = s.calib := State.logVec_calib ..

theorem State.limitTrend_event (s : State) (x : Trend) (v : Nat) : (s.limitTrend x v).log.events.getLsbD 4 = true :=
  State.logVec_event _ _ _ _ (by decide)

theorem State.limitTrend_flags (s : State) (x : Trend) (v : Nat) :
    (s.limitTrend x v).sta .calib CALIB.trend_limit = 1 ∧ (s.limitTrend x v).sta .calib CALIB.margin_exhausted = 1 := by
  have hexhausted : regKey .calib CALIB.margin_exhausted ≠ regKey .calib CALIB.trend_limit := by decide
  have haction : regKey .calib CALIB.last_action ≠ regKey .calib CALIB.trend_limit := by decide
  have haction' : regKey .calib CALIB.last_action ≠ regKey .calib CALIB.margin_exhausted := by decide
  constructor
  · rw [State.limitTrend, State.logVec_sta, State.action, State.sta_setSta, if_neg haction, State.flag, State.sta_setSta,
      if_neg hexhausted, State.flag, State.sta_setSta_self]
    rfl
  · rw [State.limitTrend, State.logVec_sta, State.action, State.sta_setSta, if_neg haction', State.flag, State.sta_setSta_self]
    rfl

/-! ### Calibration, trials, margins and trends together -/

/-- Settles O52: each command on its branches, one equation of its meaning for each. -/
theorem calibrationTrialsMarginsAndTrends : Obligations.CalibrationTrialsMarginsAndTrends := by
  intro s g b
  simp only [exec_trimTempRecompute, exec_trialPhaseEnd, exec_headSetNvWrite, exec_marginEvaluation, exec_speedStepApply,
    exec_trendEvaluation]
  refine ⟨?outside, ?near, ?far, ?trialRefused, ?trialBegins, ?plus, ?minusAlike, ?minusBetter, ?stands, ?rejected, ?due, ?unchanged,
    ?early, ?reportsAlone, ?raisesVcore, ?stepKept, ?stepApplied, ?notNow, ?baseline, ?below, ?limit⟩
  case outside =>
    intro v hv
    refine ⟨_, execTrimTempRecompute_of_outside hv g s, ?_⟩
    split <;> exact ⟨s.modHead_heads g _, rfl⟩
  case near => exact fun v p hlow hhigh hlast hnear =>
    ⟨_, execTrimTempRecompute_near hlow hhigh hlast hnear, s.modHead_heads g _, rfl⟩
  case far => exact fun v p => execTrimTempRecompute_far
  case trialRefused =>
    intro f w hnone hbar
    exact (execTrialPhaseEnd_of_no_trial hnone f w).trans (congrArg _ (State.trialStart_refused hbar w.toNat))
  case trialBegins =>
    intro f w sl hnone hsl hauto hlost hsweeps
    obtain ⟨hcalib, htrims, hframe⟩ := State.trialStart_spec hsl hauto hlost hsweeps w.toNat
    refine ⟨_, execTrialPhaseEnd_of_no_trial hnone f w, s.drawnTrial g sl w.toNat, ?_, rfl, rfl, rfl, rfl, ?_, hframe⟩
    · rw [hcalib, State.putTrial_trials]
    · rw [htrims, Tab.get?_put, if_pos rfl, trimClamp]
  case plus =>
    intro f w x hx hphase
    refine ⟨_, execTrialPhaseEnd_plus hx f w hphase, ?_, (s.commitTrim_modCalib_trims _ _ _).symm, ?_, ?_⟩
    · rw [State.commitTrim_calib, State.putTrial_trials]
    · exact State.commitTrim_heads ..
    · exact State.commitTrim_free ..
  case minusAlike => exact fun f w x hx => execTrialPhaseEnd_minus_alike hx f w
  case minusBetter =>
    intro f w x hx hphase hdiff
    refine ⟨_, execTrialPhaseEnd_minus_better hx f w hphase hdiff, ?_, s.commitTrim_modCalib_trims _ _ _⟩
    rw [State.commitTrim_calib, State.putTrial_trials]
  case stands => exact fun f w x hx => execTrialPhaseEnd_judge_stands hx f w
  case rejected =>
    intro f w x hx hphase hweight
    have hcount : ((s.dropTrial g).commitTrim x.key x.base).sta .calib CALIB.rejected = s.sta .calib CALIB.rejected :=
      State.commitTrim_sta _ _ _ _ _ (by decide)
    refine ⟨_, execTrialPhaseEnd_judge_rejected hx f w hphase hweight, ?_, s.commitTrim_modCalib_trims _ _ _, ?_⟩
    · simp only [State.logEv_fields, State.incSat_fields, State.commitTrim_calib, State.dropTrial_trials]
    · exact (State.incSat_sta _ _ _).trans (by rw [hcount])
  case due => exact fun hchanged hdue => ⟨_, execHeadSetNvWrite_due hchanged hdue, rfl, rfl⟩
  case unchanged => exact execHeadSetNvWrite_unchanged
  case early => exact fun n => execHeadSetNvWrite_early
  case reportsAlone => exact fun i hslow hshort hvcore hdecoder hlimits =>
    ⟨_, execMarginEvaluation_reports_alone hslow hshort hvcore hdecoder hlimits, rfl, rfl, rfl, rfl⟩
  case raisesVcore => exact fun i hslow hreplan hshort hwait htrim =>
    ⟨_, execMarginEvaluation_raises_vcore hslow hreplan hshort hwait htrim,
      State.vcoreStep_spec htrim i⟩
  case stepKept => exact execSpeedStepApply_kept
  case stepApplied => exact fun hwant hread hclosed hrpm =>
    ⟨_, execSpeedStepApply_off_target hwant hread hclosed hrpm, vmod_get_self s.bays b _, rfl, rfl⟩
  case notNow => exact fun k p v hnow => execTrendEvaluation_not_now hnow v
  case baseline => exact fun x v hnow hbase =>
    ⟨_, execTrendEvaluation_first hnow hbase v, (Tab.get?_put _ _ _ _).trans (if_pos rfl), rfl⟩
  case below => exact fun x v base hnow hbase hlevel => ⟨_, execTrendEvaluation_below hnow hbase hlevel, s.putTrend_trends x 0, rfl⟩
  case limit =>
    intro x v base hnow hbase hlevel hold
    obtain ⟨htrend, hexhausted⟩ := State.limitTrend_flags (if Tab.get 0 s.calib.trends (trendKey x) < 1 then
      (s.putTrend x 2).warnTrend x (s.trendValue x v.toNat) else s.putTrend x 2) x (s.trendValue x v.toNat)
    refine ⟨_, execTrendEvaluation_limit hnow hbase hlevel hold, ?_, htrend, hexhausted, State.limitTrend_event ..⟩
    rw [State.limitTrend_calib]
    split
    · rw [State.warnTrend_calib, State.putTrend_trends]
    · exact s.putTrend_trends x 2

end Sys2Proof.Machine

namespace Sys2Proof.Machine

/-! ### The output of an engine's sample (R97) -/

theorem clampI_bounds {lo hi : Int} (h : lo ≤ hi) (i : Int) : lo ≤ clampI i lo hi ∧ clampI i lo hi ≤ hi := by
  unfold clampI
  split
  · exact ⟨le_refl lo, h⟩
  · split <;> omega

/-- A clamp to a range that holds p takes no value farther from p. -/
theorem clampI_near {lo hi p d v : Int} (hp : lo ≤ p ∧ p ≤ hi) (hv : p - d ≤ v ∧ v ≤ p + d) :
    p - d ≤ clampI v lo hi ∧ clampI v lo hi ≤ p + d := by
  unfold clampI
  split
  · omega
  · split <;> omega

/-- The program's last operations: the slew limit around the previous output, then the clamp (R97). -/
theorem compute_out (e : EngSet) (l : LoopSt) (runout : Int) : ∃ u : Int, (compute e l runout).out =
    BitVec.ofInt 18 (clampI (clampI u (l.prevOut.toInt - e.slew) (l.prevOut.toInt + e.slew)) e.lo e.hi) :=
  ⟨_, rfl⟩

/-- Settles O6: the clamp comes last, and the slew limit before it is around a point that the clamp keeps. -/
theorem engineOutputStaysWithinItsLimits : Obligations.EngineOutputStaysWithinItsLimits := by
  intro e l runout hlim hlo hhi
  obtain ⟨u, hu⟩ := compute_out e l runout
  set v := clampI u (l.prevOut.toInt - e.slew) (l.prevOut.toInt + e.slew)
  obtain ⟨hge, hle⟩ := clampI_bounds hlim v
  have hout : (compute e l runout).out.toInt = clampI v e.lo e.hi := by
    rw [hu, BitVec.toInt_ofInt_eq_self] <;> omega
  simp only [hout]
  exact ⟨hge, hle, fun hslew hprevLo hprevHi => clampI_near ⟨hprevLo, hprevHi⟩ (clampI_bounds (by omega) u)⟩

/-! ### Status fields of one block -/

/-- Fields of one block at different places have registers of their own. -/
theorem regKey_ne_of_place (b : Blk) {f g : Field} (h : f.off * 32 + f.lo ≠ g.off * 32 + g.lo) : regKey b f ≠ regKey b g := by
  unfold regKey
  omega

/-- What one step of a fold establishes, and every step keeps, holds at the fold's end. -/
theorem foldl_establishes {α β : Type} {P : β → Prop} {f : β → α → β} (hkeep : ∀ t a, P t → P (f t a)) {l : List α} {a : α}
    (ha : a ∈ l) (hset : ∀ t, P (f t a)) (s : β) : P (l.foldl f s) := by
  obtain ⟨before, after, rfl⟩ := List.append_of_mem ha
  rw [List.foldl_append, List.foldl_cons]
  exact List.foldlRecOn after f (hset _) fun t ht x _ => hkeep t x ht

/-- The status fields of a list read 0. -/
def State.zeroStas (s : State) (b : Blk) (fs : List Field) : State := fs.foldl (fun t f => t.setSta b f 0) s

/-- A status field that reads 0 reads 0 after another, or itself, is cleared. -/
theorem State.setSta_zero_keeps_zero {s : State} {c : Blk} {g : Field} (h : s.sta c g = 0) (b : Blk) (f : Field) :
    (s.setSta b f 0).sta c g = 0 := by
  rw [State.sta_setSta, Nat.zero_mod, h, ite_self]

theorem State.zeroStas_keeps_zero {s : State} {c : Blk} {g : Field} (h : s.sta c g = 0) (b : Blk) (fs : List Field) :
    (s.zeroStas b fs).sta c g = 0 :=
  List.foldlRecOn (motive := fun t : State => t.sta c g = 0) fs _ h fun _ ht f _ => State.setSta_zero_keeps_zero ht b f

theorem State.zeroStas_sta_mem {fs : List Field} {f : Field} (hf : f ∈ fs) (s : State) (b : Blk) : (s.zeroStas b fs).sta b f = 0 :=
  foldl_establishes (P := fun t : State => t.sta b f = 0) (fun _ g ht => State.setSta_zero_keeps_zero ht b g) hf
    (fun t => (t.sta_setSta_self b f 0).trans (Nat.zero_mod _)) s

theorem State.zeroStas_sta_other {b c : Blk} {fs : List Field} {g : Field} (h : ∀ f ∈ fs, regKey b f ≠ regKey c g) (s : State) :
    (s.zeroStas b fs).sta c g = s.sta c g :=
  List.foldlRecOn (motive := fun t : State => t.sta c g = s.sta c g) fs _ rfl fun t ht f hf => by
    rw [State.sta_setSta, if_neg (h f hf), ht]

/-- At most the table of status values differs between two states. -/
def StsAlone (s t : State) : Prop := t = { s with regs := { s.regs with sts := t.regs.sts } }

theorem StsAlone.refl (s : State) : StsAlone s s := rfl

theorem StsAlone.setSta {s t : State} (h : StsAlone s t) (b : Blk) (f : Field) (v : Nat) : StsAlone s (t.setSta b f v) := by
  unfold StsAlone at *
  rw [h]
  rfl

theorem State.zeroStas_stsAlone (s : State) (b : Blk) (fs : List Field) : StsAlone s (s.zeroStas b fs) :=
  List.foldlRecOn (motive := StsAlone s) fs _ rfl fun _ ht f _ => ht.setSta b f 0

/-! ### The counters of one block -/

/-- The command sets the fields of block b that l lists to the values there, and changes nothing else. -/
def Clears (s : State) (b : Blk) (l : List (Field × Nat)) (o : Host.Outcome State Fault Refusal) : Prop :=
  Next o fun t => (∀ p ∈ l, t.sta b p.1 = p.2) ∧
    (∀ c f, (∀ p ∈ l, regKey b p.1 ≠ regKey c f) → t.sta c f = s.sta c f) ∧ StsAlone s t

theorem clears_zeroStas (s : State) (b : Blk) (fs : List Field) : Clears s b (fs.map (·, 0)) (.next (s.zeroStas b fs)) := by
  refine ⟨_, rfl, fun p hp => ?_, fun c g h => ?_, s.zeroStas_stsAlone b fs⟩
  · obtain ⟨f, hf, rfl⟩ := List.mem_map.1 hp
    exact s.zeroStas_sta_mem hf b
  · exact s.zeroStas_sta_other fun f hf => h (f, 0) (List.mem_map_of_mem hf)

section
variable {s : State}

theorem exec_linkClearCounts {g : HeadId} (h : s.answers (.link g) = true) :
    exec (.linkClearCounts g) s = .next (s.zeroStas (.link g) [LINK.code_errors, LINK.frame_errors]) :=
  if_neg (by simp [h])

theorem exec_engClearStats {g : HeadId} {e : EngId} (h : s.answers (.eng g e) = true) :
    exec (.engClearStats g e) s = .next ((s.setSta (.eng g e) ENG.miss_count 0).setSta (.eng g e) ENG.slack_min 0xFFF) :=
  if_neg (by simp [h])

theorem exec_vchanClearStats {g : HeadId} (h : s.answers (.vchan g) = true) :
    exec (.vchanClearStats g) s = .next (s.zeroStas (.vchan g) ([VCHAN.verified, VCHAN.failed, VCHAN.sync_miss, VCHAN.header_fail,
      VCHAN.record_fail] ++ (List.range 16).map VCHAN.sw_hist)) :=
  if_neg (by simp [h])

theorem exec_ccacheClearStats (h : s.answers .ccache = true) :
    exec .ccacheClearStats s = .next (s.zeroStas .ccache [CCACHE.hits, CCACHE.misses, CCACHE.writebacks, CCACHE.victim_hits,
      CCACHE.stream_bypass, CCACHE.overflow]) :=
  if_neg (by simp [h])

theorem exec_dramcClearStats {c : DramChan} (h : s.answers (.dramc c) = true) :
    exec (.dramcClearStats c) s = .next (s.zeroStas (.dramc c) [DRAMC.freezes, DRAMC.switches, DRAMC.rfm_issued, DRAMC.events]) :=
  if_neg (by simp [h])

theorem exec_memprotClearStats (h : s.answers .memprot = true) :
    exec .memprotClearStats s = .next (s.zeroStas .memprot [MEMPROT.dram_passes, MEMPROT.sram_passes, MEMPROT.CE_DRAM_count,
      MEMPROT.CE_SRAM_count, MEMPROT.UE_DRAM_count, MEMPROT.UE_SRAM_count]) :=
  if_neg (by simp [h])

theorem exec_chainClearStats (h : s.answers .chain = true) :
    exec .chainClearStats s = .next (s.zeroStas .chain [CHAIN.crc_errors, CHAIN.replays]) :=
  if_neg (by simp [h])

theorem exec_calibClearStats (h : s.answers .calib = true) :
    exec .calibClearStats s = .next (s.zeroStas .calib [CALIB.trials, CALIB.rejected]) :=
  if_neg (by simp [h])

theorem exec_ceClearTable (h : s.answers .memprot = true) : exec .ceClearTable s = .next { s with ceTable := [] } :=
  if_neg (by simp [h])

end

/-- The engine's slack_min restarts from its most (Table 04-5). -/
theorem engClearStats_clears {s : State} {g : HeadId} {e : EngId} (h : s.answers (.eng g e) = true) :
    Clears s (.eng g e) [(ENG.miss_count, 0), (ENG.slack_min, 0xFFF)] (exec (.engClearStats g e) s) := by
  have hkeys : regKey (.eng g e) ENG.slack_min ≠ regKey (.eng g e) ENG.miss_count := regKey_ne_of_place _ (by decide)
  refine ⟨_, exec_engClearStats h, ?_, fun c f hother => ?_, ((StsAlone.refl s).setSta ..).setSta ..⟩
  · simp only [List.forall_mem_cons, State.sta_setSta, if_neg hkeys, if_true, List.not_mem_nil, false_imp_iff, implies_true]
    decide
  · simp only [List.forall_mem_cons] at hother
    obtain ⟨hmiss, hslack, -⟩ := hother
    rw [State.sta_setSta, if_neg hslack, State.sta_setSta, if_neg hmiss]

/-! ### The counters of parts (R249, R301, R380, R424) -/

/-- The counters, the histogram and the slips of one beam are cleared (R249). -/
def State.clearBeam (s : State) (g : HeadId) (k : BeamId) : State :=
  (s.zeroStas (.beam g k) beamStats).modBeam g k (fun b => { b with slips := 0 })

/-- At most the beams of head g and the table of status values differ between two states. -/
def BeamsAlone (g : HeadId) (s t : State) : Prop :=
  t = { s with regs := { s.regs with sts := t.regs.sts }, beams := t.beams } ∧ ∀ h : HeadId, h ≠ g → t.beams[h.val] = s.beams[h.val]

theorem BeamsAlone.setSta {g : HeadId} {s t : State} (h : BeamsAlone g s t) (b : Blk) (f : Field) (v : Nat) :
    BeamsAlone g s (t.setSta b f v) := by
  obtain ⟨hframe, hothers⟩ := h
  refine ⟨?_, hothers⟩
  rw [hframe]
  rfl

theorem BeamsAlone.modBeam {g : HeadId} {s t : State} (h : BeamsAlone g s t) (k : BeamId) (f : Beam → Beam) :
    BeamsAlone g s (t.modBeam g k f) := by
  obtain ⟨hframe, hothers⟩ := h
  refine ⟨?_, fun j hj => (vmod_get_ne _ _ _ _ hj).trans (hothers j hj)⟩
  rw [hframe]
  rfl

theorem BeamsAlone.clearBeam {g : HeadId} {s t : State} (h : BeamsAlone g s t) (k : BeamId) : BeamsAlone g s (t.clearBeam g k) :=
  BeamsAlone.modBeam (List.foldlRecOn (motive := BeamsAlone g s) beamStats _ h fun _ hu f _ => hu.setSta _ f 0) k _

theorem State.clearBeam_sta_eq (s : State) (g : HeadId) (k : BeamId) (c : Blk) (f : Field) :
    (s.clearBeam g k).sta c f = (s.zeroStas (.beam g k) beamStats).sta c f := by
  simp only [State.clearBeam, State.sta, State.modBeam_fields]

theorem State.clearBeam_keeps_zero {s : State} {c : Blk} {f : Field} (h : s.sta c f = 0) (g : HeadId) (k : BeamId) :
    (s.clearBeam g k).sta c f = 0 := by
  rw [State.clearBeam_sta_eq, State.zeroStas_keeps_zero h]

theorem State.clearBeam_sta {f : Field} (hf : f ∈ beamStats) (s : State) (g : HeadId) (k : BeamId) :
    (s.clearBeam g k).sta (.beam g k) f = 0 := by
  rw [State.clearBeam_sta_eq, State.zeroStas_sta_mem hf]

theorem State.clearBeam_slips (s : State) (g : HeadId) (j k : BeamId) :
    (((s.clearBeam g j).beams[g.val])[k.val]).slips = if j = k then 0 else ((s.beams[g.val])[k.val]).slips := by
  have hbeams : (s.zeroStas (.beam g j) beamStats).beams = s.beams := by rw [s.zeroStas_stsAlone]
  simp only [State.clearBeam, State.modBeam_fields, vmod_get_self, hbeams]
  split
  · subst j
    rw [vmod_get_self]
  · rw [vmod_get_ne _ _ _ _ (Ne.symm ‹_›)]

/-- The four beams of a head are cleared (R249). -/
def State.clearBeams (s : State) (g : HeadId) : State := (List.finRange 4).foldl (fun t k => t.clearBeam g k) s

theorem State.clearBeams_sta (s : State) (g : HeadId) (k : BeamId) {f : Field} (hf : f ∈ beamStats) :
    (s.clearBeams g).sta (.beam g k) f = 0 :=
  foldl_establishes (P := fun t : State => t.sta (.beam g k) f = 0) (fun _ j ht => State.clearBeam_keeps_zero ht g j) (List.mem_finRange k)
    (fun t => t.clearBeam_sta hf g k) s

theorem State.clearBeams_slips (s : State) (g : HeadId) (k : BeamId) : (((s.clearBeams g).beams[g.val])[k.val]).slips = 0 :=
  foldl_establishes (P := fun t : State => ((t.beams[g.val])[k.val]).slips = 0)
    (fun t j ht => (t.clearBeam_slips g j k).trans (by rw [ht, ite_self])) (List.mem_finRange k)
    (fun t => (t.clearBeam_slips g k k).trans (if_pos rfl)) s

theorem State.clearBeams_beamsAlone (s : State) (g : HeadId) : BeamsAlone g s (s.clearBeams g) :=
  List.foldlRecOn (motive := BeamsAlone g s) _ _ ⟨rfl, fun _ _ => rfl⟩ fun _ ht k _ => ht.clearBeam k

/-- The counts of empty pools are cleared (R380). -/
def State.clearEmptyEvents (s : State) : State := (List.finRange 16).foldl (fun t p => t.setSta (.pool p) POOL.empty_events 0) s

theorem State.clearEmptyEvents_sta (s : State) (p : Fin 16) : s.clearEmptyEvents.sta (.pool p) POOL.empty_events = 0 :=
  foldl_establishes (P := fun t : State => t.sta (.pool p) POOL.empty_events = 0) (fun _ _ ht => State.setSta_zero_keeps_zero ht _ _)
    (List.mem_finRange p) (fun t => t.sta_setSta_self _ _ 0) s

theorem State.clearEmptyEvents_stsAlone (s : State) : StsAlone s s.clearEmptyEvents :=
  List.foldlRecOn (motive := StsAlone s) _ _ (StsAlone.refl s) fun _ ht _ _ => ht.setSta _ _ _

section
variable {s : State}

theorem exec_chanClearStats {g : HeadId} (h : s.answers (.chan g) = true) : exec (.chanClearStats g) s = .next (s.clearBeams g) :=
  if_neg (by simp [h])

theorem exec_decodeClearStats (h : s.answers .decode = true) :
    let t := s.zeroStas .decode ([DECODE.first_pass, DECODE.entered, DECODE.failed, DECODE.mismatches] ++
      (List.range 6).map DECODE.step_ok)
    exec .decodeClearStats s = .next { t with decoders := t.decoders.map (fun d => { d with count := 0 }) } :=
  if_neg (by simp [h])

theorem exec_bufpoolClearStats (h : s.answers .bufpool = true) :
    exec .bufpoolClearStats s = .next { s.clearEmptyEvents with
      quotas := s.clearEmptyEvents.quotas.map (fun e => (e.1, { e.2 with peak := e.2.held })) } :=
  if_neg (by simp [h])

theorem exec_cipherClearStats (h : s.answers .cipher = true) :
    exec .cipherClearStats s = .next ((s.zeroStas .cipher [CIPHER.hits, CIPHER.fetches, CIPHER.retries, CIPHER.fences, CIPHER.requests,
      CIPHER.blocks]).modCipher (fun c => { c with cores := c.cores.map (fun x => { x with units := 0 }) })) :=
  if_neg (by simp [h])

end

theorem decodeClearStats_clears {s : State} (h : s.answers .decode = true) : Next (exec .decodeClearStats s) fun t =>
    (∀ f ∈ [DECODE.first_pass, DECODE.entered, DECODE.failed, DECODE.mismatches] ++ (List.range 6).map DECODE.step_ok,
      t.sta .decode f = 0) ∧
    (∀ i : Fin 20, t.decoders[i.val] = { s.decoders[i.val] with count := 0 }) ∧
    t = { s with regs := { s.regs with sts := t.regs.sts }, decoders := t.decoders } := by
  have hzero := s.zeroStas_stsAlone .decode
    ([DECODE.first_pass, DECODE.entered, DECODE.failed, DECODE.mismatches] ++ (List.range 6).map DECODE.step_ok)
  refine ⟨_, exec_decodeClearStats h, fun f hf => s.zeroStas_sta_mem hf .decode, fun i => ?_, ?_⟩
  · rw [hzero]
    exact Vector.getElem_map ..
  · rw [hzero]

theorem bufpoolClearStats_clears {s : State} (h : s.answers .bufpool = true) : Next (exec .bufpoolClearStats s) fun t =>
    (∀ p, t.sta (.pool p) POOL.empty_events = 0) ∧ (∀ e ∈ t.quotas, e.2.peak = e.2.held) ∧
    t.quotas.map (fun e => (e.1, e.2.held)) = s.quotas.map (fun e => (e.1, e.2.held)) ∧
    t = { s with regs := { s.regs with sts := t.regs.sts }, quotas := t.quotas } := by
  have hzero := s.clearEmptyEvents_stsAlone
  have hquotas : s.clearEmptyEvents.quotas = s.quotas := by rw [hzero]
  refine ⟨_, exec_bufpoolClearStats h, s.clearEmptyEvents_sta, fun e he => ?_, ?_, ?_⟩
  · obtain ⟨q, -, rfl⟩ := List.mem_map.1 he
    rfl
  · rw [hquotas, List.map_map]
    rfl
  · rw [hzero]

theorem cipherClearStats_clears {s : State} (h : s.answers .cipher = true) : Next (exec .cipherClearStats s) fun t =>
    (∀ f ∈ [CIPHER.hits, CIPHER.fetches, CIPHER.retries, CIPHER.fences, CIPHER.requests, CIPHER.blocks], t.sta .cipher f = 0) ∧
    (∀ i : Fin 8, t.cipher.cores[i.val] = { s.cipher.cores[i.val] with units := 0 }) ∧
    t = { s with regs := { s.regs with sts := t.regs.sts }, cipher := { s.cipher with cores := t.cipher.cores } } := by
  have hzero := s.zeroStas_stsAlone .cipher
    [CIPHER.hits, CIPHER.fetches, CIPHER.retries, CIPHER.fences, CIPHER.requests, CIPHER.blocks]
  refine ⟨_, exec_cipherClearStats h, fun f hf => s.zeroStas_sta_mem hf .cipher, fun i => ?_, ?_⟩
  · rw [hzero]
    exact Vector.getElem_map ..
  · rw [hzero]
    rfl

/-- Settles O3: each clear writes its own counters, and a counter once 0 stays 0 through the writes that follow. -/
theorem clearStatsZeroesItsCountersAlone : Obligations.ClearStatsZeroesItsCountersAlone := by
  refine ⟨fun s => ⟨?link, ?eng, ?vchan, ?ccache, ?dramc, ?memprot, ?chain, ?calib⟩,
    fun s => ⟨?chan, fun h => decodeClearStats_clears h, fun h => bufpoolClearStats_clears h, fun h => cipherClearStats_clears h,
      fun h => exec_ceClearTable h⟩⟩
  case link => exact fun g h => exec_linkClearCounts h ▸ clears_zeroStas ..
  case eng => exact fun g e h => engClearStats_clears h
  case vchan => exact fun g h => exec_vchanClearStats h ▸ clears_zeroStas ..
  case ccache => exact fun h => exec_ccacheClearStats h ▸ clears_zeroStas ..
  case dramc => exact fun c h => exec_dramcClearStats h ▸ clears_zeroStas ..
  case memprot => exact fun h => exec_memprotClearStats h ▸ clears_zeroStas ..
  case chain => exact fun h => exec_chainClearStats h ▸ clears_zeroStas ..
  case calib => exact fun h => exec_calibClearStats h ▸ clears_zeroStas ..
  case chan =>
    intro g h
    obtain ⟨hframe, hothers⟩ := s.clearBeams_beamsAlone g
    exact ⟨_, exec_chanClearStats h, fun k f hf => s.clearBeams_sta g k hf, s.clearBeams_slips g, hothers, hframe⟩

/-! ### Strobes and misses (R90, R108) -/

theorem exec_headStrobe_on {s : State} {g : HeadId} (h : s.pdOn (bayOf g).val = true) (x : StrobeIn) :
    exec (.headStrobe g x) s = .next (s.strobe g x) :=
  if_pos h

theorem exec_headStrobe_off {s : State} {g : HeadId} (h : s.pdOn (bayOf g).val = false) (x : StrobeIn) :
    exec (.headStrobe g x) s = .next s :=
  if_neg (by simp [h])

/-- The misses of a loop within the 1,000 samples that end with the sample in progress, that sample's own first (R109). -/
def LoopSt.recentMisses (y : LoopSt) : List Nat := (y.sampleIx - 1) :: missesIn y.misses (y.sampleIx - 1)

/-- A loop whose sample in progress is discarded as a miss (R108, R109). -/
def LoopSt.missed (y : LoopSt) : LoopSt :=
  { y with sample := none, misses := y.recentMisses, needSpare := decide (3 ≤ y.recentMisses.length) }

/-- The registers of a loop's engine count a miss, with no slack left (R107, R108). -/
def State.countMiss (s : State) (g : HeadId) (l : Fin 6) : State :=
  ((s.incSat (engBlk g l) ENG.miss_count).setSta (engBlk g l) ENG.slack_last 0).setSta (engBlk g l) ENG.slack_min 0

theorem State.countMiss_sta (s : State) (g : HeadId) (l : Fin 6) :
    (s.countMiss g l).sta (engBlk g l) ENG.miss_count = min (s.sta (engBlk g l) ENG.miss_count + 1) 0xFFFF ∧
    (s.countMiss g l).sta (engBlk g l) ENG.slack_last = 0 ∧ (s.countMiss g l).sta (engBlk g l) ENG.slack_min = 0 := by
  have hmin : regKey (engBlk g l) ENG.slack_min ≠ regKey (engBlk g l) ENG.miss_count := regKey_ne_of_place _ (by decide)
  have hlast : regKey (engBlk g l) ENG.slack_last ≠ regKey (engBlk g l) ENG.miss_count := regKey_ne_of_place _ (by decide)
  have hslack : regKey (engBlk g l) ENG.slack_min ≠ regKey (engBlk g l) ENG.slack_last := regKey_ne_of_place _ (by decide)
  refine ⟨?_, ?_, State.sta_setSta_self ..⟩
  · rw [State.countMiss, State.sta_setSta, if_neg hmin, State.sta_setSta, if_neg hlast, State.incSat_sta]
    rfl
  · rw [State.countMiss, State.sta_setSta, if_neg hslack, State.sta_setSta_self]
    rfl

/-- With fewer than 50 recent misses a miss is counted and logged, and the head stays in use (R108, R110). -/
theorem State.miss_of_few {s : State} {g : HeadId} {l : Fin 6} (h : ((s.heads[g.val]).loops[l.val]).recentMisses.length < 50) :
    s.miss g l = ((s.countMiss g l).modLoop g l LoopSt.missed).logEv (srcHead g l.val) .sampleMiss
      [((s.heads[g.val]).loops[l.val]).sampleIx - 1] :=
  if_neg fun hmany => absurd hmany.1 (Nat.not_le.2 h)

/-- ENG[e] for e below 6 addresses the head's own loop e (R112). -/
theorem State.loopOfEng_own (s : State) (g : HeadId) (l : Fin 6) : s.loopOfEng g ⟨l.val, by omega⟩ = some (g, l) :=
  dif_pos l.isLt

theorem exec_sampleMiss (s : State) (g : HeadId) (l : Fin 6) : exec (.sampleMiss g ⟨l.val, by omega⟩) s =
    if ((s.heads[g.val]).loops[l.val]).sample.isSome then .next (s.miss g l) else .next s := by
  show execSampleMiss g ⟨l.val, by omega⟩ s = _
  rw [execSampleMiss, s.loopOfEng_own]

theorem State.modLoop_heads (s : State) (g : HeadId) (l : Fin 6) (f : LoopSt → LoopSt) :
    ((s.modLoop g l f).heads[g.val]).loops[l.val] = f (s.heads[g.val]).loops[l.val] ∧
    (∀ j : Fin 6, j ≠ l → ((s.modLoop g l f).heads[g.val]).loops[j.val] = (s.heads[g.val]).loops[j.val]) ∧
    ∀ h : HeadId, h ≠ g → (s.modLoop g l f).heads[h.val] = s.heads[h.val] := by
  obtain ⟨hself, hothers⟩ := s.modHead_heads g (·.modLoop l f)
  refine ⟨?_, fun j hj => ?_, hothers⟩
  · rw [State.modLoop, hself]
    exact vmod_get_self ..
  · rw [State.modLoop, hself]
    exact vmod_get_ne _ _ _ _ hj

/-- Settles O5: the strobe is its parts in order, and a miss below the excess of R110 is `State.miss_of_few`. -/
theorem strobesAndMissesOfAnEngine : Obligations.StrobesAndMissesOfAnEngine := by
  refine ⟨fun s g x => ⟨fun h => exec_headStrobe_on h x, fun h => exec_headStrobe_off h x⟩, fun s g l => ⟨?missed, ?idle⟩⟩
  case missed =>
    intro hsample hfew
    obtain ⟨hloop, hloops, hheads⟩ := (s.countMiss g l).modLoop_heads g l LoopSt.missed
    obtain ⟨hcount, hlast, hmin⟩ := s.countMiss_sta g l
    refine ⟨_, (exec_sampleMiss s g l).trans ((if_pos hsample).trans (congrArg _ (State.miss_of_few hfew))),
      hloop, hcount, hlast, hmin, hloops, hheads, rfl⟩
  case idle =>
    intro hnone
    rw [exec_sampleMiss, hnone]
    rfl

end Sys2Proof.Machine

namespace Sys2Proof.Machine

/-! ### A head's focus loop and sequencer under a command (Tables 05-1 and 05-3) -/

theorem State.modHead_modHead (s : State) (g : HeadId) (a b : Head → Head) :
    (s.modHead g a).modHead g b = s.modHead g (fun h => b (a h)) := by
  simp [State.modHead, vmod]

/-- At most head g and the register file differ between two states. -/
def HeadAndRegsAlone (g : HeadId) (s t : State) : Prop :=
  t = { s with heads := t.heads, regs := t.regs } ∧ ∀ h : HeadId, h ≠ g → t.heads[h.val] = s.heads[h.val]

theorem State.modHead_alone (s : State) (g : HeadId) (f : Head → Head) : HeadAndRegsAlone g s (s.modHead g f) :=
  ⟨rfl, (s.modHead_heads g f).2⟩

theorem HeadAndRegsAlone.flag {g : HeadId} {s t : State} (h : HeadAndRegsAlone g s t) (b : Blk) (f : Field) :
    HeadAndRegsAlone g s (t.flag b f) := by
  obtain ⟨hframe, hothers⟩ := h
  refine ⟨?_, hothers⟩
  rw [hframe]
  rfl

theorem HeadAndRegsAlone.of_flag {g : HeadId} {s t : State} {b : Blk} {f : Field} (h : HeadAndRegsAlone g (s.flag b f) t) :
    HeadAndRegsAlone g s t := h

theorem State.sta_flag_self (s : State) (b : Blk) {f : Field} (h : f.width = 1) : (s.flag b f).sta b f = 1 := by
  rw [State.flag, State.sta_setSta_self, h]
  rfl

/-- The focus sequencer commands its engine and moves on. -/
def State.driveFocus (s : State) (g : HeadId) (c : EngCmd) (f : FocSt → FocSt) : State := (s.cmdLoop g lFocus c).modFoc g f

theorem State.driveFocus_eq (s : State) (g : HeadId) (c : EngCmd) (f : FocSt → FocSt) :
    s.driveFocus g c f = s.modHead g (fun h => (h.modLoop lFocus ({ · with cmd := some c })).modFoc f) :=
  s.modHead_modHead ..

theorem State.driveFocus_head (s : State) (g : HeadId) (c : EngCmd) (f : FocSt → FocSt) :
    ((s.driveFocus g c f).heads[g.val].loops[0]).cmd = some c ∧ (s.driveFocus g c f).heads[g.val].foc = f s.heads[g.val].foc := by
  rw [State.driveFocus_eq, (s.modHead_heads g _).1]
  exact ⟨congrArg LoopSt.cmd (vmod_get_self _ lFocus _), rfl⟩

theorem State.driveFocus_alone (s : State) (g : HeadId) (c : EngCmd) (f : FocSt → FocSt) :
    HeadAndRegsAlone g s (s.driveFocus g c f) := by
  rw [State.driveFocus_eq]
  exact s.modHead_alone ..

/-! ### The timers of a layer step (R127, Table 05-3) -/

theorem State.jumpRecapture_of_jump {s : State} {g : HeadId} {j : Jump} (hj : s.heads[g.val].foc.jump = some j) :
    s.jumpRecapture g = s.driveFocus g (.override (satQ17 (j.held.toInt - s.act (.foc g) FOC.recap_span))) (fun f => { f with
      st := .recapture, crossing := .none, recapUp := true, lastGood := j.held, lossSl := f.sl, jump := none }) := by
  simp only [State.jumpRecapture, hj]
  rfl

section
variable {s : State} {g : HeadId} {j : Jump} (hst : s.heads[g.val].foc.st = .jump) (hj : s.heads[g.val].foc.jump = some j)
include hst hj

theorem exec_jumpKickEnd_kick (hphase : j.phase = .kick) : exec (.jumpKickEnd g) s =
    .next (s.driveFocus g (.override (j.at_ (s.act (.foc g) FOC.hold_bias))) ({ · with jump := some { j with phase := .coast } })) := by
  show execJumpKickEnd g s = _
  simp only [execJumpKickEnd, hj]
  exact if_pos ⟨hst, hphase⟩

theorem exec_jumpCoastTimeout_coast (hphase : j.phase = .coast) : exec (.jumpCoastTimeout g) s =
    .next ((s.driveFocus g (.override (j.at_ (s.act (.foc g) FOC.hold_bias - s.act (.foc g) FOC.brake_amp)))
      ({ · with jump := some { j with phase := .brakeBlind } })).flag (.foc g) FOC.jump_fault) := by
  show execJumpCoastTimeout g s = _
  simp only [execJumpCoastTimeout, hj]
  exact if_pos ⟨hst, hphase⟩

theorem exec_jumpBrakeEnd_brake (hphase : j.phase = .brake) : exec (.jumpBrakeEnd g) s =
    .next (s.driveFocus g (.run false (some (j.at_ (s.act (.foc g) FOC.hold_bias)))) ({ · with
      sl := some j.next, lockRun := 0, feRun := 0, lastGood := j.at_ (s.act (.foc g) FOC.hold_bias),
      jump := some { j with phase := .lock } })) := by
  show execJumpBrakeEnd g s = _
  simp only [execJumpBrakeEnd, hj]
  exact if_pos ⟨hst, hphase⟩

theorem exec_jumpBrakeEnd_blind (hphase : j.phase = .brakeBlind) : exec (.jumpBrakeEnd g) s = .next (s.jumpRecapture g) := by
  show execJumpBrakeEnd g s = _
  simp only [execJumpBrakeEnd, hj]
  rw [if_neg (by simp [hphase]), if_pos ⟨hst, hphase⟩]

theorem exec_jumpLockTimeout_lock (hphase : j.phase = .lock) : exec (.jumpLockTimeout g) s =
    .next ((s.flag (.foc g) FOC.jump_fault).jumpRecapture g) := by
  show execJumpLockTimeout g s = _
  simp only [execJumpLockTimeout, hj]
  exact if_pos ⟨hst, hphase⟩

/-- A step is a jump's last when it ends at the target, or when the jump names none. -/
theorem exec_jumpSettleEnd_last (hphase : j.phase = .settle) (hseg : s.sas[g.val].jumpSeg = false)
    (hlast : s.heads[g.val].foc.target = none ∨ s.heads[g.val].foc.target = some j.next) : exec (.jumpSettleEnd g) s =
    .next ((s.modFoc g ({ · with lastStep := min 65535 ((s.time.localNs - j.began) / 1000) })).modFoc g
      ({ · with st := .identify, jump := none, headers := [] })) := by
  have hgoal : j.next = (s.heads[g.val].foc.target).getD j.next := by
    rcases hlast with h | h <;> rw [h] <;> rfl
  show execJumpSettleEnd g s = _
  simp only [execJumpSettleEnd, hj]
  rw [if_pos ⟨hst, hphase, hseg⟩, if_pos (.inl hgoal)]

end

/-! ### Loss of focus (R130) -/

/-- t is s with head g changed, but neither its focus loop nor its focus sequencer. -/
def SparesFocus (g : HeadId) (s t : State) : Prop :=
  ∃ f : Head → Head, t = s.modHead g f ∧ ∀ h, (f h).foc = h.foc ∧ (f h).loops[0] = h.loops[0]

theorem SparesFocus.refl (g : HeadId) (s : State) : SparesFocus g s s :=
  ⟨id, by simp [State.modHead, vmod], fun _ => ⟨rfl, rfl⟩⟩

theorem SparesFocus.modHead {g : HeadId} {s t : State} (h : SparesFocus g s t) {k : Head → Head}
    (hk : ∀ h, (k h).foc = h.foc ∧ (k h).loops[0] = h.loops[0]) : SparesFocus g s (t.modHead g k) := by
  obtain ⟨f, rfl, hf⟩ := h
  exact ⟨_, s.modHead_modHead g f k, fun h => ⟨(hk _).1.trans (hf h).1, (hk _).2.trans (hf h).2⟩⟩

theorem SparesFocus.cmdLoop {g : HeadId} {s t : State} (h : SparesFocus g s t) {l : Fin 6} (hl : l ≠ lFocus) (c : EngCmd) :
    SparesFocus g s (t.cmdLoop g l c) :=
  h.modHead fun _ => ⟨rfl, vmod_get_ne _ _ _ lFocus hl.symm⟩

theorem SparesFocus.tiltWait {g : HeadId} {s t : State} (h : SparesFocus g s t) : SparesFocus g s (t.tiltWait g) := by
  unfold State.tiltWait
  split <;> exact h.cmdLoop (by decide) _

theorem SparesFocus.skewWait {g : HeadId} {s t : State} (h : SparesFocus g s t) : SparesFocus g s (t.skewWait g) := by
  unfold State.skewWait
  split <;> exact h.cmdLoop (by decide) _

theorem State.holdTracking_sparesFocus (s : State) (g : HeadId) : SparesFocus g s (s.holdTracking g) :=
  (((SparesFocus.refl g s).cmdLoop (l := lTrack) (by decide) .hold).cmdLoop (l := lSled) (by decide) .hold).tiltWait.skewWait.modHead
    fun _ => ⟨rfl, rfl⟩

/-- A bay whose head g is lost: its open requests close, the others are held, and LOST replaces its READY (R20). -/
def Bay.lose (x : Bay) (g : HeadId) (cause : Fin 9) : Bay :=
  { x with
    requests := (x.requests.filter (fun r => !(r.head == g && r.opened))).map
      (fun r => if r.head = g then { r with stage := .held } else r)
    reports := x.reports.filter (fun r => !r.readyOf g) ++ [.lost g cause] }

/-- The head is lost with no window open and no trial to end. -/
def State.releaseHead (s : State) (g : HeadId) (cause : Fin 9) : State :=
  ((s.suspendBeams g).modBay (bayOf g) (·.lose g cause)).modHead g (fun h => { h with lost := true })

theorem State.loseHead_of_closed {s : State} {g : HeadId} (hopen : s.windowOpen g = false)
    (htrial : Tab.get? s.calib.trials g.val = none) (cause : Fin 9) : s.loseHead g cause = s.releaseHead g cause := by
  have huntried : Tab.get? (s.releaseHead g cause).calib.trials g.val = none := htrial
  have hend : (s.releaseHead g cause).abandonTrial g = s.releaseHead g cause := by
    rw [State.abandonTrial, huntried]
  simp only [State.loseHead, hopen, Bool.false_eq_true, if_false]
  exact hend

theorem State.releaseHead_head (s : State) (g : HeadId) (cause : Fin 9) :
    ((s.releaseHead g cause).heads[g.val]).foc = (s.heads[g.val]).foc ∧
    ((s.releaseHead g cause).heads[g.val]).loops = (s.heads[g.val]).loops := by
  rw [State.releaseHead, (State.modHead_heads _ g _).1]
  exact ⟨rfl, rfl⟩

theorem State.releaseHead_reports (s : State) (g : HeadId) (cause : Fin 9) :
    Report.lost g cause ∈ ((s.releaseHead g cause).bays[(bayOf g).val]).reports := by
  have hbay : (s.releaseHead g cause).bays[(bayOf g).val] = (s.bays[(bayOf g).val]).lose g cause := vmod_get_self ..
  rw [hbay]
  exact List.mem_append_right _ (List.mem_singleton.2 rfl)

theorem State.windowOpen_congr {s t : State} (h : t.bays = s.bays) (g : HeadId) : t.windowOpen g = s.windowOpen g := by
  simp only [State.windowOpen, h]

/-- The focus sequencer after a loss, as `State.focusLoss` sets it (R130, R131). -/
def FocSt.lose (f : FocSt) : FocSt :=
  { f with st := .recapture, holdOn := false, feRun := 0, crossing := .none, recapUp := true, lossSl := f.sl, jump := none,
           lossCount := satInc 8 f.lossCount, lostReported := true }

theorem exec_defectHoldTimeout_held {s : State} {g : HeadId} (hst : s.heads[g.val].foc.st = .locked)
    (hhold : s.heads[g.val].foc.holdOn = true) : exec (.defectHoldTimeout g) s = .next (s.focusLoss g) :=
  if_pos ⟨hst, hhold⟩

theorem exec_defectHoldTimeout_idle {s : State} {g : HeadId}
    (h : s.heads[g.val].foc.st ≠ .locked ∨ s.heads[g.val].foc.holdOn = false) : exec (.defectHoldTimeout g) s = .next s :=
  if_neg fun ⟨hst, hhold⟩ => h.elim (· hst) fun hoff => by simp [hoff] at hhold

/-- At most what a loss of focus touches differs between two states. -/
def LossAlone (s t : State) : Prop :=
  t = { s with heads := t.heads, bays := t.bays, beams := t.beams, regs := t.regs, log := t.log }

theorem LossAlone.trans {s t u : State} (hst : LossAlone s t) (htu : LossAlone t u) : LossAlone s u := by
  unfold LossAlone at *
  rw [htu, hst]

theorem HeadAndRegsAlone.lossAlone {g : HeadId} {s t : State} (h : HeadAndRegsAlone g s t) : LossAlone s t := by
  obtain ⟨hframe, -⟩ := h
  unfold LossAlone
  rw [hframe]

theorem State.logEv_lossAlone (s : State) (src : BitVec 16) (e : Ev) (data : List Nat) : LossAlone s (s.logEv src e data) := rfl

theorem State.releaseHead_lossAlone (s : State) (g : HeadId) (cause : Fin 9) : LossAlone s (s.releaseHead g cause) := rfl

/-- The focus sequencer's own part of a loss: it drives its engine, moves to RECAPTURE and sets STATUS.loss (R130, R131). -/
def State.dropFocus (s : State) (g : HeadId) : State :=
  (s.driveFocus g (.override (satQ17 (s.heads[g.val].foc.lastGood.toInt - s.act (.foc g) FOC.recap_span))) FocSt.lose).flag
    (.foc g) FOC.loss

theorem State.dropFocus_head (s : State) (g : HeadId) :
    (((s.dropFocus g).heads[g.val]).loops[0]).cmd =
      some (.override (satQ17 (s.heads[g.val].foc.lastGood.toInt - s.act (.foc g) FOC.recap_span))) ∧
    ((s.dropFocus g).heads[g.val]).foc = s.heads[g.val].foc.lose :=
  s.driveFocus_head g _ FocSt.lose

theorem State.dropFocus_alone (s : State) (g : HeadId) : HeadAndRegsAlone g s (s.dropFocus g) :=
  (s.driveFocus_alone ..).flag ..

section
variable {s : State} {g : HeadId} (hopen : s.windowOpen g = false) (htrial : Tab.get? s.calib.trials g.val = none)
include hopen htrial

/-- A loss is the focus sequencer's own part, a change of the head that spares the focus loop, the log entry and the head's release. -/
theorem State.focusLoss_of_closed : ∃ f : Head → Head, (∀ h, (f h).foc = h.foc ∧ (f h).loops[0] = h.loops[0]) ∧
    s.focusLoss g =
      (((s.dropFocus g).modHead g f).logEv (srcFoc g) .focusLoss [s.heads[g.val].foc.lossCount + 1]).releaseHead g 0 := by
  obtain ⟨f, hheld, hf⟩ := (s.dropFocus g).holdTracking_sparesFocus g
  let logged := ((s.dropFocus g).modHead g f).logEv (srcFoc g) .focusLoss [s.heads[g.val].foc.lossCount + 1]
  have hclosed : logged.windowOpen g = false := (State.windowOpen_congr rfl g).trans hopen
  have huntried : Tab.get? logged.calib.trials g.val = none := htrial
  have hparts : s.focusLoss g = (((s.dropFocus g).holdTracking g).logEv (srcFoc g) .focusLoss
    [s.heads[g.val].foc.lossCount + 1]).loseHead g 0 := rfl
  refine ⟨f, hf, ?_⟩
  rw [hparts, hheld]
  exact State.loseHead_of_closed hclosed huntried 0

theorem State.focusLoss_head :
    (((s.focusLoss g).heads[g.val]).loops[0]).cmd =
      some (.override (satQ17 (s.heads[g.val].foc.lastGood.toInt - s.act (.foc g) FOC.recap_span))) ∧
    ((s.focusLoss g).heads[g.val]).foc = s.heads[g.val].foc.lose := by
  obtain ⟨f, hspares, hloss⟩ := State.focusLoss_of_closed hopen htrial
  obtain ⟨hspareFoc, hspareLoop⟩ := hspares (s.dropFocus g).heads[g.val]
  obtain ⟨hself, -⟩ := (s.dropFocus g).modHead_heads g f
  obtain ⟨hfoc, hloops⟩ := (((s.dropFocus g).modHead g f).logEv (srcFoc g) .focusLoss
    [s.heads[g.val].foc.lossCount + 1]).releaseHead_head g 0
  simp only [State.logEv_fields, hself] at hfoc hloops
  rw [hloss, hfoc, hspareFoc]
  simp only [hloops, hspareLoop]
  exact s.dropFocus_head g

theorem State.focusLoss_lossAlone : LossAlone s (s.focusLoss g) := by
  obtain ⟨f, -, hloss⟩ := State.focusLoss_of_closed hopen htrial
  rw [hloss]
  exact (((s.dropFocus_alone g).lossAlone.trans ((s.dropFocus g).modHead_alone g f).lossAlone).trans
    (State.logEv_lossAlone ..)).trans (State.releaseHead_lossAlone ..)

end

/-- Settles O9: every timer but the settle's drives the focus engine once (`State.driveFocus_head`), and what a loss does after that
spares it (`State.focusLoss_of_closed`). -/
theorem layerStepsAndDefectHoldsAreTimed : Obligations.LayerStepsAndDefectHoldsAreTimed := by
  refine ⟨fun s g j => ?step, fun s g => ⟨?held, exec_defectHoldTimeout_idle⟩⟩
  case step =>
    intro f bias amp at_ others cmd hst hj
    refine ⟨fun hphase => ?kick, fun hphase => ?coast, fun hphase => ?brake, fun hphase => ?blind, fun hphase => ?lock,
      fun hphase hseg hlast => ?settle⟩
    case kick =>
      obtain ⟨hcmd, hfoc⟩ := s.driveFocus_head g (.override (at_ bias)) ({ · with jump := some { j with phase := .coast } })
      exact ⟨_, exec_jumpKickEnd_kick hst hj hphase, hcmd, congrArg FocSt.jump hfoc, s.driveFocus_alone ..⟩
    case coast =>
      obtain ⟨hcmd, hfoc⟩ := s.driveFocus_head g (.override (at_ (bias - amp)))
        ({ · with jump := some { j with phase := .brakeBlind } })
      exact ⟨_, exec_jumpCoastTimeout_coast hst hj hphase, hcmd, congrArg FocSt.jump hfoc, State.sta_flag_self _ _ rfl,
        (s.driveFocus_alone ..).flag ..⟩
    case brake =>
      obtain ⟨hcmd, hfoc⟩ := s.driveFocus_head g (.run false (some (at_ bias))) ({ · with
        sl := some j.next, lockRun := 0, feRun := 0, lastGood := at_ bias, jump := some { j with phase := .lock } })
      exact ⟨_, exec_jumpBrakeEnd_brake hst hj hphase, hcmd, congrArg FocSt.jump hfoc, congrArg FocSt.sl hfoc,
        s.driveFocus_alone ..⟩
    case blind =>
      refine ⟨_, exec_jumpBrakeEnd_blind hst hj hphase, ?_⟩
      rw [State.jumpRecapture_of_jump hj]
      obtain ⟨hcmd, hfoc⟩ := s.driveFocus_head g _ _
      exact ⟨hcmd, congrArg FocSt.st hfoc, s.driveFocus_alone ..⟩
    case lock =>
      let s' := s.flag (.foc g) FOC.jump_fault
      refine ⟨_, exec_jumpLockTimeout_lock hst hj hphase, ?_⟩
      rw [State.jumpRecapture_of_jump (s := s') hj]
      obtain ⟨hcmd, hfoc⟩ := s'.driveFocus_head g _ _
      exact ⟨hcmd, congrArg FocSt.st hfoc, s.sta_flag_self _ rfl, (s'.driveFocus_alone ..).of_flag⟩
    case settle =>
      refine ⟨_, exec_jumpSettleEnd_last hst hj hphase hseg hlast, ?_⟩
      rw [State.modFoc, State.modFoc, s.modHead_modHead]
      obtain ⟨hself, hothers⟩ := s.modHead_heads g _
      exact ⟨congrArg (·.foc.st) hself, congrArg (·.foc.lastStep) hself, rfl, hothers⟩
  case held =>
    intro hst hhold hopen htrial
    obtain ⟨hcmd, hfoc⟩ := State.focusLoss_head hopen htrial
    obtain ⟨f, -, hloss⟩ := State.focusLoss_of_closed hopen htrial
    refine ⟨_, exec_defectHoldTimeout_held hst hhold, ?_⟩
    have hframe := State.focusLoss_lossAlone hopen htrial
    rw [hloss] at hcmd hfoc hframe ⊢
    exact ⟨congrArg FocSt.st hfoc, congrArg FocSt.lossSl hfoc, congrArg FocSt.holdOn hfoc, congrArg FocSt.lossCount hfoc,
      State.sta_flag_self _ _ rfl, hcmd, State.releaseHead_reports .., rfl, hframe⟩

end Sys2Proof.Machine

namespace Sys2Proof.Machine

/-! ### A head's tracking engine and sequencer under a command (R144, Table 06-1) -/

/-- Two states differ at most in head g, and there neither in a loop other than tracking nor in the focus sequencer. -/
def TrackAlone (g : HeadId) (s t : State) : Prop :=
  t = { s with heads := t.heads } ∧ (∀ h : HeadId, h ≠ g → t.heads[h.val] = s.heads[h.val]) ∧
    (∀ l : Fin 6, l ≠ lTrack → (t.heads[g.val]).loops[l.val] = s.heads[g.val].loops[l.val]) ∧
    (t.heads[g.val]).foc = s.heads[g.val].foc

/-- The tracking sequencer commands its engine and moves on. -/
def State.driveTrack (s : State) (g : HeadId) (c : EngCmd) (f : TrkSt → TrkSt) : State := (s.cmdLoop g lTrack c).modTrk g f

theorem State.driveTrack_eq (s : State) (g : HeadId) (c : EngCmd) (f : TrkSt → TrkSt) :
    s.driveTrack g c f = s.modHead g (fun h => (h.modLoop lTrack ({ · with cmd := some c })).modTrk f) :=
  s.modHead_modHead ..

theorem State.driveTrack_head (s : State) (g : HeadId) (c : EngCmd) (f : TrkSt → TrkSt) :
    ((s.driveTrack g c f).heads[g.val].loops[1]).cmd = some c ∧ (s.driveTrack g c f).heads[g.val].trk = f s.heads[g.val].trk := by
  rw [State.driveTrack_eq, (s.modHead_heads g _).1]
  exact ⟨congrArg LoopSt.cmd (vmod_get_self _ lTrack _), rfl⟩

theorem State.driveTrack_alone (s : State) (g : HeadId) (c : EngCmd) (f : TrkSt → TrkSt) : TrackAlone g s (s.driveTrack g c f) := by
  rw [State.driveTrack_eq]
  obtain ⟨hself, hothers⟩ := s.modHead_heads g (fun h => (h.modLoop lTrack ({ · with cmd := some c })).modTrk f)
  refine ⟨rfl, hothers, fun l hl => ?_, ?_⟩
  · rw [hself]
    exact vmod_get_ne _ _ _ _ hl
  · rw [hself]
    rfl

/-- ACQUIRE is entered with the engine in OVERRIDE at 0, out of RUN and of any lens jump (R145). -/
theorem State.trkAcquire_spec (s : State) (g : HeadId) :
    (s.trkAcquire g).trkState g = .acquire ∧ ((s.trkAcquire g).heads[g.val].loops[1]).cmd = some (.override 0) ∧
      ((s.trkAcquire g).heads[g.val].trk).running = false ∧ ((s.trkAcquire g).heads[g.val].trk).lens = none ∧
      TrackAlone g s (s.trkAcquire g) := by
  have hdrive : s.trkAcquire g = s.driveTrack g (.override 0) ({ · with
    st := .acquire, bias := 0, running := false, lockRun := 0, agree := [], lens := none, sinceCross := 0, lastSign := none }) := rfl
  rw [hdrive]
  obtain ⟨hcmd, htrk⟩ := s.driveTrack_head g (.override 0) _
  exact ⟨congrArg TrkSt.st htrk, hcmd, congrArg TrkSt.running htrk, congrArg TrkSt.lens htrk, s.driveTrack_alone ..⟩

/-- In FAILED the engine is in OVERRIDE at 0: the HOLD of sled-follow and of skew goes to other loops. -/
theorem State.trkFail_head (s : State) (g : HeadId) (cause : BitVec 2) :
    (s.trkFail g cause).trkState g = .failed ∧ ((s.trkFail g cause).heads[g.val].trk).failCause = cause ∧
      ((s.trkFail g cause).heads[g.val].loops[1]).cmd = some (.override 0) := by
  let s1 := s.cmdLoop g lTrack (.override 0)
  let s2 := s1.cmdLoop g lSled .hold
  let s3 := s2.cmdLoop g lSkew .hold
  obtain ⟨htrack, -, -⟩ := s.modLoop_heads g lTrack ({ · with cmd := some (.override 0) })
  obtain ⟨-, hsled, -⟩ := s1.modLoop_heads g lSled ({ · with cmd := some .hold })
  obtain ⟨-, hskew, -⟩ := s2.modLoop_heads g lSkew ({ · with cmd := some .hold })
  have hloop : (s3.heads[g.val]).loops[1] = { (s.heads[g.val]).loops[1] with cmd := some (.override 0) } :=
    calc (s3.heads[g.val]).loops[1] = (s2.heads[g.val]).loops[1] := hskew lTrack (by decide)
      _ = (s1.heads[g.val]).loops[1] := hsled lTrack (by decide)
      _ = { (s.heads[g.val]).loops[1] with cmd := some (.override 0) } := htrack
  obtain ⟨hself, -⟩ := s3.modHead_heads g (·.modTrk ({ · with st := .failed, failCause := cause, lens := none, running := false }))
  exact ⟨congrArg (·.trk.st) hself, congrArg (·.trk.failCause) hself,
    (congrArg (fun h : Head => (h.loops[1]).cmd) hself).trans (congrArg LoopSt.cmd hloop)⟩

theorem State.trkFail_frame (s : State) (g : HeadId) (cause : BitVec 2) :
    s.trkFail g cause = { s with heads := (s.trkFail g cause).heads } := rfl

theorem State.logEv_frame (s : State) (src : BitVec 16) (e : Ev) (data : List Nat) :
    s.logEv src e data = { s with log := (s.logEv src e data).log } := rfl

/-! ### The timers of the tracking sequencer (R145, R146, R150, Tables 06-1 and 06-2) -/

section
variable {s : State} {g : HeadId}

theorem exec_trkAcqStart_failed (hlive : s.answers (.trk g) = true) (hst : s.heads[g.val].trk.st = .failed) :
    exec (.trkAcqStart g) s = .next (s.trkAcquire g) := by
  show execTrkAcqStart g s = _
  rw [execTrkAcqStart, hlive]
  exact if_pos hst

theorem exec_trkAcqStart_idle (hlive : s.answers (.trk g) = true) (hst : s.heads[g.val].trk.st ≠ .failed) :
    exec (.trkAcqStart g) s = .next s := by
  show execTrkAcqStart g s = _
  rw [execTrkAcqStart, hlive]
  exact if_neg hst

theorem exec_confirmTimeout_confirm (hst : s.heads[g.val].trk.st = .confirm) :
    exec (.confirmTimeout g) s = .next (s.trkAcquire g) := if_pos hst

theorem exec_confirmTimeout_idle (hst : s.heads[g.val].trk.st ≠ .confirm) : exec (.confirmTimeout g) s = .next s := if_neg hst

theorem exec_acqTimeout_acquire (hst : s.heads[g.val].trk.st = .acquire) :
    exec (.acqTimeout g) s = .next ((s.trkFail g 2).logEv (srcTrk g) .acqTimeout []) := if_pos hst

theorem exec_acqTimeout_idle (hst : s.heads[g.val].trk.st ≠ .acquire) : exec (.acqTimeout g) s = .next s := if_neg hst

theorem exec_trackPullinTimeout_running (hst : s.heads[g.val].trk.st = .acquire) (hrun : s.heads[g.val].trk.running = true) :
    exec (.trackPullinTimeout g) s = .next (s.driveTrack g (.override 0) ({ · with running := false, lockRun := 0 })) :=
  if_pos ⟨hst, hrun⟩

theorem exec_trackPullinTimeout_idle (hst : s.heads[g.val].trk.st ≠ .acquire) : exec (.trackPullinTimeout g) s = .next s :=
  if_neg fun ⟨hacquire, _⟩ => hst hacquire

theorem exec_lensTimeouts_idle (hst : s.heads[g.val].trk.st ≠ .jump) :
    exec (.lensKickTimeout g) s = .next s ∧ exec (.lensBrakeTimeout g) s = .next s ∧ exec (.lensLockTimeout g) s = .next s := by
  show execLensKickTimeout g s = _ ∧ execLensBrakeTimeout g s = _ ∧ execLensLockTimeout g s = _
  simp only [execLensKickTimeout, execLensBrakeTimeout, execLensLockTimeout]
  cases s.heads[g.val].trk.lens with
  | none => exact ⟨rfl, rfl, rfl⟩
  | some j =>
    have hout (step : LensPhase) : ¬ (s.trkState g = .jump ∧ j.phase = step) := fun ⟨hjump, _⟩ => hst hjump
    exact ⟨if_neg (hout _), if_neg (hout _), if_neg (hout _)⟩

variable {j : LensJump} (hlens : s.heads[g.val].trk.lens = some j) (hst : s.heads[g.val].trk.st = .jump)
include hlens hst

theorem exec_lensKickTimeout_kick (hphase : j.phase = .kick) : exec (.lensKickTimeout g) s =
    .next (s.driveTrack g (.override j.held) ({ · with lens := some { j with phase := .coast } })) := by
  show execLensKickTimeout g s = _
  simp only [execLensKickTimeout, hlens]
  exact if_pos ⟨hst, hphase⟩

theorem exec_lensBrakeTimeout_brake (hphase : j.phase = .brake) : exec (.lensBrakeTimeout g) s = .next (s.trkAcquire g) := by
  show execLensBrakeTimeout g s = _
  simp only [execLensBrakeTimeout, hlens]
  exact if_pos ⟨hst, hphase⟩

theorem exec_lensLockTimeout_lock (hphase : j.phase = .lock) : exec (.lensLockTimeout g) s = .next (s.trkAcquire g) := by
  show execLensLockTimeout g s = _
  simp only [execLensLockTimeout, hlens]
  exact if_pos ⟨hst, hphase⟩

end

/-- Settles O10: ACQUIRE is entered alike from FAILED, CONFIRM and a lens jump (`State.trkAcquire_spec`), the pull-in and the kick each
drive the tracking engine once (`State.driveTrack_head`), and a failure holds two other loops besides (`State.trkFail_head`). -/
theorem trackingTimersFollowTable06_1 : Obligations.TrackingTimersFollowTable06_1 := by
  intro s g x others atZero acquires
  refine ⟨?acqStart, exec_trkAcqStart_idle, ?confirm, exec_confirmTimeout_idle, ?brake, ?lock, ?kick, exec_lensTimeouts_idle, ?pullin,
    ?acqTimeout, fun hst => ⟨exec_acqTimeout_idle hst, exec_trackPullinTimeout_idle hst⟩⟩
  case acqStart => exact fun hlive hst => ⟨_, exec_trkAcqStart_failed hlive hst, s.trkAcquire_spec g⟩
  case confirm => exact fun hst => ⟨_, exec_confirmTimeout_confirm hst, s.trkAcquire_spec g⟩
  case brake => exact fun j hlens hst hphase => ⟨_, exec_lensBrakeTimeout_brake hlens hst hphase, s.trkAcquire_spec g⟩
  case lock => exact fun j hlens hst hphase => ⟨_, exec_lensLockTimeout_lock hlens hst hphase, s.trkAcquire_spec g⟩
  case kick =>
    intro j hlens hst hphase
    obtain ⟨hcmd, htrk⟩ := s.driveTrack_head g (.override j.held) ({ · with lens := some { j with phase := .coast } })
    exact ⟨_, exec_lensKickTimeout_kick hlens hst hphase, hcmd, congrArg TrkSt.lens htrk, s.driveTrack_alone ..⟩
  case pullin =>
    intro hst hrun
    obtain ⟨hcmd, htrk⟩ := s.driveTrack_head g (.override 0) ({ · with running := false, lockRun := 0 })
    exact ⟨_, exec_trackPullinTimeout_running hst hrun, (congrArg TrkSt.st htrk).trans hst, hcmd, congrArg TrkSt.running htrk,
      s.driveTrack_alone ..⟩
  case acqTimeout =>
    intro hst
    obtain ⟨hfailed, hcause, hcmd⟩ := s.trkFail_head g 2
    refine ⟨_, exec_acqTimeout_acquire hst, hfailed, hcause, hcmd, rfl, ?_⟩
    rw [State.logEv_frame, s.trkFail_frame g 2]

end Sys2Proof.Machine

namespace Sys2Proof.Machine

/-! ### Grants touch the governor's part of the state alone (R22, R448, R449) -/

/-- At most the governor's part differs between two states. -/
def PowerAlone (s t : State) : Prop := t = { s with power := t.power }

theorem PowerAlone.refl (s : State) : PowerAlone s s := rfl

theorem PowerAlone.trans {s t u : State} (hst : PowerAlone s t) (htu : PowerAlone t u) : PowerAlone s u := by
  unfold PowerAlone at *
  rw [htu, hst]

theorem PowerAlone.regs {s t : State} (h : PowerAlone s t) : t.regs = s.regs := by rw [h]

theorem PowerAlone.bays {s t : State} (h : PowerAlone s t) : t.bays = s.bays := by rw [h]

theorem PowerAlone.of_power (s : State) (p : Power) : PowerAlone s { s with power := p } := rfl

theorem State.scanClass_powerAlone (s : State) (cls : GrantClass) (l : List GrantReq) : PowerAlone s (s.scanClass cls l) := by
  induction l generalizing s with
  | nil => exact .refl s
  | cons r rest ih =>
    rw [State.scanClass]
    split
    · split
      · exact (PowerAlone.of_power s _).trans (ih _)
      · split
        · exact .refl s
        · exact ih s
    · exact ih s

theorem State.scanGrants_powerAlone (s : State) : PowerAlone s s.scanGrants :=
  ((s.scanClass_powerAlone ..).trans (State.scanClass_powerAlone ..)).trans (State.scanClass_powerAlone ..)

theorem State.requestGrant_powerAlone (s : State) (cls : GrantClass) (who : Nat) : PowerAlone s (s.requestGrant cls who) := by
  unfold State.requestGrant
  split
  · exact .refl s
  · exact (PowerAlone.of_power s _).trans (State.scanGrants_powerAlone _)

theorem State.returnGrant_powerAlone (s : State) (cls : GrantClass) (who : Nat) : PowerAlone s (s.returnGrant cls who) :=
  (PowerAlone.of_power s _).trans (State.scanGrants_powerAlone _)

/-! ### What an end of a window does to commands and extents leaves the bays as they were

`State.loseHead` closes a window: its clusters fail, extents are written again or given up, their commands end, and buffers are freed.
No operation on that way reaches into a bay, so each has its law here. -/

theorem foldl_bays {α : Type} {f : State → α → State} (h : ∀ t a, (f t a).bays = t.bays) (l : List α) (s : State) :
    (l.foldl f s).bays = s.bays :=
  List.foldlRecOn (motive := fun t : State => t.bays = s.bays) l f rfl fun t ht a _ => (h t a).trans ht

/-! #### Buffers (R356, R362, R364, R367) -/

theorem State.chanWrite_bays (s : State) (a : Nat) (l : List Byte) : (s.chanWrite a l).bays = s.bays := by
  simp only [State.chanWrite]
  split
  · rfl
  · split <;> rfl

theorem State.store_bays (s : State) (a : Nat) (l : List Byte) : (s.store a l).bays = s.bays := by
  unfold State.store
  split
  · rw [State.chanWrite_bays, State.chanWrite_bays]
  · exact s.chanWrite_bays a l

theorem foldl_store_bays {α : Type} (addr : State → α → Nat) (data : α → List Byte) (l : List α) (s : State) :
    (l.foldl (fun t x => t.store (addr t x) (data x)) s).bays = s.bays :=
  foldl_bays (fun t _ => t.store_bays ..) l s

theorem State.messageIn_bays (s : State) (id : Nat) : (s.messageIn id).bays = s.bays := by
  unfold State.messageIn
  split
  · exact foldl_store_bays ..
  · rfl

theorem State.takeParts_bays (s : State) (id : Nat) (l : List (Fin 16)) : (s.takeParts id l).bays = s.bays := by
  induction l generalizing s with
  | nil => exact State.messageIn_bays ..
  | cons p r ih =>
    rw [State.takeParts]
    split
    · rfl
    · split
      · exact ih _
      · rfl

theorem State.beginAlloc_bays (s : State) (id : Nat) : (s.beginAlloc id).bays = s.bays := by
  unfold State.beginAlloc
  split
  · rfl
  · split
    · rfl
    · split
      · exact s.takeParts_bays id []
      · split
        · exact State.takeParts_bays ..
        · rfl

theorem State.retryQuota_bays (s : State) (r : Nat) : (s.retryQuota r).bays = s.bays := foldl_bays State.beginAlloc_bays _ s

theorem State.retryPool_bays (s : State) (p : Fin 16) : (s.retryPool p).bays = s.bays := by
  unfold State.retryPool
  split
  · rfl
  · simp only
    split
    · rfl
    · exact State.takeParts_bays ..

theorem State.freeBuf_bays (s : State) (b : Buf) : (s.freeBuf b).bays = s.bays := by
  simp only [State.freeBuf, State.retryQuota_bays]
  split
  · exact State.retryPool_bays ..
  · rfl

theorem State.dropBuf_bays (id : Nat) (s : State) (ref : BufRef) : (s.dropBuf id ref).bays = s.bays := by
  unfold State.dropBuf
  split
  · rfl
  · split
    · rfl
    · exact s.freeBuf_bays _

theorem State.dropBufs_bays (s : State) (id : Nat) : (s.dropBufs id).bays = s.bays := by
  unfold State.dropBufs
  split
  · rfl
  · simp only [apply_ite State.bays, State.retryQuota_bays, State.uncharge, ite_self]
    exact foldl_bays (State.dropBuf_bays id) ..

/-! #### Ends of commands (R343, R437, R438) -/

theorem State.sendOn_bays (s : State) (i : Fin 2) (p : Packet) : (s.sendOn i p).bays = s.bays := by
  simp only [State.sendOn]
  split
  · rfl
  · split <;> rfl

theorem State.sendTo_bays (s : State) (p : Packet) : (s.sendTo p).2.bays = s.bays := by
  unfold State.sendTo
  split
  · rfl
  · split
    · rfl
    · exact s.sendOn_bays _ p

theorem State.letGo_bays (s : State) (id : Nat) : (s.letGo id).bays = s.bays := foldl_bays State.beginAlloc_bays ..

theorem State.dropCmd_bays (s : State) (id : Nat) : (s.dropCmd id).bays = s.bays := by
  refine (State.letGo_bays ..).trans ((State.dropBufs_bays ..).trans ?_)
  split
  · split <;> rfl
  · rfl

theorem State.peerDone_bays (s : State) (c : Cmd) (status : Nat) : (s.peerDone c status).bays = s.bays := by
  unfold State.peerDone
  split
  · rfl
  · refine (State.sendTo_bays ..).trans ?_
    split
    · split <;> rfl
    · rfl

theorem State.fenceEnds_bays (s : State) (id : Nat) (c : Cmd) : (s.fenceEnds id c).bays = s.bays := by
  simp only [State.fenceEnds]
  split
  · exact State.letGo_bays ..
  · rfl

theorem State.finish_bays (s : State) (id status result firstFail : Nat) (logged : Bool) :
    (s.finish id status result firstFail logged).bays = s.bays := by
  unfold State.finish
  split
  · rfl
  · split
    · rfl
    · simp only [apply_ite State.bays, State.dropCmd_bays, State.peerDone_bays, State.retryQuota_bays, ite_self, State.fenceEnds_bays]
      split <;> split <;> rfl

theorem State.settleWrite_bays (s : State) (id : Nat) : (s.settleWrite id).bays = s.bays := by
  unfold State.settleWrite
  split
  · rfl
  · split
    · rfl
    · split
      · exact State.finish_bays ..
      · split
        · exact State.finish_bays ..
        · rfl

theorem State.extentOutcome_bays (s : State) (id status block : Nat) : (s.extentOutcome id status block).bays = s.bays :=
  State.settleWrite_bays ..

/-! #### Clusters, records and extents (R20, R266, R267, R268) -/

theorem State.raiseHigh_bays (s : State) (b : BayId) (sl : BitVec 5) (f : Nat) : (s.raiseHigh b sl f).bays = s.bays := by
  unfold State.raiseHigh
  split <;> rfl

theorem State.loseUnits_bays (s : State) (e : Extent) : (s.loseUnits e).bays = s.bays := by
  unfold State.loseUnits
  split
  · rfl
  · exact foldl_bays (fun t r => by rfl) _ s

/-- The live writes of an extent complete with one status. -/
theorem foldl_extentOutcome_bays (l : List ExtRun) (dead : List Nat) (status : Nat) (s : State) :
    (l.foldl (fun t r => if dead.contains r.write then t else t.extentOutcome r.write status r.first) s).bays = s.bays := by
  refine foldl_bays (fun t r => ?_) l s
  split
  · rfl
  · exact State.extentOutcome_bays ..

theorem State.giveUp_bays (s : State) (e : Extent) (status : Nat) : (s.giveUp e status).bays = s.bays := by
  refine (foldl_extentOutcome_bays ..).trans ((State.loseUnits_bays ..).trans ?_)
  split <;> rfl

theorem State.noSpace_bays (s : State) (e : Extent) : (s.noSpace e).bays = s.bays := by
  refine (foldl_extentOutcome_bays ..).trans ((State.loseUnits_bays ..).trans ?_)
  split <;> rfl

theorem State.retryExtent_bays (s : State) (e : Extent) : (s.retryExtent e).bays = s.bays := by
  unfold State.retryExtent
  split
  · exact s.giveUp_bays e _
  · simp only
    split
    · exact s.noSpace_bays e
    · rfl

theorem State.relocate_bays (s : State) (key i : Nat) : (s.relocate key i).bays = s.bays := by
  unfold State.relocate
  split
  · rfl
  · split
    · rfl
    · simp only [apply_ite State.bays, State.retryExtent_bays, State.flag_fields, State.logEv_fields, State.incSat_fields,
        State.modExtent_fields, ite_self]

theorem State.failCluster_bays (s : State) (key i : Nat) : (s.failCluster key i).bays = s.bays := by
  unfold State.failCluster
  split
  · rfl
  · exact State.relocate_bays ..

theorem State.failRecord_bays (s : State) (key : Nat) : (s.failRecord key).bays = s.bays := by
  unfold State.failRecord
  split
  · rfl
  · split
    · rfl
    · split
      · exact s.retryExtent_bays _
      · rfl

theorem State.failWindow_bays (s : State) (g : HeadId) : (s.failWindow g).bays = s.bays := by
  unfold State.failWindow
  split
  · rfl
  · split
    · rfl
    · refine (foldl_bays (fun t k => ?clustersAndRecord) _ _).trans (foldl_bays (fun t k => ?highWater) _ s)
      case highWater =>
        split
        · split
          · exact State.raiseHigh_bays ..
          · rfl
        · rfl
      case clustersAndRecord =>
        split
        · have hclusters (w : WindowPos) (e : Extent) : ((e.unfinished w).foldl (fun u i => u.failCluster k i) t).bays = t.bays :=
            foldl_bays (fun u i => u.failCluster_bays k i) _ t
          split
          · split
            · exact (State.failRecord_bays ..).trans (hclusters ..)
            · exact hclusters ..
          · exact hclusters ..
        · rfl

theorem State.meterClose_bays (s : State) (g : HeadId) : (s.meterClose g).bays = s.bays := by
  unfold State.meterClose
  split
  · rfl
  · simp only
    exact foldl_bays (fun t f => by rfl) ..

/-! ### A head that is lost, or whose focus fails, leaves every drive as it was (R20, R132) -/

/-- Every drive is as it was. -/
def SpindlesKept (s t : State) : Prop := ∀ c : BayId, t.spindle c = s.spindle c

theorem SpindlesKept.refl (s : State) : SpindlesKept s s := fun _ => rfl

theorem SpindlesKept.trans {s t u : State} (hst : SpindlesKept s t) (htu : SpindlesKept t u) : SpindlesKept s u :=
  fun c => (htu c).trans (hst c)

theorem SpindlesKept.of_bays {s t : State} (h : t.bays = s.bays) : SpindlesKept s t := fun c => by
  rw [State.spindle, State.spindle, h]

/-- A change of a bay that leaves the drive in it leaves every drive. -/
theorem State.modBay_spindlesKept (s : State) (b : BayId) {f : Bay → Bay} (h : ∀ x, (f x).spindle = x.spindle) :
    SpindlesKept s (s.modBay b f) := fun c => by
  simp only [State.spindle, State.modBay, vmod_get]
  split
  · exact h _
  · rfl

theorem State.abandonTrial_bays (s : State) (g : HeadId) : (s.abandonTrial g).bays = s.bays := by
  unfold State.abandonTrial
  split
  · rfl
  · rw [State.commitTrim_frame]

theorem State.loseHead_eq (s : State) (g : HeadId) (cause : Fin 9) : s.loseHead g cause =
    ((if s.windowOpen g then (s.failWindow g).meterClose g else s).releaseHead g cause).abandonTrial g := by
  simp only [State.loseHead]
  split <;> rfl

theorem State.releaseHead_spindlesKept (s : State) (g : HeadId) (cause : Fin 9) : SpindlesKept s (s.releaseHead g cause) :=
  s.modBay_spindlesKept (bayOf g) (f := (·.lose g cause)) fun _ => rfl

theorem State.loseHead_spindlesKept (s : State) (g : HeadId) (cause : Fin 9) : SpindlesKept s (s.loseHead g cause) := by
  have hclosed : SpindlesKept s (if s.windowOpen g then (s.failWindow g).meterClose g else s) := by
    split
    · exact .of_bays ((State.meterClose_bays ..).trans (s.failWindow_bays g))
    · exact .refl s
  rw [State.loseHead_eq]
  exact (hclosed.trans (State.releaseHead_spindlesKept _ g cause)).trans (.of_bays (State.abandonTrial_bays _ g))

theorem State.holdTracking_bays (s : State) (g : HeadId) : (s.holdTracking g).bays = s.bays := by
  obtain ⟨f, hf, -⟩ := s.holdTracking_sparesFocus g
  rw [hf]
  rfl

/-- LOST is raised unless it was reported; either way every drive is as it was. -/
theorem SpindlesKept.orLoseHead {s t : State} (h : SpindlesKept s t) (reported : Bool) (g : HeadId) (cause : Fin 9) :
    SpindlesKept s (if reported then t else t.loseHead g cause) := by
  split
  · exact h
  · exact h.trans (t.loseHead_spindlesKept g cause)

theorem State.focFail_spindlesKept (s : State) (g : HeadId) (cause : BitVec 2) : SpindlesKept s (s.focFail g cause) := by
  simp only [State.focFail]
  refine .orLoseHead (.of_bays ?_) _ g 0
  simp [State.holdTracking_bays, State.cmdLoop]

/-! ### One drive under the bay sequencer (R172, R174, R179, R180, R188) -/

theorem State.modSpindle_spindle (s : State) (b : BayId) (f : Spindle → Spindle) :
    (s.modSpindle b f).spindle b = f (s.spindle b) ∧ ∀ c : BayId, c ≠ b → (s.modSpindle b f).spindle c = s.spindle c :=
  ⟨congrArg Bay.spindle (vmod_get_self ..), fun c hc => congrArg Bay.spindle (vmod_get_ne _ _ _ c hc)⟩

theorem State.modSpindle_of_fixed {s : State} {b : BayId} {f : Spindle → Spindle} (h : f (s.spindle b) = s.spindle b) :
    s.modSpindle b f = s := by
  have hbay : (s.bays[b.val]).modSpindle f = s.bays[b.val] := by
    rw [Bay.modSpindle, show f (s.bays[b.val]).spindle = (s.bays[b.val]).spindle from h]
  rw [State.modSpindle, State.modBay, vmod, hbay, Vector.set_getElem_self]

/-- A refused command sets the flag and is logged, and touches no field. -/
theorem State.spindleRefuse_spec (s : State) (b : BayId) :
    (s.spindleRefuse b).sta (.spindle b) SPINDLE.cmd_refused = 1 ∧ (s.spindleRefuse b).log.next = s.log.next + 1 ∧
      (s.spindleRefuse b).regs.cfg = s.regs.cfg ∧
      s.spindleRefuse b = { s with regs := (s.spindleRefuse b).regs, log := (s.spindleRefuse b).log } :=
  ⟨s.sta_flag_self (.spindle b) (f := SPINDLE.cmd_refused) rfl, rfl, rfl, rfl⟩

theorem State.requestGrant_spindlesKept (s : State) (cls : GrantClass) (who : Nat) : SpindlesKept s (s.requestGrant cls who) :=
  .of_bays (s.requestGrant_powerAlone cls who).bays

theorem State.returnGrant_spindlesKept (s : State) (cls : GrantClass) (who : Nat) : SpindlesKept s (s.returnGrant cls who) :=
  .of_bays (s.returnGrant_powerAlone cls who).bays

theorem State.eachHead_spindlesKept (s : State) (b : BayId) {f : State → HeadId → State} (h : ∀ t g, SpindlesKept t (f t g)) :
    SpindlesKept s (s.eachHead b f) :=
  (h s (headOf b 0)).trans (h _ (headOf b 1))

/-- The stop report reaches heads, the session and its grant, and no drive. -/
theorem State.spindleStopped_spindlesKept (s : State) (b : BayId) : SpindlesKept s (s.spindleStopped b) := by
  have hheads : SpindlesKept s (s.eachHead b (fun t g => if t.focState g = .off then t else t.focFail g 3)) :=
    s.eachHead_spindlesKept b fun t g => by
      split
      · exact .refl t
      · exact t.focFail_spindlesKept g 3
  simp only [State.spindleStopped]
  split
  · exact hheads
  · exact (hheads.trans (State.modBay_spindlesKept _ b fun _ => by rfl)).trans (State.returnGrant_spindlesKept _ .write b.val)

/-- A drive that enters STOP, as `State.spindleStop` sets it (R177, R188). -/
def Spindle.stopping (x : Spindle) (next fault : Bool) (cause : BitVec 4) (regen : Bool) : Spindle :=
  { x.go .stop with
    stopNext := next, stopFault := fault, faultCause := if fault then cause else x.faultCause, idRef := 0, iqRef := 0
    grantWait := false, regen := regen }

theorem State.spindleStop_spindlesKept (s : State) (b : BayId) (next fault : Bool) (cause : BitVec 4) :
    SpindlesKept (s.modSpindle b (·.stopping next fault cause (s.fld (.spindle b) SPINDLE.regen_enable == 1)))
      (s.spindleStop b next fault cause) := by
  simp only [State.spindleStop]
  split
  · exact State.spindleStopped_spindlesKept _ b
  · exact (State.spindleStopped_spindlesKept _ b).trans (State.returnGrant_spindlesKept _ .spin b.val)

theorem State.spindleStop_spindle (s : State) (b : BayId) (next fault : Bool) (cause : BitVec 4) :
    (s.spindleStop b next fault cause).spindle b =
      (s.spindle b).stopping next fault cause (s.fld (.spindle b) SPINDLE.regen_enable == 1) :=
  (s.spindleStop_spindlesKept b next fault cause b).trans (s.modSpindle_spindle b _).1

theorem State.setTarget_of_above (s : State) (b : BayId) {rpm : Nat} (h : 6000 < rpm) : s.setTarget b rpm = s.spindleRefuse b :=
  if_pos h

/-- The present target, written again to a drive that does not run, changes no drive. -/
theorem State.setTarget_of_present {s : State} {b : BayId} {rpm : Nat} (hrpm : rpm ≤ 6000)
    (hsame : s.fld (.spindle b) SPINDLE.rpm = rpm) (hst : (s.spindle b).st ≠ .run) :
    s.setTarget b rpm = s.setFld (.spindle b) SPINDLE.rpm rpm := by
  have hchanged : (s.fld (.spindle b) SPINDLE.rpm != rpm) = false := by simp [hsame]
  have hstays : ((s.setFld (.spindle b) SPINDLE.rpm rpm).spindle b).st ≠ .run := hst
  simp only [State.setTarget, if_neg (Nat.not_lt.2 hrpm), hchanged, Bool.false_eq_true, if_false, Bool.not_false, Bool.and_true]
  rw [State.modSpindle_of_fixed, if_pos hstays]
  rfl

/-! ### The drive's requests, state by state (R169, R172, R174, R180, Table 07-2) -/

section
variable {s : State} {b : BayId}

theorem exec_fieldWeakenLimit_reached (hst : (s.spindle b).st = .run) (hid : (s.spindle b).idRef = -(10 * s.spf b SPINDLE.fw_imax))
    (hspeed : s.fwd b (s.spindle b).speed < (s.spindle b).ref / 40) : exec (.fieldWeakenLimit b) s =
      .next (s.modSpindle b (fun y => { y with limited := true, atSpeed := false, revGood := 0, ref := 40 * s.fwd b y.speed })) :=
  if_pos ⟨hst, hid, hspeed⟩

variable (hlive : s.answers (.spindle b) = true)
include hlive

theorem exec_spindleStart_asks (hst : (s.spindle b).st = .idle ∨ (s.spindle b).st = .stop) : exec (.spindleStart b) s =
    .next ((s.modSpindle b (fun x => { x with wantStart := true })).requestGrant .spin b.val) := by
  show execSpindleStart b s = _
  obtain hidle | hstop := hst
  · simp only [execSpindleStart, hlive, hidle]
    rfl
  · simp only [execSpindleStart, hlive, hstop]
    rfl

theorem exec_spindleStart_refused (hst : (s.spindle b).st = .off ∨ (s.spindle b).st = .fault) :
    exec (.spindleStart b) s = .next (s.spindleRefuse b) := by
  show execSpindleStart b s = _
  obtain hoff | hfault := hst
  · simp only [execSpindleStart, hlive, hoff]
    rfl
  · simp only [execSpindleStart, hlive, hfault]
    rfl

/-- The last arm: the four hypotheses rule out the others. -/
theorem exec_spindleStart_started (hidle : (s.spindle b).st ≠ .idle) (hstop : (s.spindle b).st ≠ .stop)
    (hoff : (s.spindle b).st ≠ .off) (hfault : (s.spindle b).st ≠ .fault) : exec (.spindleStart b) s = .next s := by
  show execSpindleStart b s = _
  simp only [execSpindleStart, hlive, Bool.not_true, Bool.false_eq_true, if_false]

/-- The last arm: the three hypotheses rule out the others. -/
theorem exec_spindleStop_stops (hoff : (s.spindle b).st ≠ .off) (hidle : (s.spindle b).st ≠ .idle)
    (hfault : (s.spindle b).st ≠ .fault) : exec (.spindleStop b) s = .next (s.spindleStop b false false 0) := by
  show execSpindleStop b s = _
  simp only [execSpindleStop, hlive, Bool.not_true, Bool.false_eq_true, if_false]

theorem exec_spindleStop_at_rest (hst : (s.spindle b).st = .off ∨ (s.spindle b).st = .idle ∨ (s.spindle b).st = .fault) :
    exec (.spindleStop b) s = .next s := by
  show execSpindleStop b s = _
  obtain hoff | hidle | hfault := hst
  · simp only [execSpindleStop, hlive, hoff]
    rfl
  · simp only [execSpindleStop, hlive, hidle]
    rfl
  · simp only [execSpindleStop, hlive, hfault]
    rfl

theorem exec_targetRpmWrite (rpm : BitVec 13) : exec (.targetRpmWrite b rpm) s = .next (s.setTarget b rpm.toNat) := by
  show execTargetRpmWrite b rpm s = _
  rw [execTargetRpmWrite, hlive]
  rfl

variable {v : Bool} (hnew : s.spReverse b ≠ v)
include hnew

theorem exec_spindleReverseWrite_fast (hfast : 10 * s.fld (.spindle b) SPINDLE.reverse_rpm < (s.spindle b).speed.natAbs) :
    exec (.spindleReverseWrite b v) s = .next (s.spindleRefuse b) := by
  show execSpindleReverseWrite b v s = _
  simp only [execSpindleReverseWrite, hlive, Bool.not_true, Bool.false_eq_true, if_false, if_neg hnew, if_pos hfast]

theorem exec_spindleReverseWrite_idle (hslow : (s.spindle b).speed.natAbs ≤ 10 * s.fld (.spindle b) SPINDLE.reverse_rpm)
    (hidle : (s.spindle b).st = .idle) :
    exec (.spindleReverseWrite b v) s = .next (s.setFld (.spindle b) SPINDLE.reverse (b2n v)) := by
  show execSpindleReverseWrite b v s = _
  simp only [execSpindleReverseWrite, hlive, Bool.not_true, Bool.false_eq_true, if_false, if_neg hnew, if_neg (Nat.not_lt.2 hslow), hidle]

end

/-- Settles O16: a stop's report reaches the heads, whose windows fail and whose commands end, and still no drive
(`State.spindleStopped_spindlesKept`); a refusal writes the flag and the log alone (`State.spindleRefuse_spec`); a grant asked for
moves the governor's part alone (`State.requestGrant_powerAlone`). -/
theorem spindleRequestsAreServedOrRefused : Obligations.SpindleRequestsAreServedOrRefused := by
  intro s b hlive x refused
  refine ⟨?start, ?startRefused, exec_spindleStart_started hlive, ?stop, exec_spindleStop_at_rest hlive, ?reverseRefused,
    fun v hnew => exec_spindleReverseWrite_idle hlive hnew, ?targetRefused, ?target, ?limit⟩
  case start =>
    intro hst
    obtain ⟨hself, hothers⟩ := s.modSpindle_spindle b (fun x => { x with wantStart := true })
    have hgrant := (s.modSpindle b (fun x => { x with wantStart := true })).requestGrant_spindlesKept .spin b.val
    exact ⟨_, exec_spindleStart_asks hlive hst, (hgrant b).trans hself, fun c hc => (hgrant c).trans (hothers c hc),
      (State.requestGrant_powerAlone ..).regs⟩
  case startRefused => exact fun hst => ⟨_, exec_spindleStart_refused hlive hst, s.spindleRefuse_spec b⟩
  case stop =>
    intro hoff hidle hfault
    have hstop := s.spindleStop_spindle b false false 0
    exact ⟨_, exec_spindleStop_stops hlive hoff hidle hfault, congrArg Spindle.st hstop, congrArg Spindle.idRef hstop,
      congrArg Spindle.iqRef hstop, congrArg Spindle.stopNext hstop⟩
  case reverseRefused => exact fun v hnew hfast => ⟨_, exec_spindleReverseWrite_fast hlive hnew hfast, s.spindleRefuse_spec b⟩
  case targetRefused =>
    intro rpm habove
    refine ⟨_, exec_targetRpmWrite hlive rpm, ?_⟩
    rw [s.setTarget_of_above b habove]
    exact s.spindleRefuse_spec b
  case target =>
    intro rpm hrpm hidle hsame
    have hnotRun : x.st ≠ .run := by simp [hidle]
    have hfits : rpm.toNat % 2 ^ SPINDLE.rpm.width = rpm.toNat := Nat.mod_eq_of_lt rpm.isLt
    refine ⟨_, exec_targetRpmWrite hlive rpm, ?_⟩
    rw [State.setTarget_of_present hrpm hsame hnotRun]
    exact ⟨by rw [State.fld_setFld, if_pos rfl, hfits], rfl⟩
  case limit =>
    intro hst hid hspeed
    exact ⟨_, exec_fieldWeakenLimit_reached hst hid hspeed, (s.modSpindle_spindle b _).1, rfl⟩

end Sys2Proof.Machine

namespace Sys2Proof.Machine

/-! ### A target outside the limits of its axis (R207, R212) -/

/-- A written field is not an adopted one: an axis's limits stay as they are until a later adoption. -/
@[simp] theorem State.axPar_setFld (s : State) (b : Blk) (f : Field) (v : Nat) (a : AxisId) : (s.setFld b f v).axPar a = s.axPar a := rfl

/-- A refused command of an axis sets the axis's flag (Table 08-7). -/
theorem State.sta_refuseAxis (s : State) (a : AxisId) : (s.refuseAxis a).sta (axisBlk a) AXIS.cmd_refused = 1 :=
  s.sta_flag_self (axisBlk a) (f := AXIS.cmd_refused) rfl

theorem exec_axisTargetWrite_outside {s : State} {n : Fin 4} {v : BitVec 32} (hlive : s.answers (.taxis n) = true)
    (hout : v.toInt < (s.axPar (.transport n)).lo ∨ (s.axPar (.transport n)).hi < v.toInt) :
    exec (.axisTargetWrite n v) s = .next ((s.setFld (.taxis n) AXIS.target v.toNat).refuseAxis (.transport n)) := by
  show execAxisTargetWrite n v s = _
  rw [execAxisTargetWrite, if_neg (by simp [hlive])]
  rw [← s.axPar_setFld (.taxis n) AXIS.target v.toNat] at hout
  exact if_pos hout

/-- Settles O49: the limits are compared before the mode and the state are looked at, so all that is written is TARGET and the
refusal's flag (`State.sta_refuseAxis`), both in the register file. -/
theorem targetsOutsideTheLimitsAreRefused : Obligations.TargetsOutsideTheLimitsAreRefused := by
  intro s n v hlive hout
  exact ⟨_, exec_axisTargetWrite_outside hlive hout, State.sta_refuseAxis _ (.transport n), rfl, rfl⟩

end Sys2Proof.Machine

namespace Sys2Proof.Machine

/-! ### One beam of a head -/

@[simp] theorem State.beam_modBeam_self (s : State) (g : HeadId) (k : BeamId) (f : Beam → Beam) :
    (s.modBeam g k f).beam g k = f (s.beam g k) := by
  simp [State.beam]

theorem State.beam_modBeam_ne (s : State) {g g' : HeadId} {k k' : BeamId} (h : g' ≠ g ∨ k' ≠ k) (f : Beam → Beam) :
    (s.modBeam g k f).beam g' k' = s.beam g' k' := by
  simp only [State.beam, State.modBeam_fields]
  by_cases hg : g' = g
  · have hk : k' ≠ k := h.resolve_left (not_not_intro hg)
    subst g'
    simp only [vmod_get_self, vmod_get_ne _ _ _ _ hk]
  · simp only [vmod_get_ne _ _ _ _ hg]

@[simp] theorem State.beam_flag (s : State) (b : Blk) (x : Field) (g : HeadId) (k : BeamId) :
    (s.flag b x).beam g k = s.beam g k := rfl

@[simp] theorem State.sta_modBeam (s : State) (g : HeadId) (k : BeamId) (f : Beam → Beam) (b : Blk) (x : Field) :
    (s.modBeam g k f).sta b x = s.sta b x := rfl

theorem State.sta_flag_other (s : State) {b c : Blk} {x y : Field} (h : regKey b x ≠ regKey c y) :
    (s.flag b x).sta c y = s.sta c y := by
  rw [State.flag, State.sta_setSta, if_neg h]

theorem State.sta_incSat_other (s : State) {b c : Blk} {x y : Field} (h : regKey b x ≠ regKey c y) :
    (s.incSat b x).sta c y = s.sta c y := by
  rw [State.incSat, State.addSat, State.sta_setSta, if_neg h]

/-- At most beam k of head g and the registers differ between two states. -/
def BeamAndRegsAlone (g : HeadId) (k : BeamId) (s t : State) : Prop :=
  t = { s with beams := t.beams, regs := t.regs } ∧
    ∀ (g' : HeadId) (k' : BeamId), g' ≠ g ∨ k' ≠ k → t.beam g' k' = s.beam g' k'

theorem State.modBeam_alone (s : State) (g : HeadId) (k : BeamId) (f : Beam → Beam) :
    BeamAndRegsAlone g k s (s.modBeam g k f) :=
  ⟨rfl, fun _ _ h => s.beam_modBeam_ne h f⟩

theorem BeamAndRegsAlone.trans {g : HeadId} {k : BeamId} {s t u : State} (hst : BeamAndRegsAlone g k s t)
    (htu : BeamAndRegsAlone g k t u) : BeamAndRegsAlone g k s u := by
  obtain ⟨hframe, hothers⟩ := hst
  obtain ⟨hframe', hothers'⟩ := htu
  refine ⟨?_, fun g' k' h => (hothers' g' k' h).trans (hothers g' k' h)⟩
  rw [hframe', hframe]

theorem State.incSat_beamAlone (s : State) (b : Blk) (x : Field) (g : HeadId) (k : BeamId) :
    BeamAndRegsAlone g k s (s.incSat b x) :=
  ⟨rfl, fun _ _ _ => rfl⟩

/-! ### A beam's window (R234, R246, Table 09-4) -/

section
variable {s : State} {g : HeadId} {k : BeamId}

/-- The window's start values and warm set are left to `execBeamWindowStart`. -/
theorem exec_beamWindowStart_opens {tr fr n : Nat} {sl : BitVec 5} {disc : BitVec 128} (hwin : s.readWindow? g = some (tr, fr, n))
    (hsl : s.heads[g.val].foc.sl = some sl) (hdisc : s.bays[(bayOf g).val].disc = some disc) (hidle : (s.beam g k).st = .idle)
    (hen : s.fld (.chan g) CHAN.enable = 1) : ∃ f : Beam → Beam, exec (.beamWindowStart g k) s = .next (s.modBeam g k f) ∧
      ∀ b, (f b).st = .acquire ∧ (f b).next = fr ∧ (f b).last = fr + n ∧ (f b).set = some (s.chanSet g) ∧ (f b).pend = none ∧
        (f b).defect = none := by
  have hopen : ¬((s.beam g k).st ≠ .idle ∨ s.fld (.chan g) CHAN.enable = 0) := by simp [hidle, hen]
  show ∃ f : Beam → Beam, execBeamWindowStart g k s = .next (s.modBeam g k f) ∧ _
  rw [execBeamWindowStart, hwin, hsl, hdisc]
  exact ⟨_, if_neg hopen, fun b => ⟨rfl, rfl, rfl, rfl, rfl, rfl⟩⟩

theorem exec_beamWindowStart_busy (hbusy : (s.beam g k).st ≠ .idle) : exec (.beamWindowStart g k) s = .next s := by
  show execBeamWindowStart g k s = _
  unfold execBeamWindowStart
  split
  · exact if_pos (.inl hbusy)
  · rfl

theorem exec_beamWindowStart_of_no_window (hwin : s.readWindow? g = none) : exec (.beamWindowStart g k) s = .next s := by
  show execBeamWindowStart g k s = _
  rw [execBeamWindowStart, hwin]

theorem exec_beamWindowEnd_closes (hbusy : (s.beam g k).st ≠ .idle) (hpend : (s.beam g k).pend = none) :
    exec (.beamWindowEnd g k) s = .next (s.modBeam g k Beam.close) := by
  show execBeamWindowEnd g k s = _
  simp only [execBeamWindowEnd, if_neg hbusy, hpend]

theorem exec_beamWindowEnd_idle (hidle : (s.beam g k).st = .idle) : exec (.beamWindowEnd g k) s = .next s :=
  if_pos hidle

theorem Beam.close_of_busy {b : Beam} (hbusy : b.st ≠ .idle) :
    b.close.st = .idle ∧ b.close.set = none ∧ Tab.get? b.close.warm b.zone = some b.vals := by
  rw [Beam.close, if_neg hbusy]
  exact ⟨rfl, rfl, (Tab.get?_put ..).trans (if_pos rfl)⟩

/-! ### Defects and coasts (R224, R235, R236) -/

/-- A defect declared at bit n freezes a beam, and takes one in TRACK to COAST. -/
def Beam.freeze (n : Int) (b : Beam) : Beam := { b with defect := some n, st := if b.st = .track then .coast else b.st }

/-- A defect is over, and its span is kept. -/
def Beam.thaw (span : Int × Int) (b : Beam) : Beam := { b with defect := none, spans := span :: b.spans }

theorem exec_defectStart_freezes (n : BitVec 32) (hbusy : (s.beam g k).st ≠ .idle) (hnone : (s.beam g k).defect = none) :
    exec (.defectStart g k n) s = .next ((s.modBeam g k (Beam.freeze n.toNat)).incSat (.beam g k) BEAM.defects) :=
  if_neg (by simp [hbusy, hnone])

theorem exec_defectEnd_of_no_defect (a : BitVec 32) (c : BitVec 16) (hnone : (s.beam g k).defect = none) :
    exec (.defectEnd g k a c) s = .next s := by
  show execDefectEnd g k a c s = _
  simp only [execDefectEnd, hnone]

/-- A coast ends with its defect: in TRACK if it is short, else as a long defect. -/
theorem exec_defectEnd_coast {n : Int} (a : BitVec 32) (c : BitVec 16) (hcoast : (s.beam g k).st = .coast)
    (hdefect : (s.beam g k).defect = some n) : ∃ span, exec (.defectEnd g k a c) s = .next
      (if c.toNat ≤ 4096 then (s.modBeam g k (Beam.thaw span)).modBeam g k (fun x => { x with st := .track })
        else (s.modBeam g k (Beam.thaw span)).longDefect g k) := by
  show ∃ span, execDefectEnd g k a c s = _
  simp only [execDefectEnd, hdefect, if_neg (not_not_intro hcoast)]
  exact ⟨_, (apply_ite Host.Outcome.next _ _ _).symm⟩

theorem exec_coastLimit_coast (hcoast : (s.beam g k).st = .coast) : exec (.coastLimit g k) s = .next (s.longDefect g k) :=
  if_pos hcoast

theorem exec_coastLimit_otherwise (hcoast : (s.beam g k).st ≠ .coast) : exec (.coastLimit g k) s = .next s :=
  if_neg hcoast

end

/-- A long defect is flagged and counted, in fields apart from each other and from RESYNC's flag. -/
theorem State.longDefect_spec (s : State) (g : HeadId) (k : BeamId) :
    ((s.longDefect g k).beam g k).st = .resync ∧ (s.longDefect g k).sta (.beam g k) BEAM.long_defect = 1 ∧
      (s.longDefect g k).sta (.beam g k) BEAM.long_defects =
        min (s.sta (.beam g k) BEAM.long_defects + 1) (2 ^ BEAM.long_defects.width - 1) := by
  have hresyncFlag : regKey (.beam g k) BEAM.resync ≠ regKey (.beam g k) BEAM.long_defect := regKey_ne_of_place _ (by decide)
  have hresyncCount : regKey (.beam g k) BEAM.resync ≠ regKey (.beam g k) BEAM.long_defects := regKey_ne_of_place _ (by decide)
  have hcountFlag : regKey (.beam g k) BEAM.long_defects ≠ regKey (.beam g k) BEAM.long_defect := regKey_ne_of_place _ (by decide)
  rw [State.longDefect, State.toResync, beamBlk]
  refine ⟨?resync, ?flag, ?count⟩
  case resync => rw [State.beam_flag, State.beam_modBeam_self]
  case flag =>
    rw [State.sta_flag_other _ hresyncFlag, State.sta_modBeam, State.sta_incSat_other _ hcountFlag, State.sta_flag_self _ _ rfl]
  case count =>
    rw [State.sta_flag_other _ hresyncCount, State.sta_modBeam, State.incSat_sta, State.sta_flag_other _ hcountFlag.symm]

/-- Settles O22: each command that acts changes its one beam (`State.modBeam_alone`), and a defect's start the beam's counter too; a coast
past the limit, whether its defect's end or COAST_LIMIT tells, is a long defect (`State.longDefect_spec`). -/
theorem beamsOpenAcquireAndClose : Obligations.BeamsOpenAcquireAndClose := by
  intro s g k b only
  refine ⟨fun tr f n sl disc hwin hsl hdisc => ⟨fun hidle hen => ?opens, exec_beamWindowStart_busy⟩,
    exec_beamWindowStart_of_no_window, ?closes, exec_beamWindowEnd_idle, ?freezes, ?short, ?long, exec_defectEnd_of_no_defect,
    fun hcoast => ⟨_, exec_coastLimit_coast hcoast, s.longDefect_spec g k⟩, exec_coastLimit_otherwise⟩
  case opens =>
    obtain ⟨start, hexec, hbeam⟩ := exec_beamWindowStart_opens hwin hsl hdisc hidle hen
    obtain ⟨hst, hnext, hlast, hset, hpend, hdefect⟩ := hbeam b
    refine ⟨_, hexec, ?_⟩
    simp only [State.beam_modBeam_self]
    exact ⟨hst, hnext, hlast, hset, hpend, hdefect, s.modBeam_alone g k _⟩
  case closes =>
    intro hbusy hpend
    obtain ⟨hst, hset, hwarm⟩ := Beam.close_of_busy hbusy
    refine ⟨_, exec_beamWindowEnd_closes hbusy hpend, ?_⟩
    simp only [State.beam_modBeam_self]
    exact ⟨hst, hset, hwarm, s.modBeam_alone g k _⟩
  case freezes =>
    intro n htrack hnone
    have hbusy : b.st ≠ .idle := by simp [htrack]
    have hbeam := s.beam_modBeam_self g k (Beam.freeze n.toNat)
    exact ⟨_, exec_defectStart_freezes n hbusy hnone, (congrArg Beam.st hbeam).trans (if_pos htrack), congrArg Beam.defect hbeam,
      State.incSat_sta .., (s.modBeam_alone g k _).trans (State.incSat_beamAlone ..)⟩
  case short =>
    intro n a c hcoast hdefect hshort
    obtain ⟨span, hexec⟩ := exec_defectEnd_coast a c hcoast hdefect
    rw [if_pos hshort] at hexec
    refine ⟨_, hexec, ?_⟩
    simp only [State.beam_modBeam_self, Beam.thaw, true_and]
    exact (s.modBeam_alone g k _).trans (State.modBeam_alone _ g k _)
  case long =>
    intro n a c hcoast hdefect hlong
    obtain ⟨span, hexec⟩ := exec_defectEnd_coast a c hcoast hdefect
    rw [if_neg (Nat.not_le.2 hlong)] at hexec
    obtain ⟨hst, hflag, -⟩ := State.longDefect_spec (s.modBeam g k (Beam.thaw span)) g k
    exact ⟨_, hexec, hst, hflag⟩

end Sys2Proof.Machine

namespace Sys2Proof.Machine

/-! ### The opening of a write window (R254, R255, R257, Table 09-5) -/

/-- The sets that a window's opening adopts, in force (R21, R256). -/
def State.adoptWriteSets (s : State) (g : HeadId) : State :=
  ((s.adopt (tagWr g)).adopt (tagVchan g)).adoptTrims g [4, 5, 6, 7, 8, 11, 12, 13, 14]

/-- LV3 exceeds its limit: the flag is set, the side-layer is out of write service, and the head's window is held (R255). -/
def State.lv3Hold (s : State) (g : HeadId) (sl : BitVec 5) : State :=
  ((s.flag (.wr g) WR.lv3_limit).modWr g (fun w => { w with lv3 := if w.lv3.contains sl then w.lv3 else sl :: w.lv3 })).modBay (bayOf g)
    (fun x => { x with
      requests := x.requests.map (fun r => if r.head = g ∧ r.opened = true ∧ r.isWrite = true then { r with stage := .held } else r) })

theorem State.lv3Hold_spec (s : State) (g : HeadId) (sl : BitVec 5) :
    (s.lv3Hold g sl).sta (.wr g) WR.lv3_limit = 1 ∧ ((s.lv3Hold g sl).wrs[g.val]).lv3.contains sl = true ∧
      ((s.lv3Hold g sl).wrs[g.val]).stream = (s.wrs[g.val]).stream := by
  have hwr : (s.lv3Hold g sl).wrs[g.val] = { s.wrs[g.val] with
      lv3 := if (s.wrs[g.val]).lv3.contains sl then (s.wrs[g.val]).lv3 else sl :: (s.wrs[g.val]).lv3 } := vmod_get_self ..
  rw [hwr]
  exact ⟨s.sta_flag_self (.wr g) (f := WR.lv3_limit) rfl, List.contains_iff_mem.2 List.mem_insert_self, rfl⟩

section
variable {s : State} {g : HeadId} (runs : Vector (List (BitVec 4 × BitVec 4)) 4)

theorem exec_writeWindowOpen_of_no_window (hnone : s.openWrite? g = none) : exec (.writeWindowOpen g runs) s = .next s := by
  show execWriteWindowOpen g runs s = _
  rw [execWriteWindowOpen, hnone]

theorem exec_writeWindowOpen_of_no_layer (hnone : s.heads[g.val].foc.sl = none) : exec (.writeWindowOpen g runs) s = .next s := by
  show execWriteWindowOpen g runs s = _
  unfold execWriteWindowOpen
  split
  next hlayer => simp [hnone] at hlayer
  next => rfl

theorem exec_writeWindowOpen_barred (hbar : (s.wrs[g.val]).stream = true ∨ s.hlenHigh g = true ∨
    s.heads[g.val].lanes.any (fun l => l.st != .up) = true) : exec (.writeWindowOpen g runs) s = .next s := by
  show execWriteWindowOpen g runs s = _
  unfold execWriteWindowOpen
  split
  next => exact if_pos (by simpa only [Bool.or_eq_true, or_assoc] using hbar)
  next => rfl

section
variable {track frame count : Nat} {sl : BitVec 5} (hopen : s.openWrite? g = some (track, frame, count))
  (hsl : s.heads[g.val].foc.sl = some sl) (hstream : (s.wrs[g.val]).stream = false) (hlen : s.hlenHigh g = false)
  (hlanes : s.heads[g.val].lanes.any (fun l => l.st != .up) = false)
include hopen hsl hstream hlen hlanes

theorem exec_writeWindowOpen_over_limit
    (hover : (List.finRange 4).any (fun k => overLevel ((s.adoptWriteSets g).pLevel g sl k (radius track))) = true) :
    exec (.writeWindowOpen g runs) s = .next ((s.adoptWriteSets g).lv3Hold g sl) := by
  show execWriteWindowOpen g runs s = _
  rw [execWriteWindowOpen, hopen, hsl]
  exact (if_neg (by simp [hstream, hlen, hlanes])).trans (if_pos hover)

/-- Outside the data band no extent waits, and the streams are all that starts. -/
theorem exec_writeWindowOpen_starts
    (hin : (List.finRange 4).any (fun k => overLevel ((s.adoptWriteSets g).pLevel g sl k (radius track))) = false)
    (harea : bandOf track ≠ some .data) :
    exec (.writeWindowOpen g runs) s = .next ((s.adoptWriteSets g).startStreams g sl track frame runs) := by
  show execWriteWindowOpen g runs s = _
  rw [execWriteWindowOpen, hopen, hsl]
  exact (if_neg (by simp [hstream, hlen, hlanes])).trans ((if_neg (Bool.eq_false_iff.1 hin)).trans (if_neg harea))

end

end

/-! ### Power calibration runs (R258, R260, R261) -/

/-- The recording side of a head whose run begins: the run leaves the queue, and its turn and those before it are used (R258). -/
def WrHead.begin (w : WrHead) (run : OpcRun) (temp : Int) : WrHead :=
  { w with
    run := some run, due := w.due.drop 1, redo := Vector.replicate 4 none
    used := Tab.put w.used (2 * run.sl.toNat + b2n run.outer) (run.turn + 1), lastTemp := some temp, writeNs := 0, hist := [] }

theorem WrHead.begin_used (w : WrHead) (run : OpcRun) (temp : Int) :
    Tab.get? (w.begin run temp).used (2 * run.sl.toNat + b2n run.outer) = some (run.turn + 1) :=
  (Tab.get?_put ..).trans (if_pos rfl)

theorem State.modWr_wrs (s : State) (g : HeadId) (f : WrHead → WrHead) :
    (s.modWr g f).wrs[g.val] = f s.wrs[g.val] ∧ ∀ h : HeadId, h ≠ g → (s.modWr g f).wrs[h.val] = s.wrs[h.val] :=
  ⟨vmod_get_self s.wrs g f, fun h hh => vmod_get_ne s.wrs g f h hh⟩

section
variable {s : State} {g : HeadId}

theorem exec_opcNow_queues (hlive : s.answers (.wr g) = true) {sl : BitVec 5} (hsl : s.heads[g.val].foc.sl = some sl) :
    exec (.opcNow g) s = .next ((s.modWr g (fun w => { w with due := s.opcRuns g sl })).sessionAsk (bayOf g)) := by
  show execOpcNow g s = _
  rw [execOpcNow, hlive, hsl]
  rfl

theorem exec_opcNow_of_no_layer (hlive : s.answers (.wr g) = true) (hnone : s.heads[g.val].foc.sl = none) :
    exec (.opcNow g) s = .next s := by
  show execOpcNow g s = _
  rw [execOpcNow, hlive, hnone]
  rfl

section
variable {outer : Bool} {turn : BitVec 10}

/-- A run does not begin out of WRITING, with another under way, with a window open, or on a used turn. -/
theorem exec_opcRunStart_barred (hbar : ∀ sl, s.heads[g.val].foc.sl = some sl → s.bays[(bayOf g).val].sess ≠ .writing ∨
    (s.wrs[g.val]).run.isSome = true ∨ s.windowOpen g = true ∨ turn.toNat < s.opcUsed g sl outer) :
    exec (.opcRunStart g outer turn) s = .next s := by
  show execOpcRunStart g outer turn s = _
  simp only [execOpcRunStart]
  split
  next => rfl
  next sl hsl =>
    refine if_pos ?_
    obtain hsess | hrun | hopen | hused := hbar sl hsl
    · exact .inl hsess
    · exact .inr (.inl hrun)
    · exact .inr (.inr (.inr (.inl hopen)))
    · exact .inr (.inr (.inr (.inr (.inr (.inl hused)))))

/-- The powers of the run, and the levels they give the lanes, are left to `execOpcRunStart`. -/
theorem exec_opcRunStart_begins {sl : BitVec 5} (hsl : s.heads[g.val].foc.sl = some sl)
    (hsess : s.bays[(bayOf g).val].sess = .writing) (hrun : (s.wrs[g.val]).run = none) (hdue : (s.wrs[g.val]).due.head? = some outer)
    (hclosed : s.windowOpen g = false) (hservice : s.opcService g = true) (hblank : s.opcUsed g sl outer ≤ turn.toNat)
    (hturn : turn.toNat < opcTurns outer) : ∃ (run : OpcRun) (f : Head → Head), exec (.opcRunStart g outer turn) s =
      .next ((s.modWr g (·.begin run s.heads[g.val].temp)).modHead g f) ∧ run.sl = sl ∧ run.outer = outer ∧ run.turn = turn.toNat := by
  show ∃ (run : OpcRun) (f : Head → Head), execOpcRunStart g outer turn s = _ ∧ _
  simp only [execOpcRunStart, hsl]
  rw [if_neg (by simp [hsess, hrun, hdue, hclosed, hservice, hblank, hturn])]
  exact ⟨_, _, rfl, rfl, rfl, rfl⟩

end

section
variable (k : BeamId) (steps : Vector OpcStep 8)

theorem exec_opcRunDone_of_no_run (hnone : (s.wrs[g.val]).run = none) : exec (.opcRunDone g k steps) s = .next s := by
  show execOpcRunDone g k steps s = _
  rw [execOpcRunDone, hnone]

variable {run : OpcRun} (hrun : (s.wrs[g.val]).run = some run)
include hrun

theorem exec_opcRunDone_judged (hdone : run.done[k.val] = true) : exec (.opcRunDone g k steps) s = .next s := by
  show execOpcRunDone g k steps s = _
  rw [execOpcRunDone, hrun]
  exact if_pos hdone

/-- The beam's result is stored, and the run goes on for the others. -/
theorem exec_opcRunDone_result (hdone : run.done[k.val] = false) (hmore : (run.done.set k.val true).all id = false) {r : Int}
    (hresult : opcResultOf run.base[k.val] (s.act (.wr g) WR.ber_exp) (s.actS (.wr g) WR.beta_target * 256) steps = some r) :
    exec (.opcRunDone g k steps) s = .next ((s.putOpc g k run r.toNat).modWr g (fun x => { x with
      run := some { run with done := run.done.set k.val true } })) := by
  show execOpcRunDone g k steps s = _
  simp only [execOpcRunDone, hrun, hdone, hresult, hmore, Bool.false_eq_true, if_false]

end

end

/-- Settles O25: a window's opening looks at the head before it adopts any set and at LV3 before it starts a stream; a run that begins
changes its head's recording side (`WrHead.begin`) and the head itself, and nothing else. -/
theorem writeWindowsOpenAndOpcRunsEnd : Obligations.WriteWindowsOpenAndOpcRunsEnd := by
  refine ⟨fun s g runs => ⟨exec_writeWindowOpen_of_no_window runs, exec_writeWindowOpen_of_no_layer runs,
      exec_writeWindowOpen_barred runs, ?opens, fun sl hlive => exec_opcNow_queues hlive, exec_opcNow_of_no_layer⟩,
    fun s g outer turn => ⟨?begins, ?notWriting, ?usedTurn, exec_opcRunDone_of_no_run, fun k steps run => exec_opcRunDone_judged k steps,
      fun k steps run r hrun hdone hmore => exec_opcRunDone_result k steps hrun hdone hmore⟩⟩
  case opens =>
    intro track frame count sl hopen hsl hstream hlen hlanes
    exact ⟨fun hover => ⟨_, exec_writeWindowOpen_over_limit runs hopen hsl hstream hlen hlanes hover, State.lv3Hold_spec ..⟩,
      exec_writeWindowOpen_starts runs hopen hsl hstream hlen hlanes⟩
  case begins =>
    intro sl hsl hsess hrun hdue hclosed hservice hblank hturn
    obtain ⟨run, f, hexec, rfl, rfl, hrunTurn⟩ := exec_opcRunStart_begins hsl hsess hrun hdue hclosed hservice hblank hturn
    obtain ⟨hself, hothers⟩ := s.modWr_wrs g (·.begin run s.heads[g.val].temp)
    obtain ⟨-, hheads⟩ := (s.modWr g (·.begin run s.heads[g.val].temp)).modHead_heads g f
    refine ⟨_, hexec, ?_⟩
    rw [← hrunTurn]
    simp only [State.modHead_fields, hself]
    exact ⟨⟨run, rfl, rfl, rfl, rfl⟩, rfl, WrHead.begin_used .., rfl, rfl, fun h hh => ⟨hothers h hh, hheads h hh⟩, rfl⟩
  case notWriting =>
    intro hbar
    refine exec_opcRunStart_barred fun sl _ => ?_
    obtain hsess | hrun | hopen := hbar
    · exact .inl hsess
    · exact .inr (.inl hrun)
    · exact .inr (.inr (.inl hopen))
  case usedTurn =>
    intro sl hsl hused
    refine exec_opcRunStart_barred fun sl' hsl' => ?_
    obtain rfl : sl = sl' := Option.some.inj (hsl.symm.trans hsl')
    exact .inr (.inr (.inr hused))

end Sys2Proof.Machine

namespace Sys2Proof.Machine

/-! ### Commands that start nothing (R454, R455, R481 to R483, R526) -/

/-- Settles O60: a command that starts nothing keeps what `Keep` names (`exec_keep`), the mode and the local count among it. -/
theorem onlyStartsAndResetsChangeTheMode : Obligations.OnlyStartsAndResetsChangeTheMode := by
  intro i s hcold hwarm hreturn hrestart htimeout hreset
  have hother : startsModule i = false := by
    cases i with
    | coldStart x => exact absurd rfl (hcold x)
    | warmStart x => exact absurd rfl (hwarm x)
    | referenceRestored x => exact absurd rfl (hreturn x)
    | restart p x => exact absurd rfl (hrestart p x)
    | startTimeout => exact absurd rfl htimeout
    | rstNAssert => exact absurd rfl hreset
    | _ => rfl
  obtain ⟨t, ht, -, hminimal, hstarted, hstep, hlocal, hrefsel, -⟩ := exec_keep i s hother
  exact ⟨t, ht, hminimal, hstarted, hstep, hlocal, hrefsel⟩

end Sys2Proof.Machine

namespace Sys2Proof.Machine

/-! ### The two words of the timebase (R456, R507) -/

theorem wordFields_now : wordFields 0x20000 = [(.timebase, TIMEBASE.now_lo)] ∧ wordFields 0x20004 = [(.timebase, TIMEBASE.now_hi)] :=
  ⟨rfl, rfl⟩

theorem State.readField_now (s : State) :
    s.readField .timebase TIMEBASE.now_lo = s.now.toNat % 2 ^ 32 ∧ s.readField .timebase TIMEBASE.now_hi = s.now.toNat / 2 ^ 32 :=
  ⟨Nat.mod_mod .., Nat.mod_eq_of_lt (Nat.div_lt_of_lt_mul s.now.isLt)⟩

/-- The two words read as the halves of the published timebase. -/
theorem State.readWord_now {s : State} (hlive : s.answers .timebase = true) :
    s.readWord 0x20000 = s.now.toNat % 2 ^ 32 ∧ s.readWord 0x20004 = s.now.toNat / 2 ^ 32 := by
  have hlow : s.spanAnswers 0x20000 = true := hlive
  have hhigh : s.spanAnswers 0x20004 = true := hlive
  have hplace : TIMEBASE.now_lo.lo = 0 ∧ TIMEBASE.now_hi.lo = 0 := ⟨rfl, rfl⟩
  simp [State.readWord, State.mboxWord, hlow, hhigh, wordFields_now, State.readField_now, hplace]

/-- A word that the interface has latched answers with the latch, which it clears. -/
theorem State.readBy_latched {s : State} {i : Fin 3} {a v : Nat} (h : wideLow a = false)
    (hlatch : Tab.get? s.regs.readLatch[i.val] a = some v) : s.readBy i a =
    (v, { s with regs := { s.regs with readLatch := vmod s.regs.readLatch i (fun t => Tab.erase t a) } }) := by
  simp only [State.readBy, h, hlatch, Bool.false_eq_true, if_false]

theorem State.readBy_unlatched {s : State} {i : Fin 3} {a : Nat} (h : wideLow a = false)
    (hlatch : Tab.get? s.regs.readLatch[i.val] a = none) : s.readBy i a = (s.readWord a, s) := by
  simp only [State.readBy, h, hlatch, Bool.false_eq_true, if_false]

theorem exec_lowWordRead (i : Iface) (a : BitVec 26) (s : State) : exec (.lowWordRead i a) s =
    .next ((s.readBy (ifaceIx i) (a.toNat / 4 * 4)).2.emit (.regRead i (a.toNat / 4 * 4) (s.readBy (ifaceIx i) (a.toNat / 4 * 4)).1)) :=
  rfl

/-- A read of NOW_LO latches the high half of the time that it answers the low half of. -/
theorem exec_lowWordRead_now {s : State} (hlive : s.answers .timebase = true) (i : Iface) : exec (.lowWordRead i 0x20000) s =
    .next { s with
      regs := { s.regs with readLatch := vmod s.regs.readLatch (ifaceIx i) (fun t => Tab.put t 0x20004 (s.now.toNat / 2 ^ 32)) }
      out := .regRead i 0x20000 (s.now.toNat % 2 ^ 32) :: s.out } := by
  obtain ⟨hlow, hhigh⟩ := State.readWord_now hlive
  rw [← hlow, ← hhigh]
  rfl

/-- A read of NOW_HI answers what its interface has latched. -/
theorem exec_lowWordRead_latched {s : State} {i : Iface} {v : Nat} (hlatch : Tab.get? s.regs.readLatch[(ifaceIx i).val] 0x20004 = some v) :
    Next (exec (.lowWordRead i 0x20004) s) fun t => t.out = .regRead i 0x20004 v :: s.out := by
  have hread := State.readBy_latched (a := 0x20004) rfl hlatch
  refine ⟨_, exec_lowWordRead i 0x20004 s, ?_⟩
  change ((s.readBy (ifaceIx i) 0x20004).2.emit (.regRead i 0x20004 (s.readBy (ifaceIx i) 0x20004).1)).out = _
  rw [hread]
  rfl

/-- Settles O50: the first read latches the half that the second answers, whatever the time is by then. -/
theorem timebaseWordsReadAsOneValue : Obligations.TimebaseWordsReadAsOneValue := by
  intro s s' i hlive
  refine ⟨_, exec_lowWordRead_now hlive i, rfl, s.now.toNat % 2 ^ 32, rfl, fun hlatch => ?_⟩
  have hhigh : Tab.get? s'.regs.readLatch[(ifaceIx i).val] 0x20004 = some (s.now.toNat / 2 ^ 32) := by
    rw [hlatch, vmod_get_self, Tab.get?_put, if_pos rfl]
  obtain ⟨u, hu, hout⟩ := exec_lowWordRead_latched hhigh
  exact ⟨u, hu, _, hout, Nat.div_add_mod' ..⟩

end Sys2Proof.Machine

namespace Sys2Proof.Machine

/-! ### Stores that the cache does not take (R368, R378, R397) -/

theorem exec_cacheAccess_uncached {s : State} {addr : BitVec 37} (h : s.cached addr.toNat = none) (c : CacheClient) (store : Bool)
    (data : List Byte) : exec (.cacheAccess c store addr data) s =
      .next (if store then s.store addr.toNat (data.take (64 - addr.toNat % 64)) else s) := by
  simp only [exec, execCacheAccess, State.cacheAccess, h]

/-- An ACTIVE channel takes a write, and copies nothing besides. -/
theorem State.chanWrite_active {s : State} {a : Nat} (h : (s.dramCh (addrChan a)).st = .active) (l : List Byte) :
    s.chanWrite a l = s.dramWrite a l := by
  simp [State.chanWrite, h, DramState.takes, DramState.serves]

theorem addrChan_upper (a : Nat) : addrChan (a + 2 ^ 36) = .b :=
  if_neg (Nat.not_lt.mpr (Nat.le_add_left _ _))

theorem State.store_single {s : State} {a : Nat} {l : List Byte} (hst : (s.dramCh (addrChan a)).st = .active)
    (hmirror : s.mirrored a l.length = false) : s.store a l = s.dramWrite a l := by
  rw [State.store, hmirror, if_neg Bool.false_ne_true, State.chanWrite_active hst]

/-- A store to a mirrored range of two ACTIVE channels is written twice, the second time at the same offset of channel B. -/
theorem State.store_mirrored {s : State} {a : Nat} {l : List Byte} (ha : (s.dramCh .a).st = .active) (hb : (s.dramCh .b).st = .active)
    (hmirror : s.mirrored a l.length = true) : s.store a l = (s.dramWrite a l).dramWrite (a + 2 ^ 36) l := by
  have hfirst : (s.dramCh (addrChan a)).st = .active := by
    cases addrChan a
    · exact ha
    · exact hb
  have hsecond : ((s.dramWrite a l).dramCh (addrChan (a + 2 ^ 36))).st = .active := by
    rw [addrChan_upper]
    exact hb
  rw [State.store, if_pos hmirror, State.chanWrite_active hfirst, State.chanWrite_active hsecond]

/-- Settles O41: the store is one write of DRAM, or two that do not overlap, and a write reads back as `memWrite` gives. -/
theorem uncachedStoreWritesItsBytesAlone : Obligations.UncachedStoreWritesItsBytesAlone := by
  intro s c addr data a d hcached
  refine ⟨exec_cacheAccess_uncached hcached c false data, fun hst hmirror => ?single, fun hfit ha hb hmirror => ?mirrored⟩
  case single =>
    have hstore : exec (.cacheAccess c true addr data) s = .next (s.dramWrite a d) := by
      rw [← State.store_single hst hmirror]
      exact exec_cacheAccess_uncached hcached c true data
    exact ⟨_, hstore, memRead_memWrite_hit s.dram a d, memRead_memWrite_miss s.dram a d, rfl⟩
  case mirrored =>
    have hstore : exec (.cacheAccess c true addr data) s = .next ((s.dramWrite a d).dramWrite (a + 2 ^ 36) d) := by
      rw [← State.store_mirrored ha hb hmirror]
      exact exec_cacheAccess_uncached hcached c true data
    refine ⟨_, hstore, fun i hi => ⟨?_, memRead_memWrite_hit _ (a + 2 ^ 36) d i hi⟩, fun x hfirst hsecond => ?_, rfl⟩
    · exact (memRead_memWrite_miss _ (a + 2 ^ 36) d (a + i) (.inl (by omega))).trans (memRead_memWrite_hit s.dram a d i hi)
    · exact (memRead_memWrite_miss _ (a + 2 ^ 36) d x hsecond).trans (memRead_memWrite_miss s.dram a d x hfirst)

end Sys2Proof.Machine

namespace Sys2Proof.Machine

/-! ### The end of a command (R335, R338, R340) -/

/-- A lookup by number goes through a change of the commands that keeps their numbers. -/
theorem State.cmd?_map {s t : State} {f : Cmd → Cmd} (hcmds : t.cmds = s.cmds.map f) (hid : ∀ x, (f x).id = x.id) (id : Nat) :
    t.cmd? id = (s.cmd? id).map f := by
  have hsame : (fun x : Cmd => x.id == id) ∘ f = fun x => x.id == id := funext fun x => by simp [hid]
  simp only [State.cmd?, hcmds, List.find?_map, hsame]

theorem State.cmd?_id {s : State} {id : Nat} {c : Cmd} (hc : s.cmd? id = some c) : c.id = id := by
  simpa using List.find?_some hc

/-- A command that ended at the present time, as the next of all ends. -/
def Cmd.endIn (s : State) (status result first : Nat) (logged : Bool) (x : Cmd) : Cmd :=
  { x with stage := .ended, status := status, result := result, firstFail := first, logged := logged, endTime := s.now, endNo := s.arb.ended }

/-- A FENCE no longer waits for a command. -/
def Cmd.waitLess (id : Nat) (x : Cmd) : Cmd := if x.isFence then { x with waitFor := x.waitFor.filter (· != id) } else x

theorem Cmd.waitLess_of_not_fence {x : Cmd} (h : x.isFence = false) (id : Nat) : x.waitLess id = x := by
  rw [Cmd.waitLess, h, if_neg Bool.false_ne_true]

theorem Cmd.waitLess_keeps (x : Cmd) (id : Nat) :
    (x.waitLess id).id = x.id ∧ (x.waitLess id).req = x.req ∧ (x.waitLess id).onQuota = x.onQuota := by
  unfold Cmd.waitLess
  split <;> exact ⟨rfl, rfl, rfl⟩

/-- What an end makes of every command: the one that ends, and the fences that wait for it. -/
def State.endCmd (s : State) (id status result first : Nat) (logged : Bool) (x : Cmd) : Cmd :=
  Cmd.waitLess id (if x.id = id then x.endIn s status result first logged else x)

theorem State.endCmd_keeps (s : State) (id status result first : Nat) (logged : Bool) (x : Cmd) :
    let y := s.endCmd id status result first logged x
    y.id = x.id ∧ y.req = x.req ∧ (x.onQuota = false → y.onQuota = false) := by
  unfold State.endCmd
  simp only [Cmd.waitLess_keeps]
  split
  · exact ⟨rfl, rfl, fun _ => rfl⟩
  · exact ⟨rfl, rfl, fun hwait => hwait⟩

theorem State.finish_of_unknown {s : State} {id : Nat} (h : s.cmd? id = none) (status result first : Nat) (logged : Bool) :
    s.finish id status result first logged = s := by
  simp only [State.finish, h]

theorem State.finish_of_ended {s : State} {id : Nat} {c : Cmd} (hc : s.cmd? id = some c) (h : c.stage = .ended)
    (status result first : Nat) (logged : Bool) : s.finish id status result first logged = s := by
  simp only [State.finish, hc, h, if_true]

/-- Where no command of a requester waits on its quota, checking its commands again changes nothing. -/
theorem State.retryQuota_of_none {s : State} {r : Nat} (h : ∀ x ∈ s.cmds, x.req = r → x.onQuota = false) : s.retryQuota r = s := by
  have hnone : s.cmds.filter (fun c => c.req == r && c.onQuota) = [] :=
    List.filter_eq_nil_iff.mpr fun x hx hwait => by
      rw [Bool.and_eq_true, beq_iff_eq] at hwait
      exact Bool.false_ne_true ((h x hx hwait.1).symm.trans hwait.2)
  rw [State.retryQuota, hnone]
  rfl

section
variable {s : State} {id : Nat} {c : Cmd} (hc : s.cmd? id = some c) (hlive : c.stage ≠ .ended) (hread : c.isRead = false)
  (hwrite : c.isWrite = false) (hfence : c.isFence = false) (hposts : c.req ≠ 2049) (hentry : c.noPost = false)
  (hquota : ∀ x ∈ s.cmds, x.req = c.req → x.onQuota = false) (status result first : Nat) (logged : Bool)
include hc hlive hread hwrite hfence hposts hentry hquota

/-- The end of such a command is seen by the commands, by those that wait for buffers and by the count of ends. -/
theorem State.finish_of_plain : s.finish id status result first logged = { s with
    cmds := s.cmds.map (s.endCmd id status result first logged)
    poolWaits := s.poolWaits.filter (fun w => w.cmd != id), arb := { s.arb with ended := s.arb.ended + 1 } } := by
  simp only [State.finish, hc, hlive, hread, hwrite, hposts, hentry, Bool.false_eq_true, false_and, if_false, State.fenceEnds, hfence,
    State.modCmd, List.map_map]
  refine State.retryQuota_of_none fun y hy hreq => ?_
  obtain ⟨x, hx, rfl⟩ := List.mem_map.mp hy
  obtain ⟨-, hsame, hwait⟩ := s.endCmd_keeps id status result first logged x
  exact hwait (hquota x hx (hsame.symm.trans hreq))

theorem State.finish_cmd? : (s.finish id status result first logged).cmd? id = some (c.endIn s status result first logged) := by
  have hcmds := congrArg State.cmds (State.finish_of_plain hc hlive hread hwrite hfence hposts hentry hquota status result first logged)
  rw [State.cmd?_map hcmds (fun x => (s.endCmd_keeps id status result first logged x).1), hc, Option.map_some]
  have hend : (c.endIn s status result first logged).isFence = false := hfence
  rw [State.endCmd, if_pos (State.cmd?_id hc), Cmd.waitLess_of_not_fence hend]

end

/-- Settles O36: an unknown command and one that has ended are left alone, and any other end is `State.finish_cmd?`. -/
theorem endingACommandRecordsItsStatus : Obligations.EndingACommandRecordsItsStatus := by
  intro s id status result first logged
  exact ⟨fun h => State.finish_of_unknown h .., fun c hc h => State.finish_of_ended hc h ..,
    fun c hc hlive hread hwrite hfence hposts hentry hquota =>
      State.finish_cmd? hc hlive hread hwrite hfence hposts hentry hquota status result first logged⟩

end Sys2Proof.Machine

namespace Sys2Proof.Machine

/-! ### Boot records and failed starts (R480, R481) -/

/-- With room in its half, a record joins the boot records at the end. -/
theorem State.bootAppend_boot {s : State} (h : s.nv.boot.length < 2048) (kind reason : Nat) : ∃ r : BootRec,
    (r.kind = kind ∧ r.reason = reason) ∧ (s.bootAppend kind reason).nv.boot = s.nv.boot ++ [r] := by
  refine ⟨⟨kind, reason, copyCode s.nv.fwCopy, s.nv.gen % 2 ^ 32, s.nv.starts % 2 ^ 32⟩, ⟨rfl, rfl⟩, ?_⟩
  simp only [State.bootAppend, State.modNv, if_neg (Nat.not_le.mpr h)]

/-- A record that is no success joins those since the last success. -/
theorem sinceSuccess_append {r : BootRec} (h : r.kind ≠ 2) (l : List BootRec) : sinceSuccess (l ++ [r]) = sinceSuccess l ++ [r] := by
  induction l with
  | nil => simp [sinceSuccess, h]
  | cons x l ih =>
    have hany : (l ++ [r]).any (fun x => x.kind == 2) = l.any (fun x => x.kind == 2) := by simp [h]
    simp only [List.cons_append, sinceSuccess, hany, ih]
    split
    · rfl
    · split <;> rfl

/-- The number of failed starts that boot records give (`State.failedStarts`). -/
def failuresIn (l : List BootRec) : Nat := ((sinceSuccess l).filter (fun r => r.kind == 1)).length

theorem State.failedStarts_eq (s : State) : s.failedStarts = failuresIn s.nv.boot := rfl

theorem failuresIn_append {r : BootRec} (h : r.kind ≠ 2) (l : List BootRec) :
    failuresIn (l ++ [r]) = failuresIn l + if r.kind = 1 then 1 else 0 := by
  rw [failuresIn, sinceSuccess_append h, List.filter_append, List.length_append]
  by_cases hstart : r.kind = 1 <;> simp [failuresIn, hstart]

/-- A start's record counts the start, and its failures one more until it succeeds. -/
theorem State.startRecord_spec {s : State} (h : s.nv.boot.length < 2000) : s.startRecord.nv.starts = s.nv.starts + 1 ∧
    s.startRecord.failedStarts = s.failedStarts + 1 ∧ s.startRecord.nv.boot.length < 2001 := by
  obtain ⟨r, ⟨hkind, -⟩, hboot⟩ := State.bootAppend_boot (s := s.modNv (fun n => { n with starts := n.starts + 1, fwCopy := none }))
    (Nat.lt_trans h (by decide)) 1 0
  have hrecord : s.startRecord.nv.boot = s.nv.boot ++ [r] := hboot
  refine ⟨rfl, ?_, ?_⟩
  · rw [State.failedStarts_eq, State.failedStarts_eq, hrecord, failuresIn_append (by rw [hkind]; decide), if_pos hkind]
  · rw [hrecord, List.length_append]
    exact Nat.succ_lt_succ h

/-! ### How a start ends (R481, R482) -/

theorem State.writeEdt_mgmt (s : State) : s.writeEdt.mgmt = s.mgmt ∧ s.writeEdt.minimal = s.minimal := ⟨rfl, rfl⟩

theorem State.logVec_mgmt (s : State) (src : BitVec 16) (e : Ev) (data : List Nat) (bit : Nat) :
    (s.logVec src e data bit).mgmt = s.mgmt ∧ (s.logVec src e data bit).minimal = s.minimal := by
  rw [State.logVec_frame]
  exact ⟨rfl, rfl⟩

/-- A start that reaches step 8 runs in the mode that it has brought up. -/
theorem State.step8_spec (s : State) : s.step8.mgmt.started = true ∧ s.step8.minimal = s.minimal ∧ s.step8.mgmt.startStep = 8 ∧
    s.step8.mgmt.reason = 0 := by
  simp only [State.step8, State.logEv_fields, State.writeEdt_mgmt]
  exact ⟨rfl, rfl, rfl, rfl⟩

/-- AwaitsStart for another start, with a failure record of a reason last (R481). -/
def AwaitsStart (t : State) (reason : Nat) : Prop :=
  t.mgmt.started = false ∧ t.minimal = false ∧ t.mgmt.startStep = 3 ∧
    (t.nv.boot.getLast?.map (fun r => (r.kind, r.reason))) = some (3, reason)

/-- In minimal mode for a reason (R482). -/
def InMinimalMode (t : State) (reason : Nat) : Prop := t.mgmt.started = false ∧ t.minimal = true ∧ t.mgmt.reason = reason

/-- In full mode, with every step of the start done (R481). -/
def InFullMode (t : State) : Prop := t.mgmt.started = true ∧ t.minimal = false ∧ t.mgmt.startStep = 8 ∧ t.mgmt.reason = 0

theorem State.enterMinimal_spec (s : State) (reason : Nat) : InMinimalMode (s.enterMinimal reason) reason := by
  simp only [InMinimalMode, State.enterMinimal, State.logVec_mgmt, State.writeEdt_mgmt]
  exact ⟨rfl, rfl, rfl⟩

/-- A failure that admits no retry ends in minimal mode. -/
theorem State.failStart_direct (s : State) (reason : Nat) : InMinimalMode (s.failStart reason true) reason := by
  rw [State.failStart, Bool.true_or, if_pos rfl]
  exact State.enterMinimal_spec ..

section
variable {s : State} (hroom : s.nv.boot.length < 2001)
include hroom

/-- The failure record leaves the number of failed starts as the start's record has made it. -/
theorem State.failureRecord_failedStarts (reason : Nat) :
    ((s.bootAppend 3 reason).logEv (srcBlock 0) .startFailed [reason]).failedStarts = s.failedStarts := by
  obtain ⟨r, ⟨hkind, -⟩, hboot⟩ := State.bootAppend_boot (Nat.lt_trans hroom (by decide)) 3 reason
  have hrecord : ((s.bootAppend 3 reason).logEv (srcBlock 0) .startFailed [reason]).nv.boot = s.nv.boot ++ [r] := hboot
  rw [State.failedStarts_eq, State.failedStarts_eq, hrecord, failuresIn_append (by rw [hkind]; decide), if_neg (by rw [hkind]; decide),
    Nat.add_zero]

/-- The third failed start in a row ends in minimal mode. -/
theorem State.failStart_third (hthird : 3 ≤ s.failedStarts) (reason : Nat) : InMinimalMode (s.failStart reason false) reason := by
  rw [State.failStart, State.failureRecord_failedStarts hroom, decide_eq_true hthird, Bool.or_true, if_pos rfl]
  exact State.enterMinimal_spec ..

/-- A failed start before the third waits for the next. -/
theorem State.failStart_waits (hfew : s.failedStarts < 3) (hfull : s.minimal = false) (reason : Nat) :
    AwaitsStart (s.failStart reason false) reason ∧ (s.failStart reason false).nv.starts = s.nv.starts := by
  obtain ⟨r, ⟨hkind, hreason⟩, hboot⟩ := State.bootAppend_boot (Nat.lt_trans hroom (by decide)) 3 reason
  rw [State.failStart, State.failureRecord_failedStarts hroom, decide_eq_false (Nat.not_le.mpr hfew), Bool.or_false,
    if_neg Bool.false_ne_true]
  have hlast : (s.bootAppend 3 reason).nv.boot.getLast?.map (fun r => (r.kind, r.reason)) = some (3, reason) := by
    rw [hboot, List.getLast?_concat, Option.map_some, hkind, hreason]
  exact ⟨⟨rfl, hfull, rfl, hlast⟩, rfl⟩

end

/-! ### The steps of a start (R477, R481, Table 20-5) -/

/-- With the domains on and no fault in step 6, the start completes in the mode that it began in. -/
theorem State.fromStep6_completes {s : State} {i : StartIn} (hdomains : i.domainsOk = true) (hfull : s.minimal = false)
    (hfault : ((s.startRuns.step6a (!s.regs.loaded)).step6b i).step6Fault i = none) : InFullMode (s.fromStep6 i) := by
  have hstep6 := (((s.startRuns).step6a_keep (!s.regs.loaded)).trans (State.step6b_keep _ i)).trans (State.step7_keep _ (!s.regs.loaded))
  obtain ⟨-, hmode, -⟩ := hstep6
  have hend := State.step8_spec (((s.startRuns.step6a (!s.regs.loaded)).step6b i).step7 (!s.regs.loaded))
  obtain ⟨hstarted, hminimal, hstep, hreason⟩ := hend
  simp only [State.fromStep6, hdomains, if_true, hfault]
  exact ⟨hstarted, (hminimal.trans hmode).trans hfull, hstep, hreason⟩

theorem State.fromStep5_runs {s : State} {i : StartIn} (hfirmware : i.firmwareOk = true) :
    s.fromStep5 i = (s.modMgmt (fun m => { m with fw := versionOf s.nv.img, startStep := 5 })).fromStep6 i := by
  simp only [State.fromStep5, hfirmware, Bool.not_true, Bool.false_eq_true, if_false]

/-- What a start from step 3 has read before it judges: its own record, and whether the flash answers. -/
def State.startRead (s : State) (flashOk : Bool) : State :=
  (State.startRecord { s with minimal := false }).modNv (fun n => { n with noFlash := !flashOk })

theorem State.fromStep3_otpFault {s : State} {i : StartIn} (hotp : i.otpOk = false) :
    s.fromStep3 i = (s.startRead i.flashOk).failStart 9 false := by
  simp only [State.fromStep3, hotp, Bool.not_false, if_true]
  rfl

theorem State.fromStep3_reads {s : State} {i : StartIn} {c : Option (Fin 2)} {k : Bool} (hotp : i.otpOk = true) (hflash : i.flashOk = true)
    (hcopy : (s.startRead true).chooseCopy = some (c, k)) : s.fromStep3 i = ((s.startRead true).takeCopy c k).fromStep5 i := by
  have hcopy' : ((State.startRecord { s with minimal := false }).modNv (fun n => { n with noFlash := false })).chooseCopy = some (c, k) :=
    hcopy
  simp only [State.fromStep3, hotp, hflash, Bool.not_true, Bool.false_eq_true, if_false, hcopy']
  rfl

theorem State.startRead_minimal (s : State) (flashOk : Bool) : (s.startRead flashOk).minimal = false := rfl

theorem State.coldStart_untampered {s : State} {i : StartIn} (h : i.tamperLow = false) : s.coldStart i = s.latchStrap.fromStep3 i := by
  simp only [State.coldStart, h, Bool.false_eq_true, if_false]

theorem State.startRead_spec {s : State} (h : s.nv.boot.length < 2000) (flashOk : Bool) :
    (s.startRead flashOk).nv.starts = s.nv.starts + 1 ∧ (s.startRead flashOk).failedStarts = s.failedStarts + 1 ∧
      (s.startRead flashOk).nv.boot.length < 2001 :=
  State.startRecord_spec (s := { s with minimal := false }) h

theorem State.fromStep5_completes {s : State} {i : StartIn} (hfirmware : i.firmwareOk = true) (hdomains : i.domainsOk = true)
    (hfull : s.minimal = false)
    (hfault : let u := s.modMgmt (fun m => { m with fw := versionOf s.nv.img, startStep := 5 })
      ((u.startRuns.step6a (!u.regs.loaded)).step6b i).step6Fault i = none) : InFullMode (s.fromStep5 i) := by
  rw [State.fromStep5_runs hfirmware]
  exact State.fromStep6_completes hdomains hfull hfault

/-! ### The commands of a start (R481, R483, R487, R525, R526) -/

/-- What a command that starts or resets the module leaves: the queue, and a legal mode. -/
theorem StartEnds.legal {s t : State} (h : StartEnds s t) : modeLegal t ∧ t.pending = s.pending := by
  obtain ⟨⟨hqueue, -⟩, hmode⟩ := h
  exact ⟨hmode, hqueue⟩

/-- A cold start runs from reset alone, with PWR_GOOD and VIN good (R525). -/
def MayStart (s : State) (i : StartIn) : Prop :=
  s.mgmt.startStep = 0 ∧ s.mgmt.started = false ∧ i.vinOk = true ∧ i.pwrGood = true

theorem exec_coldStart_runs {s : State} {i : StartIn} (h : MayStart s i) : exec (.coldStart i) s = .next (s.coldStart i) := by
  obtain ⟨hstep, hstarted, hvin, hgood⟩ := h
  exact if_neg (by simp [hstep, hstarted, hvin, hgood])

theorem exec_coldStart_barred {s : State} {i : StartIn} (h : ¬ MayStart s i) : exec (.coldStart i) s = .next s := by
  refine if_pos ?_
  simp only [MayStart, not_and_or, Bool.not_eq_false, Bool.not_eq_true] at h
  exact h

theorem exec_startTimeout_under_way {s : State} (hstarted : s.mgmt.started = false) (hfull : s.minimal = false) :
    exec .startTimeout s = .next (s.startRecord.failStart 7 false) :=
  if_neg (by simp [hstarted, hfull])

theorem exec_startTimeout_over {s : State} (h : s.mgmt.started = true ∨ s.minimal = true) : exec .startTimeout s = .next s :=
  if_pos h

theorem exec_warmStart_waits {s : State} (i : StartIn) (h : s.mgmt.startStep = 0 ∨ s.power.powerFail = true) :
    exec (.warmStart i) s = .next s :=
  if_pos h

theorem exec_warmStart_runs {s : State} (i : StartIn) (hstep : s.mgmt.startStep ≠ 0) (hfail : s.power.powerFail = false) :
    exec (.warmStart i) s = .next (s.warmStart i) :=
  if_neg (by simp [hstep, hfail])

/-- From full mode a warm start goes on from step 5, with the image already read (R483). -/
theorem State.warmStart_of_full {s : State} (hstarted : s.mgmt.started = true) (hfull : s.minimal = false) (i : StartIn) :
    s.warmStart i = s.warmDown.warmForget.fromStep5 i := by
  simp [State.warmStart, hstarted, hfull]

theorem exec_rstNAssert (s : State) : exec .rstNAssert s = .next s.coldReset := rfl

/-- Metering resumes from its latest snapshot, which stays. -/
theorem Meter.resumed_spec (m : Meter) : m.resumed.snap = m.snap ∧ ∀ n l k, m.snap = some (n, k, l) → m.resumed.counters = l := by
  unfold Meter.resumed
  split
  next hsnap =>
    refine ⟨hsnap.symm, fun n l k h => ?_⟩
    rw [hsnap] at h
    cases h
    rfl
  next hnone => exact ⟨hnone.symm, fun n l k h => absurd (hnone.symm.trans h) (Option.some_ne_none _).symm⟩

section
variable {s : State} {p : MgmtPath} (i : StartIn) {l : List Byte}

theorem exec_restart_runs (hbusy : (s.path p).busy = true) (hop : (s.path p).op = 6) (hargs : (s.path p).args = some l) (hl : l ≠ [])
    (hact : s.mgmt.act = none) : exec (.restart p i) s = .next (s.restartOp p i (byteField l 0 1)) := by
  simp [exec, execRestart, State.runOp, hbusy, hop, hargs, hl, hact]

/-- With flag bit 2 a restart is a start that fails for good (R482, R487). -/
theorem State.restartOp_minimal (s : State) (p : MgmtPath) {flags : Nat} (h : bitOf flags 2 = true) :
    InMinimalMode (s.restartOp p i flags) 0x0A := by
  simp only [State.restartOp, h, if_true]
  exact State.failStart_direct ..

theorem exec_restart_waits (hargs : (s.path p).args = some l) (hact : s.mgmt.act.isSome = true) (hl : l ≠ []) :
    exec (.restart p i) s = .next s := by
  simp [exec, execRestart, State.runOp, hargs, hl, hact]

theorem exec_restart_idle (hbusy : (s.path p).busy = false) : exec (.restart p i) s = .next s := by
  simp [exec, execRestart, State.runOp, hbusy]

end

/-- Settles O53: a start fails with its record (`State.failStart_waits`, `State.failStart_third`) or completes from step 6
(`State.fromStep6_completes`), and each of the commands either begins one, waits, or resets. -/
theorem startsEndInFullOrMinimalMode : Obligations.StartsEndInFullOrMinimalMode := by
  intro s i p may legal waiting minimal read
  refine ⟨?coldLegal, exec_coldStart_barred, ?coldCompletes, ?coldWaits, ?coldThird, ?timeout, exec_startTimeout_over,
    exec_warmStart_waits i, ?warmLegal, ?warmCompletes, ?returned, ?reset, ?restart, fun l => exec_restart_waits i,
    exec_restart_idle i⟩
  case coldLegal => exact fun hmay => ⟨_, exec_coldStart_runs hmay, (s.coldStart_ends i).legal⟩
  case coldCompletes =>
    intro c k hmay htamper hotp hflash hfirmware hdomains hcopy u hfault
    refine ⟨_, exec_coldStart_runs hmay, ?_⟩
    rw [State.coldStart_untampered htamper, State.fromStep3_reads hotp hflash hcopy]
    obtain ⟨-, hmode, -⟩ := (s.latchStrap.startRead true).takeCopy_keep c k
    exact State.fromStep5_completes hfirmware hdomains (hmode.trans (State.startRead_minimal ..)) hfault
  case coldWaits =>
    intro hmay htamper hotp hfew hroom
    obtain ⟨hstarts, hfailed, hboot⟩ := State.startRead_spec (s := s.latchStrap) hroom i.flashOk
    have hfew' : (s.latchStrap.startRead i.flashOk).failedStarts < 3 := by
      rw [hfailed]
      exact Nat.succ_lt_succ hfew
    obtain ⟨hwaits, hkept⟩ := State.failStart_waits hboot hfew' (State.startRead_minimal ..) 9
    refine ⟨_, exec_coldStart_runs hmay, ?_⟩
    rw [State.coldStart_untampered htamper, State.fromStep3_otpFault hotp]
    exact ⟨hwaits, hkept.trans hstarts⟩
  case coldThird =>
    intro hmay htamper hotp htwo hroom
    obtain ⟨-, hfailed, hboot⟩ := State.startRead_spec (s := s.latchStrap) hroom i.flashOk
    have hthird : 3 ≤ (s.latchStrap.startRead i.flashOk).failedStarts := by
      rw [hfailed]
      exact Nat.succ_le_succ htwo
    refine ⟨_, exec_coldStart_runs hmay, ?_⟩
    rw [State.coldStart_untampered htamper, State.fromStep3_otpFault hotp]
    exact State.failStart_third hboot hthird 9
  case timeout =>
    intro hstarted hfull hfew hroom
    obtain ⟨hstarts, hfailed, hboot⟩ := State.startRecord_spec hroom
    have hfew' : s.startRecord.failedStarts < 3 := by
      rw [hfailed]
      exact Nat.succ_lt_succ hfew
    obtain ⟨hwaits, hkept⟩ := State.failStart_waits hboot hfew' hfull 7
    exact ⟨_, exec_startTimeout_under_way hstarted hfull, hwaits, hkept.trans hstarts⟩
  case warmLegal =>
    exact fun hstep hfail => ⟨exec_warmStart_runs i hstep hfail, _, exec_warmStart_runs i hstep hfail, (s.warmStart_ends i).legal⟩
  case warmCompletes =>
    intro hstep hfail hstarted hfull hfirmware hdomains w u hfault
    refine ⟨_, exec_warmStart_runs i hstep hfail, ?_⟩
    rw [State.warmStart_of_full hstarted hfull]
    exact State.fromStep5_completes hfirmware hdomains (s.warmClear_minimal.trans hfull) hfault
  case returned =>
    intro hmode
    obtain ⟨t, ht, ⟨hqueue, -⟩, hlegal⟩ := execReferenceRestored_ends i s
    exact ⟨t, ht, hlegal hmode, hqueue⟩
  case reset =>
    obtain ⟨hsnap, hcounters⟩ := s.meter.resumed_spec
    exact ⟨_, exec_rstNAssert s, rfl, rfl, hsnap, hcounters⟩
  case restart =>
    intro l hbusy hop hargs hl hact
    have hruns := exec_restart_runs i hbusy hop hargs hl hact
    exact ⟨hruns, fun hbit => ⟨_, hruns, State.restartOp_minimal i s p hbit⟩⟩

end Sys2Proof.Machine

namespace Sys2Proof.Machine

/-! ### Commits that pass their check (R503, R528) -/

/-- From s to t, the captured set of a group is pending and the group holds no bare value; every other group is as it was. -/
def Captured (tag : Nat) (s t : State) : Prop :=
  Tab.get? t.regs.pend tag = some (s.capture tag) ∧ t.committedOnce tag = true ∧
    (∀ other, other ≠ tag → Tab.get? t.regs.pend other = Tab.get? s.regs.pend other ∧ t.committedOnce other = s.committedOnce other) ∧
    t = { s with regs := { s.regs with pend := t.regs.pend, committed := t.regs.committed } }

theorem State.setPending_committedOnce (s : State) (tag other : Nat) :
    (s.setPending tag).committedOnce other = (decide (other = tag) || s.committedOnce other) := by
  by_cases hin : s.regs.committed.contains tag = true
  · have hstays : (s.setPending tag).committedOnce other = s.committedOnce other := by
      simp only [State.committedOnce, State.setPending, hin, if_true]
    rw [hstays]
    by_cases hother : other = tag
    · subst hother
      simpa [State.committedOnce] using hin
    · simp [hother]
  · have hjoins : (s.setPending tag).regs.committed = tag :: s.regs.committed := if_neg hin
    rw [State.committedOnce, hjoins, List.contains_cons]
    rfl

theorem State.setPending_captured (s : State) (tag : Nat) : Captured tag s (s.setPending tag) := by
  refine ⟨?pending, ?once, fun other hother => ⟨?otherPending, ?otherOnce⟩, rfl⟩
  case pending => exact (Tab.get?_put ..).trans (if_pos rfl)
  case once => simp [State.setPending_committedOnce]
  case otherPending => exact (Tab.get?_put ..).trans (if_neg (Ne.symm hother))
  case otherOnce => simp [State.setPending_committedOnce, hother]

/-- A command to a block that answers is not turned away as absent (R309). -/
theorem ite_answers {s : State} {b : Blk} (h : s.answers b = true) (turnedAway o : Host.Outcome State Fault Refusal) :
    (if (!s.answers b) = true then turnedAway else o) = o :=
  if_neg (by rw [h]; exact Bool.false_ne_true)

/-- A commit whose set passes its check makes the captured set pending. -/
theorem captured_of_commitWith {s : State} {tag : Nat} {ok : Bool} {src : BitVec 16} {err : Option (Blk × Field)}
    {o : Host.Outcome State Fault Refusal} (hok : ok = true) (h : o = .next (s.commitWith tag ok src err)) : Next o (Captured tag s) := by
  subst hok
  exact ⟨_, h, s.setPending_captured tag⟩

/-- Settles O1: each commit of the seven groups is `State.commitWith` of its group, and the check is met or there is none. -/
theorem shadowCommitCapturesWholeGroup : Obligations.ShadowCommitCapturesWholeGroup := by
  intro s captured
  refine ⟨?foc, ?trk, ?spindle, ?axis, ?wr, ?vchan, ?decode⟩
  case foc => exact fun g h => captured_of_commitWith rfl (ite_answers h ..)
  case trk => exact fun g h => captured_of_commitWith rfl (ite_answers h ..)
  case spindle => exact fun b h => captured_of_commitWith rfl (ite_answers h ..)
  case axis => exact fun a h => captured_of_commitWith rfl (ite_answers h ..)
  case wr => exact fun g h => captured_of_commitWith rfl (ite_answers h ..)
  case vchan => exact fun g h hthr => captured_of_commitWith (bne_iff_ne.mpr hthr) (ite_answers h ..)
  case decode => exact fun h hok => captured_of_commitWith hok (ite_answers h ..)

end Sys2Proof.Machine

namespace Sys2Proof.Machine

/-! ### Queues (R349, R350) -/

/-- With no command of a kind, none is dropped from under a FENCE. -/
theorem State.dropFenced_of_none {s : State} {sel : Cmd → Bool} (h : ∀ x ∈ s.cmds, sel x = false) : s.dropFenced sel = s := by
  have hnone : s.cmds.filter (fun c => sel c && s.underFence c) = [] :=
    List.filter_eq_nil_iff.mpr fun x hx => by simp [h x hx]
  rw [State.dropFenced, hnone]
  rfl

/-- An SQ owes nothing where none of its commands is left and no CQ holds an error. -/
theorem State.sqOwes_of_none {s : State} {f : FuncId} {q : Nat} (hcmds : ∀ x ∈ s.cmds, (x.f == f && x.sq == q) = false)
    (hheld : ∀ x ∈ s.cqs, x.held = []) : s.sqOwes f q = false := by
  rw [State.sqOwes, Bool.or_eq_false_iff, List.any_eq_false, List.any_eq_false]
  refine ⟨fun x hx => ?_, fun x hx => by simp [hheld x hx]⟩
  rw [Bool.and_right_comm, hcmds x hx, Bool.false_and]
  exact Bool.false_ne_true

section
variable {s : State} {id : BitVec 64} {c : Cmd}

theorem execCreateCq_creates (hc : s.adminCmd? id 0x80 = some c) (h : s.createCqStatus c = 0) : execCreateCq id s =
    .next ((State.addLine { s with cqs := s.cqs ++ [{
      f := c.f, q := specLe c.e 36 4, base := c.e.dataAddr.toNat, size := specLe c.e 40 2 + 1, vector := specLe c.e 42 2
      aggCount := specByte c.e 44, aggTime := specByte c.e 45, head := 0, tail := 0, phase := true, seq := 0, error := false
      held := [], unsig := 0 }] } c.f false (lineOf (specLe c.e 36 4))).finish c.id 0 0 0xFFFFFFFF false) := by
  simp only [execCreateCq, hc, h, State.adminOk]

theorem execCreateCq_refused (hc : s.adminCmd? id 0x80 = some c) (h : s.createCqStatus c ≠ 0) :
    execCreateCq id s = .next (s.finish c.id (s.createCqStatus c) 0 0xFFFFFFFF false) := by
  simp only [execCreateCq, hc]

theorem execCreateSq_creates (hc : s.adminCmd? id 0x81 = some c) (h : s.createSqStatus c = 0) : execCreateSq id s =
    .next ((State.addLine { s with sqs := s.sqs ++ [{
      f := c.f, q := specLe c.e 36 4, base := c.e.dataAddr.toNat, size := specLe c.e 40 2 + 1, cq := specLe c.e 44 4
      urgent := specByte c.e 48 == 1, head := 0, tail := 0, seq := 0, error := false, deleting := none, nextWrite := false }] }
      c.f true (lineOf (specLe c.e 36 4))).finish c.id 0 0 0xFFFFFFFF false) := by
  simp only [execCreateSq, hc, h, State.adminOk]

theorem execCreateSq_refused (hc : s.adminCmd? id 0x81 = some c) (h : s.createSqStatus c ≠ 0) :
    execCreateSq id s = .next (s.finish c.id (s.createSqStatus c) 0 0xFFFFFFFF false) := by
  simp only [execCreateSq, hc]

theorem execDeleteSq_refused (hc : s.adminCmd? id 0x82 = some c) (h : specLe c.e 36 4 = 0 ∨ s.sq? c.f (specLe c.e 36 4) = none) :
    execDeleteSq id s = .next (s.finish c.id (stat 3 1) 0 0xFFFFFFFF false) := by
  cases hsq : s.sq? c.f (specLe c.e 36 4) with
  | none => simp only [execDeleteSq, hc, hsq]
  | some x =>
    have hq : specLe c.e 36 4 = 0 := h.resolve_right (by rw [hsq]; exact Option.some_ne_none x)
    rw [hq] at hsq
    simp only [execDeleteSq, hc, hsq, hq, if_true]

/-- An SQ with nothing left of it is deleted at once. -/
theorem execDeleteSq_deletes (hc : s.adminCmd? id 0x82 = some c) (hq : specLe c.e 36 4 ≠ 0)
    (hsq : (s.sq? c.f (specLe c.e 36 4)).isSome = true) (hcmds : ∀ x ∈ s.cmds, x.f = c.f → x.sq ≠ specLe c.e 36 4)
    (hheld : ∀ x ∈ s.cqs, x.held = []) : execDeleteSq id s =
      .next (((s.modSq c.f (specLe c.e 36 4) (fun x => { x with deleting := some c.id })).removeSq c.f (specLe c.e 36 4)).finish
        c.id 0 0 0xFFFFFFFF false) := by
  obtain ⟨x, hx⟩ := Option.isSome_iff_exists.mp hsq
  have hother : ∀ x ∈ s.cmds, (x.f == c.f && x.sq == specLe c.e 36 4) = false := fun x hx => by
    rw [Bool.and_eq_false_imp, beq_iff_eq, beq_eq_false_iff_ne]
    exact hcmds x hx
  have hdrop := State.dropFenced_of_none (s := s.modSq c.f (specLe c.e 36 4) (fun x => { x with deleting := some c.id }))
    (sel := fun x => x.f == c.f && x.sq == specLe c.e 36 4 && x.posts) fun x hx => by rw [hother x hx, Bool.false_and]
  have hfences : s.cmds.filter (fun x => x.f == c.f && x.sq == specLe c.e 36 4 && x.posts && x.isFence && x.stage != .ended) = [] :=
    List.filter_eq_nil_iff.mpr fun x hx => by simp [hother x hx]
  have howes := State.sqOwes_of_none (s := s.modSq c.f (specLe c.e 36 4) (fun x => { x with deleting := some c.id })) hother hheld
  simp only [execDeleteSq, hc, hx, hq, if_false, hdrop, State.modSq_fields, hfences, List.map_nil, List.foldl_nil, howes,
    Bool.false_eq_true, State.adminOk]

theorem execDeleteCq_refused (hc : s.adminCmd? id 0x83 = some c) (h : specLe c.e 36 4 = 0 ∨ s.cq? c.f (specLe c.e 36 4) = none) :
    execDeleteCq id s = .next (s.finish c.id (stat 3 1) 0 0xFFFFFFFF false) := by
  simp only [execDeleteCq, hc, h, if_true]

section
variable (hc : s.adminCmd? id 0x83 = some c) (hq : specLe c.e 36 4 ≠ 0) (hcq : s.cq? c.f (specLe c.e 36 4) ≠ none)
include hc hq hcq

theorem execDeleteCq_used (hused : s.sqs.any (fun x => x.f == c.f && x.cq == specLe c.e 36 4) = true) :
    execDeleteCq id s = .next (s.finish c.id (stat 3 3) 0 0xFFFFFFFF false) := by
  simp only [execDeleteCq, hc, hq, hcq, hused, or_self, if_false, if_true]

theorem execDeleteCq_deletes (hfree : s.sqs.any (fun x => x.f == c.f && x.cq == specLe c.e 36 4) = false) : execDeleteCq id s =
    .next ((State.dropLine { s with cqs := s.cqs.filter (fun x => !(x.f == c.f && x.q == specLe c.e 36 4)) } c.f false
      (lineOf (specLe c.e 36 4))).finish c.id 0 0 0xFFFFFFFF false) := by
  simp only [execDeleteCq, hc, hq, hcq, hfree, or_self, if_false, Bool.false_eq_true, State.adminOk]

end

end

/-- Settles O37: each of the four commands on its branches; a failing check, or the lack of a queue, ends it before any queue changes. -/
theorem queuesAreCreatedAndDeleted : Obligations.QueuesAreCreatedAndDeleted := by
  intro s id
  exact ⟨fun c => execCreateCq_creates, fun c => execCreateCq_refused, fun c => execCreateSq_creates, fun c => execCreateSq_refused,
    fun c => execDeleteSq_refused, fun c => execDeleteSq_deletes, fun c => execDeleteCq_refused,
    fun c hc hq hcq => ⟨execDeleteCq_used hc hq hcq, execDeleteCq_deletes hc hq hcq⟩⟩

end Sys2Proof.Machine

namespace Sys2Proof.Machine

/-! ### What a mount leaves alone (R132, R292, R462, R489) -/

/-- What each turn of a fold keeps, the fold keeps. -/
theorem foldl_keeps {α β γ : Type} (p : β → γ) {f : β → α → β} (h : ∀ t a, p (f t a) = p t) (l : List α) (s : β) :
    p (l.foldl f s) = p s :=
  List.foldlRecOn (motive := fun t => p t = p s) l f rfl fun t ht a _ => (h t a).trans ht

/-- From s to t, nothing but the meter has changed. -/
def MeterAlone (s t : State) : Prop := t = { s with meter := t.meter }

theorem foldl_meterAlone {α : Type} {s : State} {f : State → α → State} (h : ∀ t a, MeterAlone s t → MeterAlone s (f t a)) (l : List α)
    {t : State} (ht : MeterAlone s t) : MeterAlone s (l.foldl f t) :=
  List.foldlRecOn (motive := MeterAlone s) l f ht fun t ht a _ => h t a ht

theorem MeterAlone.meterAdd {s t : State} (h : MeterAlone s t) (f : Nat) (i : Fin 5) (n : Nat) : MeterAlone s (t.meterAdd f i n) := by
  unfold MeterAlone
  rw [h]
  rfl

/-- Accruing mounted time reaches the meter alone (R489). -/
theorem State.accrueMounted_meterAlone (s : State) : MeterAlone s s.accrueMounted := by
  unfold State.accrueMounted
  dsimp only
  split
  · rfl
  · refine foldl_meterAlone (fun t b ht => ?_) _ rfl
    split
    · exact ht
    · split
      · exact foldl_meterAlone (fun u f hu => hu.meterAdd f cMounted _) _ ht
      · exact ht

theorem State.recomputeTrims_mounts (s : State) (g : HeadId) : (s.recomputeTrims g).mounts = s.mounts :=
  foldl_keeps State.mounts (fun t e => by rw [State.commitTrim_frame]) _ s

theorem State.holdTracking_mounts (s : State) (g : HeadId) : (s.holdTracking g).mounts = s.mounts := by
  obtain ⟨f, hf, -⟩ := s.holdTracking_sparesFocus g
  rw [hf]
  rfl

theorem State.focStart_mounts (s : State) (g : HeadId) : (s.focStart g).mounts = s.mounts := by
  unfold State.focStart
  dsimp only
  split
  · exact State.holdTracking_mounts ..
  · rfl

theorem State.resumeStart_mounts (s : State) (g : HeadId) : (s.resumeStart g).mounts = s.mounts := by
  unfold State.resumeStart
  split
  · exact s.focStart_mounts g
  · rfl

theorem State.modAxis_mounts (s : State) (a : AxisId) (f : Axis → Axis) : (s.modAxis a f).mounts = s.mounts := by
  cases a <;> rfl

theorem State.homeStart_mounts (s : State) (a : AxisId) : (s.homeStart a).mounts = s.mounts := by
  simp only [State.homeStart, State.homeSet, apply_ite State.mounts, State.modAxis_mounts, ite_self]

theorem State.startHead_mounts (s : State) (g : HeadId) : (s.startHead g).mounts = s.mounts := by
  simp only [State.startHead, apply_ite State.mounts, State.focStart_mounts, State.resumeStart_mounts, State.homeStart_mounts,
    State.modFoc_fields, ite_self]

theorem State.remount_mounts (s : State) (b : BayId) (g : HeadId) : (s.remount b g).mounts = s.mounts := by
  simp only [State.remount, State.recomputeTrims_mounts, apply_ite State.mounts, State.startHead_mounts, ite_self]

/-- Of the mounts, the start of one changes its own: it is in stage 1. -/
theorem State.beginMount_mounts (s : State) (b : BayId) (disc : BitVec 128) :
    (s.beginMount b disc).mounts = vmod s.mounts b (fun _ => { Mount.reset with st := .mounting, stage := 1 }) := by
  have haccrue : s.accrueMounted.mounts = s.mounts := by rw [s.accrueMounted_meterAlone]
  rw [← haccrue]
  exact foldl_keeps State.mounts (fun t g => t.remount_mounts b g) _ _

/-- The end of a mount leaves its bay empty. -/
theorem State.endMount_spec (s : State) (b : BayId) : (s.endMount b).mounts[b.val] = Mount.reset ∧
    ((s.endMount b).bays[b.val]).disc = none ∧ (s.endMount b).extents = s.extents := by
  have hextents : s.accrueMounted.extents = s.extents := by rw [s.accrueMounted_meterAlone]
  refine ⟨vmod_get_self .., congrArg Bay.disc (vmod_get_self ..), ?_⟩
  rw [← hextents]
  unfold State.endMount
  dsimp only
  split <;> rfl

/-! ### The commands of a mount (R292 to R294, Table 11-4) -/

section
variable {s : State} {b : BayId}

theorem exec_mountStart_begins (disc : BitVec 128) (hst : (s.mounts[b.val]).st = .none) (honce : s.committedOnce 0x0800 = true) :
    exec (.mountStart b disc) s = .next (s.beginMount b disc) :=
  if_neg (by simp [hst, honce])

theorem exec_mountStart_barred (disc : BitVec 128) (h : (s.mounts[b.val]).st ≠ .none ∨ s.committedOnce 0x0800 = false) :
    exec (.mountStart b disc) s = .next s :=
  if_pos h

theorem exec_mountStageDone_other (r : MountRead) (h : (s.mounts[b.val]).st ≠ .mounting ∨ (s.mounts[b.val]).stage ≠ readStage r) :
    exec (.mountStageDone b r) s = .next s :=
  if_pos h

theorem exec_mountStageDone_own {r : MountRead} (hst : (s.mounts[b.val]).st = .mounting) (hstage : (s.mounts[b.val]).stage = readStage r) :
    exec (.mountStageDone b r) s = .next (s.mountRead b r) :=
  if_neg (by simp [hst, hstage])

theorem exec_discUnload_mounting (hst : (s.mounts[b.val]).st = .mounting) :
    exec (.discUnload b) s = .next (s.modMount b (fun m => { m with unloadAsked := true })) := by
  simp only [exec, execDiscUnload, State.unload, hst]

theorem exec_discUnload_mounted (hst : (s.mounts[b.val]).st = .mounted) :
    exec (.discUnload b) s = .next (s.modMount b (fun m => { m with unloadAsked := true, anchorDue := true })) := by
  simp only [exec, execDiscUnload, State.unload, hst]

theorem exec_discUnload_readOnly (hst : (s.mounts[b.val]).st = .readOnly) : exec (.discUnload b) s = .next (s.endMount b) := by
  simp only [exec, execDiscUnload, State.unload, hst]

end

/-- Settles O30: a start, a result and an unload each look at the bay's own mount, and only its start reaches beyond the bay. -/
theorem mountsRunTheirStagesInOrder : Obligations.MountsRunTheirStagesInOrder := by
  intro s b m
  refine ⟨?start, fun disc => exec_mountStart_barred disc, fun r => exec_mountStageDone_other r, ?discId, ?anchors,
    exec_discUnload_mounting, exec_discUnload_mounted, fun hst => ⟨_, exec_discUnload_readOnly hst, s.endMount_spec b⟩⟩
  case start =>
    intro disc hst honce
    refine ⟨_, exec_mountStart_begins disc hst honce, ?_⟩
    simp only [State.beginMount_mounts, vmod_get_self, true_and]
    exact fun c hc => vmod_get_ne _ _ _ c hc
  case discId =>
    intro id hst hstage
    exact ⟨_, exec_mountStageDone_own (r := .discId id) hst hstage, vmod_get_self .., congrArg Bay.disc (vmod_get_self ..)⟩
  case anchors =>
    intro blank copies hst hstage
    exact ⟨_, exec_mountStageDone_own (r := .anchors blank copies) hst hstage, vmod_get_self .., rfl⟩

end Sys2Proof.Machine

namespace Sys2Proof.Machine

/-! ### One channel of DRAM (R383 to R402, Table 15-2) -/

theorem chanIx_otherChan_ne (c : DramChan) : chanIx (otherChan c) ≠ chanIx c := by
  cases c <;> decide

theorem State.modDram_dramCh (s : State) (c : DramChan) (f : DramCh → DramCh) :
    (s.modDram c f).dramCh c = f (s.dramCh c) ∧ (s.modDram c f).dramCh (otherChan c) = s.dramCh (otherChan c) :=
  ⟨vmod_get_self .., vmod_get_ne _ _ _ _ (chanIx_otherChan_ne c)⟩

/-- Where no part waits for a buffer, pools that serve again give none. -/
theorem State.poolsBack_of_no_waits {s : State} (h : s.poolWaits = []) (c : DramChan) : s.poolsBack c = s :=
  List.foldlRecOn (motive := fun t : State => t = s) _ _ rfl fun t ht p _ => by
    subst ht
    rw [h]
    rfl

/-- A channel that fails is FAILED, and bit 1 of MGMT.EVENTS says so (R386). -/
theorem State.chanFailed_spec (s : State) (c : DramChan) (e : Ev) :
    (s.chanFailed c e).dramCh c = { s.dramCh c with st := .failed, rejoin := false } ∧
    (s.chanFailed c e).log.events.getLsbD 1 = true ∧ (s.chanFailed c e).dramCh (otherChan c) = s.dramCh (otherChan c) := by
  have hevent : (s.chanFailed c e).log.events.getLsbD 1 = true := State.logVec_event _ _ _ _ (by decide)
  obtain ⟨hown, hother⟩ := s.modDram_dramCh c (fun x => { x with st := .failed, rejoin := false })
  rw [State.chanFailed, State.logVec_frame] at hevent ⊢
  exact ⟨hown, hevent, hother⟩

section
variable {s : State} {c : DramChan}

/-! #### Training (R383, R386) -/

theorem exec_dramTrain_begins (hlive : s.answers (.dramc c) = true)
    (h : (s.dramCh c).st = .failed ∨ ((s.dramCh c).st = .off ∧ s.pdOn (chanPd c) = true ∧ s.timingLoaded c = true)) :
    exec (.dramTrain c) s = .next (s.beginTraining c) := by
  simp only [exec, execDramTrain, hlive, h, Bool.not_true, Bool.false_eq_true, if_false, if_true]

theorem exec_dramTrain_active (hlive : s.answers (.dramc c) = true) (hst : (s.dramCh c).st = .active) :
    exec (.dramTrain c) s = .next s := by
  simp [exec, execDramTrain, hlive, hst]

/-- A channel whose training has passed takes the thresholds that were read and forgets its attempts. -/
def DramCh.trained (x : DramCh) (st : DramState) (imt mmt : BitVec 12) : DramCh :=
  { x with st := st, attempts := 0, rejoin := false, fresh := [], imt := imt.toNat, mmt := mmt.toNat, mismatch := false }

theorem exec_trainingDone_rejoins (imt mmt : BitVec 12) (hst : (s.dramCh c).st = .training) (hback : (s.dramCh c).rejoin = true)
    (hother : s.otherServes c = true) :
    exec (.trainingDone c true true imt mmt) s = .next (s.modDram c (·.trained .resilver imt mmt)) := by
  simp only [exec, execTrainingDone, hst, hback, hother, ne_eq, not_true_eq_false, Bool.and_self, if_false, if_true]
  rfl

theorem exec_trainingDone_passes (imt mmt : BitVec 12) (hst : (s.dramCh c).st = .training) (hback : (s.dramCh c).rejoin = false)
    (hwaits : s.poolWaits = []) :
    exec (.trainingDone c true true imt mmt) s = .next (s.modDram c (·.trained .active imt mmt)) := by
  simp only [exec, execTrainingDone, hst, hback, ne_eq, not_true_eq_false, Bool.false_and, Bool.false_eq_true, if_false, if_true]
  refine congrArg Host.Outcome.next (State.poolsBack_of_no_waits ?_ c)
  exact hwaits

/-- A channel of which a training attempt has failed. -/
def DramCh.retried (x : DramCh) (m : Bool) : DramCh := { x with attempts := x.attempts + 1, mismatch := x.mismatch || !m }

/-- A failed attempt is counted, and the channel trains again while attempts are left. -/
theorem exec_trainingDone_tries_again (m : Bool) (imt mmt : BitVec 12) (hst : (s.dramCh c).st = .training)
    (hmore : (s.dramCh c).attempts + 1 < s.fld1 (.dramc c) DRAMC.train_retry) : exec (.trainingDone c false m imt mmt) s =
      .next (s.modDram c (·.retried m)) := by
  simp only [exec, execTrainingDone, hst, ne_eq, not_true_eq_false, Bool.false_eq_true, if_false, if_neg (Nat.not_le.mpr hmore)]
  rfl

theorem exec_trainingDone_fails (m : Bool) (imt mmt : BitVec 12) (hst : (s.dramCh c).st = .training)
    (hlast : s.fld1 (.dramc c) DRAMC.train_retry ≤ (s.dramCh c).attempts + 1) : exec (.trainingDone c false m imt mmt) s =
      .next ((s.modDram c (·.retried m)).chanFailed c .dramTrain) := by
  simp only [exec, execTrainingDone, hst, ne_eq, not_true_eq_false, Bool.false_eq_true, if_false, hlast, if_true]
  rfl

theorem exec_trainingDone_other (p m : Bool) (imt mmt : BitVec 12) (hst : (s.dramCh c).st ≠ .training) :
    exec (.trainingDone c p m imt mmt) s = .next s :=
  if_pos hst

/-! #### Switching (R389) -/

theorem exec_dramSwitch_refused (hlive : s.answers (.dramc c) = true) (hother : (s.dramCh (otherChan c)).st ≠ .active) :
    exec (.dramSwitch c) s = .next (s.flag (.dramc c) DRAMC.switch_refused) := by
  simp only [exec, execDramSwitch, hlive, hother, ne_eq, not_false_eq_true, Bool.not_true, Bool.false_eq_true, if_false, if_true]

theorem exec_dramSwitch_begins (hlive : s.answers (.dramc c) = true) (hother : (s.dramCh (otherChan c)).st = .active)
    (hst : (s.dramCh c).st = .active) : exec (.dramSwitch c) s = .next (s.modDram c (fun x => { x with st := .switching })) := by
  simp only [exec, execDramSwitch, hlive, hother, hst, ne_eq, not_true_eq_false, Bool.not_true, Bool.false_eq_true, if_false, if_true]

theorem exec_switchDone_trained (hst : (s.dramCh c).st = .switching) : exec (.switchDone c true) s =
    .next ((s.modDram c (fun x => { x with st := .active, set := 1 - x.set })).incSat (.dramc c) DRAMC.switches) := by
  simp only [exec, execSwitchDone, hst, ne_eq, not_true_eq_false, Bool.not_true, Bool.false_and, Bool.false_eq_true, if_false]

theorem exec_switchDone_other (ok : Bool) (hst : (s.dramCh c).st ≠ .switching) : exec (.switchDone c ok) s = .next s :=
  if_pos hst

/-! #### Diagnosis, copying and alerts (R397 to R402) -/

theorem exec_diagnoseDone_clean (hst : (s.dramCh c).st = .diagnose) : exec (.diagnoseDone c .clean) s =
    .next ((s.modDram c (fun x => { x with st := .resilver, fresh := [] })).logEv (srcDram c) .dramDiag [0]) := by
  simp only [exec, execDiagnoseDone, hst, ne_eq, not_true_eq_false, if_false]

theorem exec_diagnoseDone_devices (hst : (s.dramCh c).st = .diagnose) :
    exec (.diagnoseDone c .other) s = .next (s.chanFailed c .dramDiag) := by
  simp only [exec, execDiagnoseDone, hst, ne_eq, not_true_eq_false, if_false]

theorem exec_diagnoseDone_other (r : DiagResult) (hst : (s.dramCh c).st ≠ .diagnose) : exec (.diagnoseDone c r) s = .next s :=
  if_pos hst

theorem exec_resilverDone_ends (hst : (s.dramCh c).st = .resilver) (hwaits : s.poolWaits = []) : ∃ mib, exec (.resilverDone c) s =
    .next ((State.modDram { s with dram := s.resilvered c } c (fun x => { x with st := .active, fresh := [] })).setSta
      (.dramc c) DRAMC.copied mib) := by
  refine ⟨(s.mirrorRanges.map (·.2)).sum / 2 ^ 20, ?_⟩
  simp only [exec, execResilverDone, hst, ne_eq, not_true_eq_false, if_false]
  refine congrArg Host.Outcome.next (State.poolsBack_of_no_waits ?_ c)
  exact hwaits

theorem exec_resilverDone_other (hst : (s.dramCh c).st ≠ .resilver) : exec (.resilverDone c) s = .next s :=
  if_pos hst

theorem exec_deviceAlert_retried : exec (.deviceAlert c true) s = .next s := by
  simp [exec, execDeviceAlert]

theorem exec_deviceAlert_alone (hother : s.otherServes c = false) (r : Bool) : exec (.deviceAlert c r) s = .next s := by
  simp [exec, execDeviceAlert, hother]

theorem exec_deviceAlert_freezes (hst : (s.dramCh c).st = .active) (hother : s.otherServes c = true) :
    exec (.deviceAlert c false) s = .next (s.freeze c) := by
  simp [exec, execDeviceAlert, hst, hother, DramState.canFreeze, DramState.serves]

end

/-- Settles O43: each row of Table 15-2 is one change of the channel's own state (`State.modDram_dramCh`, `State.chanFailed_spec`), with no
pool to serve where nothing waits. -/
theorem dramChannelsFollowTable15_2 : Obligations.DramChannelsFollowTable15_2 := by
  intro s c x same other
  refine ⟨?train, exec_dramTrain_active, ?rejoins, ?passes, ?again, ?fails, fun p m imt mmt => exec_trainingDone_other p m imt mmt,
    ?refused, ?switch, ?switched, fun hst ok => exec_switchDone_other ok hst, ?clean, ?devices,
    fun hst r => exec_diagnoseDone_other r hst, ?copied, exec_resilverDone_other,
    fun hother r => exec_deviceAlert_alone hother r, exec_deviceAlert_retried, exec_deviceAlert_freezes⟩
  case train =>
    intro hlive h
    obtain ⟨hown, hother⟩ := s.modDram_dramCh c (fun x => { x with st := .training, attempts := 0 })
    exact ⟨_, exec_dramTrain_begins hlive h, hown, hother, rfl⟩
  case rejoins =>
    intro imt mmt hst hback hserves
    obtain ⟨hown, hother⟩ := s.modDram_dramCh c (·.trained .resilver imt mmt)
    exact ⟨_, exec_trainingDone_rejoins imt mmt hst hback hserves, congrArg DramCh.st hown, congrArg DramCh.imt hown,
      congrArg DramCh.mmt hown, congrArg DramCh.mismatch hown, hother, rfl⟩
  case passes =>
    intro imt mmt hst hback hwaits
    obtain ⟨hown, hother⟩ := s.modDram_dramCh c (·.trained .active imt mmt)
    exact ⟨_, exec_trainingDone_passes imt mmt hst hback hwaits, congrArg DramCh.st hown, congrArg DramCh.imt hown,
      congrArg DramCh.mmt hown, congrArg DramCh.mismatch hown, hother⟩
  case again =>
    intro m imt mmt hst hmore
    obtain ⟨hown, hother⟩ := s.modDram_dramCh c (·.retried m)
    exact ⟨_, exec_trainingDone_tries_again m imt mmt hst hmore, (congrArg DramCh.st hown).trans hst, congrArg DramCh.attempts hown,
      hother, rfl⟩
  case fails =>
    intro m imt mmt hst hlast
    obtain ⟨-, hother⟩ := s.modDram_dramCh c (·.retried m)
    obtain ⟨hown, hevent, hkept⟩ := State.chanFailed_spec
      (s.modDram c (·.retried m)) c .dramTrain
    exact ⟨_, exec_trainingDone_fails m imt mmt hst hlast, congrArg DramCh.st hown, hevent, hkept.trans hother⟩
  case refused => exact fun hlive hother => ⟨_, exec_dramSwitch_refused hlive hother, State.sta_flag_self s _ rfl, rfl⟩
  case switch =>
    intro hlive hactive hst
    obtain ⟨hown, hother⟩ := s.modDram_dramCh c (fun x => { x with st := .switching })
    exact ⟨_, exec_dramSwitch_begins hlive hactive hst, hown, hother, rfl⟩
  case switched =>
    intro hst
    obtain ⟨hown, hother⟩ := s.modDram_dramCh c (fun x => { x with st := .active, set := 1 - x.set })
    exact ⟨_, exec_switchDone_trained hst, hown, hother, rfl⟩
  case clean =>
    intro hst
    obtain ⟨hown, hother⟩ := s.modDram_dramCh c (fun x => { x with st := .resilver, fresh := [] })
    exact ⟨_, exec_diagnoseDone_clean hst, congrArg DramCh.st hown, congrArg DramCh.fresh hown, hother, rfl⟩
  case devices =>
    intro hst
    obtain ⟨hown, -, hother⟩ := s.chanFailed_spec c .dramDiag
    exact ⟨_, exec_diagnoseDone_devices hst, congrArg DramCh.st hown, hother⟩
  case copied =>
    intro hst hwaits
    obtain ⟨hown, hother⟩ := State.modDram_dramCh { s with dram := s.resilvered c } c (fun x => { x with st := .active, fresh := [] })
    obtain ⟨mib, hdone⟩ := exec_resilverDone_ends hst hwaits
    exact ⟨_, hdone, congrArg DramCh.st hown, congrArg DramCh.fresh hown, rfl, hother⟩

end Sys2Proof.Machine

namespace Sys2Proof.Machine

/-! ### Grants and domains (R445 to R449, R506) -/

/-- With no request in the queue, a scan issues nothing. -/
theorem State.scanGrants_of_no_request {s : State} (h : s.power.queue = []) : s.scanGrants = s := by
  simp only [State.scanGrants, h, State.scanClass]

/-- A scan serves a lone SEEK request that fits, and finds nothing more to serve. -/
theorem State.scanGrants_of_seek {s : State} {who mw : Nat} (h : s.power.queue = [⟨.seek, who⟩])
    (hfits : s.grantFor ⟨.seek, who⟩ = some mw) : s.scanGrants = s.issue ⟨.seek, who⟩ mw := by
  have hserved : (s.issue ⟨.seek, who⟩ mw).power.queue = [] := by simp [State.issue, h]
  simp only [State.scanGrants, h, State.scanClass, hfits, if_true, hserved]

theorem State.domainBit_of_same {s : State} {d : Nat} {v : Bool} (h : v = bitOf s.power.on.toNat d) : s.domainBit d v = s :=
  if_pos h

/-- Writing DOMAIN as it is changes no domain. -/
theorem State.domainBits_of_same (s : State) (l : List Nat) :
    l.foldl (fun u d => u.domainBit d (bitOf s.power.on.toNat d)) s = s :=
  List.foldlRecOn (motive := fun t : State => t = s) l _ rfl fun t ht d _ => by
    subst ht
    exact State.domainBit_of_same rfl

/-- Clearing a bit of a register of 20 clears that bit alone. -/
theorem bitOf_clear (x : BitVec 20) {d k : Nat} (hk : k < 20) :
    bitOf (x &&& ~~~(BitVec.ofNat 20 (2 ^ d))).toNat k = (bitOf x.toNat k && decide (d ≠ k)) := by
  have hmask : (~~~(BitVec.ofNat 20 (2 ^ d))).getLsbD k = decide (d ≠ k) := by
    rw [BitVec.getLsbD_not, BitVec.getLsbD_ofNat, Nat.testBit_two_pow]
    simp [hk]
  rw [bitOf, bitOf, BitVec.testBit_toNat, BitVec.testBit_toNat, BitVec.getLsbD_and, hmask]

/-- A switch-off with no request waiting takes the domain's bit of state and the grants of its bays. -/
theorem State.railOff_power {s : State} (h : s.power.queue = []) (d : Nat) : s.railOff d = { s with power := { s.power with
    state := s.power.state &&& ~~~(BitVec.ofNat 20 (2 ^ d))
    queue := [], held := s.power.held.filter (fun x => !(domainBays d).contains (grantBay x.cls x.who)) } } := by
  rw [State.railOff, h]
  exact State.scanGrants_of_no_request rfl

section
variable {s : State} {i : Iface} {v : BitVec 32}

theorem exec_domainWrite_low (hlive : s.answers .power = true) :
    exec (.domainWrite i false v) s = .next (s.latchLow i (Blk.base .power) v) := by
  simp only [exec, execDomainWrite, hlive, Bool.not_true, Bool.not_false, Bool.false_eq_true, if_false, if_true]

/-- A high-word write writes every bit, from its latched low word or from the present bits. -/
theorem exec_domainWrite_high (hlive : s.answers .power = true) : exec (.domainWrite i true v) s =
    let t := s.takeLow i (Blk.base .power) s.power.on.toNat
    .next ((List.range 20).foldl (fun u k => u.domainBit k (bitOf t.1 k)) t.2) := by
  simp only [exec, execDomainWrite, hlive, Bool.not_true, Bool.false_eq_true, if_false]

theorem State.takeLow_latched {a d : Nat} (h : Tab.get? s.regs.writeLatch[(ifaceIx i).val] a = some d) (present : Nat) :
    (s.takeLow i a present).1 = d := by
  simp only [State.takeLow, Tab.get, h, Option.getD_some]

theorem State.takeLow_unlatched {a : Nat} (h : Tab.get? s.regs.writeLatch[(ifaceIx i).val] a = none) (present : Nat) :
    (s.takeLow i a present).1 = present := by
  simp only [State.takeLow, Tab.get, h, Option.getD_none]

/-- With no low word latched, a high-word write asks for what is on. -/
theorem exec_domainWrite_unlatched (hlive : s.answers .power = true)
    (hlatch : Tab.get? s.regs.writeLatch[(ifaceIx i).val] (Blk.base .power) = none) :
    exec (.domainWrite i true v) s = .next (s.takeLow i (Blk.base .power) s.power.on.toNat).2 := by
  rw [exec_domainWrite_high hlive]
  dsimp only
  rw [State.takeLow_unlatched hlatch]
  exact congrArg Host.Outcome.next (State.domainBits_of_same (s.takeLow i (Blk.base .power) s.power.on.toNat).2 _)

theorem exec_domainSwitchDone_barred (d : Fin 20)
    (h : bitOf s.power.on.toNat d.val = bitOf s.power.state.toNat d.val ∨ s.power.powerFail = true) : exec (.domainSwitchDone d) s = .next s :=
  if_pos h

theorem exec_domainSwitchDone_on (d : Fin 20) (hon : bitOf s.power.on.toNat d.val = true) (hstate : bitOf s.power.state.toNat d.val = false)
    (hfail : s.power.powerFail = false) : exec (.domainSwitchDone d) s = .next (s.railOn d.val) := by
  simp [exec, execDomainSwitchDone, hon, hstate, hfail]

theorem exec_domainSwitchDone_off (d : Fin 20) (hon : bitOf s.power.on.toNat d.val = false) (hstate : bitOf s.power.state.toNat d.val = true)
    (hfail : s.power.powerFail = false) : exec (.domainSwitchDone d) s = .next (s.railOff d.val) := by
  simp [exec, execDomainSwitchDone, hon, hstate, hfail]

/-! ### The governor's inputs (R447 to R451) -/

theorem State.logVec_next (s : State) (src : BitVec 16) (e : Ev) (data : List Nat) (bit : Nat) :
    (s.logVec src e data bit).log.next = s.log.next + 1 := by
  rw [State.logVec, State.mgmtEvent_frame]
  rfl

theorem State.logVec_power (s : State) (src : BitVec 16) (e : Ev) (data : List Nat) (bit : Nat) :
    (s.logVec src e data bit).power = s.power := by
  rw [State.logVec_frame]

theorem exec_capWrite {c : BitVec 17} (hlive : s.answers .power = true) (hqueue : s.power.queue = []) :
    exec (.capWrite c) s = .next (s.setFld .power POWER.cap_mw c.toNat) := by
  simp only [exec, execCapWrite, hlive, Bool.not_true, Bool.false_eq_true, if_false]
  refine congrArg Host.Outcome.next (State.scanGrants_of_no_request ?_)
  exact hqueue

theorem exec_powerMeasure_over (mw : BitVec 17) (b : Bool) (hover : s.cap < mw.toNat) (hnew : s.power.overCap = false) :
    exec (.powerMeasure mw b) s = .next (State.logVec { s with power := { s.power with pIn := mw.toNat, overCap := true } }
      (srcBlock 1) .overCap [mw.toNat] 10) := by
  simp only [exec, execPowerMeasure, hover, hnew, Bool.false_eq_true, if_false, if_true]

theorem exec_powerMeasure_within (mw : BitVec 17) (b : Bool) (hin : mw.toNat ≤ s.cap) (h : s.power.overCap = false ∨ b = false) :
    exec (.powerMeasure mw b) s = .next { s with power := { s.power with pIn := mw.toNat } } := by
  have hends : (s.power.overCap && b) = false := by rcases h with h | h <;> simp [h]
  simp only [exec, execPowerMeasure, if_neg (Nat.not_lt.mpr hin), hends, Bool.false_eq_true, if_false]

theorem exec_powerMeasure_ends (mw : BitVec 17) (hin : mw.toNat ≤ s.cap) (hover : s.power.overCap = true) (hqueue : s.power.queue = []) :
    exec (.powerMeasure mw true) s = .next { s with power := { s.power with pIn := mw.toNat, overCap := false } } := by
  simp only [exec, execPowerMeasure, if_neg (Nat.not_lt.mpr hin), hover, Bool.and_self, if_true]
  refine congrArg Host.Outcome.next (State.scanGrants_of_no_request ?_)
  exact hqueue

theorem exec_thermalWarn_hot (c : BitVec 16) (hhot : 1600 ≤ c.toInt) (hnew : s.power.thermalWarn = false) : exec (.thermalWarn c) s =
    .next (State.logVec { s with power := { s.power with dieTemp := c.toInt, thermalWarn := true } } (srcBlock 1) .thermalWarn
      [c.toNat] 11) := by
  simp only [exec, execThermalWarn, hnew, Bool.false_eq_true, false_or, if_neg (Int.not_lt.mpr hhot)]

theorem exec_thermalWarn_records (c : BitVec 16) (h : c.toInt < 1600 ∨ s.power.thermalWarn = true) :
    exec (.thermalWarn c) s = .next { s with power := { s.power with dieTemp := c.toInt } } :=
  if_pos h.symm

theorem exec_thermalWarnClear (hqueue : s.power.queue = []) :
    exec .thermalWarnClear s = .next { s with power := { s.power with thermalWarn := false } } := by
  cases hwarn : s.power.thermalWarn with
  | false =>
    have hstays : exec .thermalWarnClear s = .next s := by
      simp only [exec, execThermalWarnClear, hwarn, Bool.false_eq_true, if_false]
    rw [hstays, ← hwarn]
  | true =>
    simp only [exec, execThermalWarnClear, hwarn, if_true]
    refine congrArg Host.Outcome.next (State.scanGrants_of_no_request ?_)
    exact hqueue

end

end Sys2Proof.Machine

namespace Sys2Proof.Machine

/-! ### What a loss of power or of the reference leaves of time and of the domains (R452, R458)

Step 3 of Table 18-6 turns bridges off: heads are lost, windows fail, commands end and grants are withdrawn. No operation on that way
moves the time or switches a domain, so each has its law here. -/

/-- The timebase, the domains' bits and states, and whether a power failure stands. -/
def State.rails (s : State) : Timebase × BitVec 20 × BitVec 20 × Bool := (s.time, s.power.on, s.power.state, s.power.powerFail)

theorem State.flag_rails (s : State) (b : Blk) (f : Field) : (s.flag b f).rails = s.rails := rfl

theorem State.incSat_rails (s : State) (b : Blk) (f : Field) : (s.incSat b f).rails = s.rails := rfl

theorem State.logEv_rails (s : State) (src : BitVec 16) (e : Ev) (data : List Nat) : (s.logEv src e data).rails = s.rails := rfl

theorem State.modExtent_rails (s : State) (key : Nat) (f : Extent → Extent) : (s.modExtent key f).rails = s.rails := rfl

theorem State.modBay_rails (s : State) (b : BayId) (f : Bay → Bay) : (s.modBay b f).rails = s.rails := rfl

theorem State.modAxis_rails (s : State) (a : AxisId) (f : Axis → Axis) : (s.modAxis a f).rails = s.rails := by
  cases a <;> rfl

theorem State.modTrk_rails (s : State) (g : HeadId) (f : TrkSt → TrkSt) : (s.modTrk g f).rails = s.rails := rfl

theorem State.trans_rails (s : State) (v : Vector Transport 4) : State.rails { s with trans := v } = s.rails := rfl

/-! #### Grants -/

theorem State.scanClass_rails (s : State) (cls : GrantClass) (l : List GrantReq) : (s.scanClass cls l).rails = s.rails := by
  induction l generalizing s with
  | nil => rfl
  | cons r rest ih =>
    rw [State.scanClass]
    split
    · split
      · exact ih _
      · split
        · rfl
        · exact ih s
    · exact ih s

theorem State.scanGrants_rails (s : State) : s.scanGrants.rails = s.rails := by
  simp only [State.scanGrants, State.scanClass_rails]

theorem State.returnGrant_rails (s : State) (cls : GrantClass) (who : Nat) : (s.returnGrant cls who).rails = s.rails :=
  State.scanGrants_rails _

/-! #### Buffers -/

theorem State.chanWrite_rails (s : State) (a : Nat) (l : List Byte) : (s.chanWrite a l).rails = s.rails := by
  simp only [State.chanWrite]
  split
  · rfl
  · split <;> rfl

theorem State.store_rails (s : State) (a : Nat) (l : List Byte) : (s.store a l).rails = s.rails := by
  simp only [State.store, apply_ite State.rails, State.chanWrite_rails, ite_self]

theorem State.messageIn_rails (s : State) (id : Nat) : (s.messageIn id).rails = s.rails := by
  unfold State.messageIn
  split
  · exact foldl_keeps State.rails (fun t p => t.store_rails ..) _ s
  · rfl

theorem State.takeParts_rails (s : State) (id : Nat) (l : List (Fin 16)) : (s.takeParts id l).rails = s.rails := by
  induction l generalizing s with
  | nil => exact State.messageIn_rails ..
  | cons p r ih =>
    rw [State.takeParts]
    split
    · rfl
    · split
      · exact ih _
      · rfl

theorem State.beginAlloc_rails (s : State) (id : Nat) : (s.beginAlloc id).rails = s.rails := by
  unfold State.beginAlloc
  split
  · rfl
  · simp only [apply_ite State.rails, State.takeParts_rails]
    split
    · rfl
    · split
      · rfl
      · split <;> rfl

theorem State.retryQuota_rails (s : State) (r : Nat) : (s.retryQuota r).rails = s.rails :=
  foldl_keeps State.rails State.beginAlloc_rails _ s

theorem State.retryPool_rails (s : State) (p : Fin 16) : (s.retryPool p).rails = s.rails := by
  unfold State.retryPool
  split
  · rfl
  · dsimp only
    split
    · rfl
    · exact State.takeParts_rails ..

theorem State.freeBuf_rails (s : State) (b : Buf) : (s.freeBuf b).rails = s.rails := by
  simp only [State.freeBuf, State.retryQuota_rails]
  split
  · exact State.retryPool_rails ..
  · rfl

theorem State.dropBuf_rails (id : Nat) (s : State) (ref : BufRef) : (s.dropBuf id ref).rails = s.rails := by
  unfold State.dropBuf
  split
  · rfl
  · split
    · rfl
    · exact s.freeBuf_rails _

theorem State.uncharge_rails (s : State) (r n : Nat) : (s.uncharge r n).rails = s.rails := rfl

theorem State.dropBufs_rails (s : State) (id : Nat) : (s.dropBufs id).rails = s.rails := by
  unfold State.dropBufs
  split
  · rfl
  · simp only [apply_ite State.rails, State.retryQuota_rails, State.uncharge_rails, ite_self]
    exact foldl_keeps State.rails (State.dropBuf_rails id) ..

/-! #### Ends of commands -/

theorem State.sendOn_rails (s : State) (i : Fin 2) (p : Packet) : (s.sendOn i p).rails = s.rails := by
  simp only [State.sendOn]
  split
  · rfl
  · split <;> rfl

theorem State.sendTo_rails (s : State) (p : Packet) : (s.sendTo p).2.rails = s.rails := by
  unfold State.sendTo
  split
  · rfl
  · split
    · rfl
    · exact s.sendOn_rails _ p

theorem State.letGo_rails (s : State) (id : Nat) : (s.letGo id).rails = s.rails := foldl_keeps State.rails State.beginAlloc_rails ..

theorem State.dropCmd_rails (s : State) (id : Nat) : (s.dropCmd id).rails = s.rails := by
  refine (State.letGo_rails ..).trans ((State.dropBufs_rails ..).trans ?_)
  split
  · split <;> rfl
  · rfl

theorem State.peerDone_rails (s : State) (c : Cmd) (status : Nat) : (s.peerDone c status).rails = s.rails := by
  unfold State.peerDone
  split
  · rfl
  · refine (State.sendTo_rails ..).trans ?_
    split
    · split <;> rfl
    · rfl

theorem State.fenceEnds_rails (s : State) (id : Nat) (c : Cmd) : (s.fenceEnds id c).rails = s.rails := by
  simp only [State.fenceEnds]
  split
  · exact State.letGo_rails ..
  · rfl

theorem State.finish_rails (s : State) (id status result first : Nat) (logged : Bool) :
    (s.finish id status result first logged).rails = s.rails := by
  unfold State.finish
  split
  · rfl
  · split
    · rfl
    · simp only [apply_ite State.rails, State.dropCmd_rails, State.peerDone_rails, State.retryQuota_rails, ite_self,
        State.fenceEnds_rails]
      split <;> split <;> rfl

theorem State.settleWrite_rails (s : State) (id : Nat) : (s.settleWrite id).rails = s.rails := by
  unfold State.settleWrite
  split
  · rfl
  · simp only [apply_ite State.rails, State.finish_rails, ite_self]

theorem State.extentOutcome_rails (s : State) (id status block : Nat) : (s.extentOutcome id status block).rails = s.rails :=
  State.settleWrite_rails ..

/-! #### Clusters, records and extents -/

theorem State.raiseHigh_rails (s : State) (b : BayId) (sl : BitVec 5) (f : Nat) : (s.raiseHigh b sl f).rails = s.rails := by
  unfold State.raiseHigh
  split <;> rfl

theorem State.loseUnits_rails (s : State) (e : Extent) : (s.loseUnits e).rails = s.rails := by
  unfold State.loseUnits
  split
  · rfl
  · exact foldl_keeps State.rails (fun t r => by rfl) _ s

/-- The live writes of an extent complete with one status. -/
theorem foldl_extentOutcome_rails (l : List ExtRun) (dead : List Nat) (status : Nat) (s : State) :
    (l.foldl (fun t r => if dead.contains r.write then t else t.extentOutcome r.write status r.first) s).rails = s.rails :=
  foldl_keeps State.rails (fun t r => by rw [apply_ite State.rails, State.extentOutcome_rails, ite_self]) l s

theorem State.giveUp_rails (s : State) (e : Extent) (status : Nat) : (s.giveUp e status).rails = s.rails := by
  refine (foldl_extentOutcome_rails ..).trans ((State.loseUnits_rails ..).trans ?_)
  split <;> rfl

theorem State.noSpace_rails (s : State) (e : Extent) : (s.noSpace e).rails = s.rails := by
  refine (foldl_extentOutcome_rails ..).trans ((State.loseUnits_rails ..).trans ?_)
  split <;> rfl

theorem State.retryExtent_rails (s : State) (e : Extent) : (s.retryExtent e).rails = s.rails := by
  unfold State.retryExtent
  split
  · exact s.giveUp_rails e _
  · dsimp only
    split
    · exact s.noSpace_rails e
    · rfl

theorem State.relocate_rails (s : State) (key i : Nat) : (s.relocate key i).rails = s.rails := by
  unfold State.relocate
  split
  · rfl
  · split
    · rfl
    · simp only [apply_ite State.rails, State.retryExtent_rails, State.flag_rails, State.logEv_rails, State.incSat_rails,
        State.modExtent_rails, ite_self]

theorem State.failCluster_rails (s : State) (key i : Nat) : (s.failCluster key i).rails = s.rails := by
  unfold State.failCluster
  split
  · rfl
  · exact State.relocate_rails ..

theorem State.failRecord_rails (s : State) (key : Nat) : (s.failRecord key).rails = s.rails := by
  unfold State.failRecord
  split
  · rfl
  · split
    · rfl
    · split
      · exact s.retryExtent_rails _
      · rfl

theorem State.failWindow_rails (s : State) (g : HeadId) : (s.failWindow g).rails = s.rails := by
  unfold State.failWindow
  split
  · rfl
  · split
    · rfl
    · refine (foldl_keeps State.rails (fun t k => ?clustersAndRecord) _ _).trans (foldl_keeps State.rails (fun t k => ?highWater) _ s)
      case highWater =>
        split
        · split
          · exact State.raiseHigh_rails ..
          · rfl
        · rfl
      case clustersAndRecord =>
        split
        next e he =>
          have hclusters (w : WindowPos) : ((e.unfinished w).foldl (fun u i => u.failCluster k i) t).rails = t.rails :=
            foldl_keeps State.rails (fun u i => u.failCluster_rails k i) _ t
          split
          · simp only [apply_ite State.rails, State.failRecord_rails, hclusters, ite_self]
          · exact hclusters ..
        next => rfl

theorem State.meterClose_rails (s : State) (g : HeadId) : (s.meterClose g).rails = s.rails := by
  unfold State.meterClose
  split
  · rfl
  · exact foldl_keeps State.rails (fun t f => by rfl) ..

/-! #### Heads, drives and axes -/

theorem State.abandonTrial_rails (s : State) (g : HeadId) : (s.abandonTrial g).rails = s.rails := by
  unfold State.abandonTrial
  split
  · rfl
  · rw [State.commitTrim_frame]
    rfl

theorem State.releaseHead_rails (s : State) (g : HeadId) (cause : Fin 9) : (s.releaseHead g cause).rails = s.rails := rfl

theorem State.loseHead_rails (s : State) (g : HeadId) (cause : Fin 9) : (s.loseHead g cause).rails = s.rails := by
  simp only [State.loseHead_eq, State.abandonTrial_rails, State.releaseHead_rails, apply_ite State.rails, State.meterClose_rails,
    State.failWindow_rails, ite_self]

theorem State.holdTracking_rails (s : State) (g : HeadId) : (s.holdTracking g).rails = s.rails := by
  obtain ⟨f, hf, -⟩ := s.holdTracking_sparesFocus g
  rw [hf]
  rfl

theorem State.focFail_rails (s : State) (g : HeadId) (cause : BitVec 2) : (s.focFail g cause).rails = s.rails := by
  have htracking (t : State) (f : TrkSt → TrkSt) : (((t.holdTracking g).modTrk g f).logEv (srcFoc g) .focusFailed [cause.toNat]).rails =
    t.rails := by rw [State.logEv_rails, State.modTrk_rails, State.holdTracking_rails]
  simp only [State.focFail, apply_ite State.rails, State.loseHead_rails, htracking, ite_self]
  rfl

theorem State.spindleStopped_rails (s : State) (b : BayId) : (s.spindleStopped b).rails = s.rails := by
  have hheads : (s.eachHead b (fun t g => if t.focState g = .off then t else t.focFail g 3)).rails = s.rails :=
    foldl_keeps State.rails (fun t g => by rw [apply_ite State.rails, State.focFail_rails, ite_self]) _ s
  simp only [State.spindleStopped, apply_ite State.rails, State.returnGrant_rails, State.modBay_rails, hheads, ite_self]

theorem State.loseSpindle_rails (s : State) (b : BayId) : (s.loseSpindle b).rails = s.rails :=
  foldl_keeps State.rails (fun t g => t.loseHead_rails g 7) _ s

theorem State.testOutcome_rails (s : State) (src : BitVec 16) (pass : Bool) : (s.testOutcome src pass).rails = s.rails := by
  unfold State.testOutcome
  dsimp only
  split <;> split <;> rfl

theorem State.errTest_rails (s : State) (src : BitVec 16) : (s.errTest src).2.rails = s.rails := by
  simp only [State.errTest, apply_ite State.rails, State.testOutcome_rails, ite_self]
  rfl

theorem State.spindleFault_rails (s : State) (b : BayId) (cause : BitVec 4) : (s.spindleFault b cause).rails = s.rails := by
  simp only [State.spindleFault, State.returnGrant_rails, State.spindleStopped_rails, State.logEv_rails, State.loseSpindle_rails]
  exact s.errTest_rails (srcSpindle b)

theorem State.driveBridgeOff_rails (s : State) (b : BayId) : (s.driveBridgeOff b).rails = s.rails := by
  simp only [State.driveBridgeOff, apply_ite State.rails, State.spindleFault_rails, State.spindleStopped_rails]
  split
  · rfl
  · split <;> rfl

theorem State.axisBridgeOff_rails (s : State) (a : AxisId) : (s.axisBridgeOff a).rails = s.rails := by
  unfold State.axisBridgeOff
  split
  · rfl
  · rfl
  · exact State.modAxis_rails ..

theorem State.headBridgesOff_rails (s : State) (g : HeadId) : (s.headBridgesOff g).rails = s.rails :=
  (State.axisBridgeOff_rails ..).trans (State.axisBridgeOff_rails ..)

theorem State.bayBridgesOff_rails (s : State) (b : BayId) : (s.bayBridgesOff b).rails = s.rails :=
  (foldl_keeps State.rails State.headBridgesOff_rails _ _).trans (s.driveBridgeOff_rails b)

/-- Turning every bridge off moves neither the time nor a domain (Table 18-6, step 3). -/
theorem State.bridgesOff_rails (s : State) : s.bridgesOff.rails = s.rails := by
  simp only [State.bridgesOff, State.trans_rails]
  exact foldl_keeps State.rails State.bayBridgesOff_rails _ _

end Sys2Proof.Machine

namespace Sys2Proof.Machine

theorem State.latchLow_get (s : State) (i : Iface) (a : Nat) (v : BitVec 32) :
    Tab.get? (s.latchLow i a v).regs.writeLatch[(ifaceIx i).val] a = some v.toNat := by
  rw [State.latchLow, vmod_get_self, Tab.get?_put, if_pos rfl]

/-! ### Power failure, the reference and the offset (R452, R458, R506, R511) -/

/-- Entering POWER_FAIL withdraws every request and grant, and no domain switches. -/
theorem State.powerFailure_spec {s : State} (h : s.power.powerFail = false) :
    let t := s.powerFailure
    t.power.powerFail = true ∧ t.power.queue = [] ∧ t.power.held = [] ∧ t.sta .power POWER.power_fail_seen = 1 ∧
      t.log.events.getLsbD 12 = true ∧ t.power.on = s.power.on ∧ t.power.state = s.power.state := by
  have hrails := State.bridgesOff_rails { s with power := { s.power with powerFail := true } }
  simp only [State.rails, Prod.mk.injEq] at hrails
  obtain ⟨-, hon, hstate, hfail⟩ := hrails
  simp only [State.powerFailure, h, Bool.false_eq_true, if_false, State.logVec_power, State.logVec_sta, State.flag_fields, true_and]
  exact ⟨hfail, State.sta_flag_self _ _ rfl, State.logVec_event _ _ _ _ (by decide), hon, hstate⟩

theorem exec_pwrGoodDeassert (s : State) : exec .pwrGoodDeassert s = .next s.powerFailure := rfl

theorem State.powerFailure_of_failed {s : State} (h : s.power.powerFail = true) : s.powerFailure = s :=
  if_pos h

theorem exec_vinUndervolt (u : BitVec 16) (s : State) : exec (.vinUndervolt u) s =
    if u.toNat < 850 then exec .pwrGoodDeassert { s with power := { s.power with vin := u.toNat } }
      else .next { s with power := { s.power with vin := u.toNat } } := rfl

/-- Where every domain is as its bit says, no domain switches off at the end of a power failure. -/
theorem State.foldl_domainOff_of_settled {s : State} (h : s.power.on = s.power.state) (l : List Nat) :
    l.foldl (fun (t : State) d => if bitOf t.power.state.toNat d && !bitOf t.power.on.toNat d then t.domainOff d else t) s = s :=
  List.foldlRecOn (motive := fun t : State => t = s) l _ rfl fun t ht d _ => by
    subst ht
    rw [h, Bool.and_not_self]
    rfl

theorem State.restartDrives_of_none {s : State} (h : ∀ b : BayId, (s.spindle b).wantStart = false) : s.restartDrives = s :=
  List.foldlRecOn (motive := fun t : State => t = s) _ _ rfl fun t ht b _ => by
    subst ht
    simp [h b]

theorem exec_powerFailEnd_settled {s : State} (hfail : s.power.powerFail = true) (hon : s.power.on = s.power.state)
    (hqueue : s.power.queue = []) (hdrives : ∀ b : BayId, (s.spindle b).wantStart = false) : exec .powerFailEnd s =
      .next (State.logEv { s with power := { s.power with powerFail := false } } (srcBlock 1) .powerFailEnd []) := by
  let t := State.logEv { s with power := { s.power with powerFail := false } } (srcBlock 1) .powerFailEnd []
  have hdomains := State.foldl_domainOff_of_settled (s := t) hon (List.range 20)
  have hrestart : t.restartDrives = t := State.restartDrives_of_none hdrives
  have hscan : t.scanGrants = t := State.scanGrants_of_no_request hqueue
  simp only [exec, execPowerFailEnd, hfail, Bool.not_true, Bool.false_eq_true, if_false]
  rw [hdomains, hrestart, hscan]

theorem exec_powerFailEnd_none {s : State} (h : s.power.powerFail = false) : exec .powerFailEnd s = .next s := by
  simp [exec, execPowerFailEnd, h]

theorem exec_referenceLost_again {s : State} (h : s.time.refLost = true) : exec .referenceLost s = .next s :=
  if_pos h

theorem State.logVec_time (s : State) (src : BitVec 16) (e : Ev) (data : List Nat) (bit : Nat) :
    (s.logVec src e data bit).time = s.time := by
  rw [State.logVec_frame]

theorem State.chainHold_time (s : State) : s.chainHold.time = s.time := rfl

/-- A lost reference raises its flags and holds both ports in DOWN; the timebase runs on. -/
theorem exec_referenceLost_spec {s : State} (h : s.time.refLost = false) : Next (exec .referenceLost s) fun t =>
    t.time = { s.time with refLost := true } ∧ t.sta .timebase TIMEBASE.ref_lost_seen = 1 ∧ t.log.events.getLsbD 5 = true ∧
      ∀ k, (t.port k).st = .down := by
  have hrails := State.bridgesOff_rails { s with time := { s.time with refLost := true } }
  simp only [State.rails, Prod.mk.injEq] at hrails
  obtain ⟨htime, -⟩ := hrails
  refine ⟨_, if_neg (by rw [h]; exact Bool.false_ne_true), ?time, ?flag, State.logVec_event _ _ _ _ (by decide), fun k => ?port⟩
  case time =>
    simp only [State.logVec_time, State.flag_fields, State.chainHold_time]
    exact htime
  case flag =>
    rw [State.logVec_sta]
    exact State.sta_flag_self _ _ rfl
  case port =>
    rw [State.logVec_frame]
    exact congrArg PortSt.st (Vector.getElem_replicate ..)

theorem exec_referenceRestored_waits {s : State} (x : StartIn) (h : s.time.refLost = false ∨ s.power.powerFail = true) :
    exec (.referenceRestored x) s = .next s :=
  if_pos (by rcases h with h | h <;> simp [h])

/-- Outside full mode the reference's return is only logged. -/
theorem exec_referenceRestored_logged {s : State} (x : StartIn) (hlost : s.time.refLost = true) (hfail : s.power.powerFail = false)
    (hstarted : s.mgmt.started = false) : exec (.referenceRestored x) s =
      .next (State.logEv { s with time := { s.time with refLost := false } } (srcBlock 2) .refRestored []) := by
  simp [exec, execReferenceRestored, hlost, hfail, hstarted]

theorem exec_timebaseOffsetWrite_low (i : Iface) (v : BitVec 32) (s : State) :
    exec (.timebaseOffsetWrite i false v) s = .next (s.latchLow i 0x20010 v) := rfl

/-- The high word of OFFSET sets the offset at once, which is a step (R511). -/
theorem exec_timebaseOffsetWrite_high {s : State} {i : Iface} {lo : Nat}
    (hlatch : Tab.get? s.regs.writeLatch[(ifaceIx i).val] 0x20010 = some lo) (v : BitVec 32) :
    Next (exec (.timebaseOffsetWrite i true v) s) fun t => t.time.offset = v ++ BitVec.ofNat 32 lo ∧ t.time.localNs = s.time.localNs ∧
      t.sta .timebase TIMEBASE.stepped = 1 ∧ t.log.next = s.log.next + 1 ∧ t = { s with time := t.time, regs := t.regs, log := t.log } := by
  have hlow : (s.takeLow i 0x20010 (s.time.offset.toNat % 2 ^ 32)).1 = lo := State.takeLow_latched hlatch _
  refine ⟨_, rfl, ?offset, rfl, State.sta_flag_self _ _ rfl, rfl, rfl⟩
  case offset => exact congrArg (fun n => v ++ BitVec.ofNat 32 n) hlow

/-- Settles O51: the words of a 64-bit register, the domains and the governor each act on their own part, and what a loss turns off moves
no domain and no time (`State.bridgesOff_rails`). -/
theorem powerAndTimeInputsAct : Obligations.PowerAndTimeInputsAct := by
  intro s i v p same latch event
  refine ⟨?domainLow, ?domainSame, ?domainBits, exec_domainSwitchDone_barred, exec_domainSwitchDone_on, ?domainOff, ?cap, ?scanNone,
    ?scanSeek, ?overCap, ?within, ?capEnds, ?thermal, ?cooler, ?thermalEnds, ?powerFail, ?failing, fun u => exec_vinUndervolt u s,
    ?failEnds, exec_powerFailEnd_none, exec_referenceLost_spec, exec_referenceLost_again, exec_referenceRestored_waits, ?returned,
    ?offsetLow, fun lo hlatch => exec_timebaseOffsetWrite_high hlatch v, ?readWord⟩
  case domainLow => exact fun hlive => ⟨_, exec_domainWrite_low hlive, s.latchLow_get i _ v, rfl⟩
  case domainSame => exact fun hlive hlatch => ⟨_, exec_domainWrite_unlatched hlive hlatch, rfl, rfl⟩
  case domainBits =>
    intro d hlive hlatch
    rw [exec_domainWrite_high hlive]
    dsimp only
    rw [State.takeLow_latched hlatch]
  case domainOff =>
    intro d hon hstate hfail hqueue
    rw [exec_domainSwitchDone_off d hon hstate hfail, State.railOff_power hqueue]
    refine ⟨_, rfl, ?_, fun k hk hin => ?_, rfl, rfl⟩
    · exact (bitOf_clear s.power.state d.isLt).trans (by simp)
    · exact (bitOf_clear s.power.state hin).trans (by simp [Ne.symm hk, p])
  case cap =>
    intro c hlive hqueue
    refine ⟨_, exec_capWrite hlive hqueue, ?_, rfl⟩
    rw [State.fld_setFld, if_pos rfl]
    exact Nat.mod_eq_of_lt c.isLt
  case scanNone => exact fun hqueue => congrArg Host.Outcome.next (State.scanGrants_of_no_request hqueue)
  case scanSeek =>
    intro who mw hqueue hfits
    refine ⟨_, congrArg Host.Outcome.next (State.scanGrants_of_seek hqueue hfits), ?_, rfl⟩
    simp [State.issue, hqueue, p]
  case overCap =>
    intro mw b hover hnew
    exact ⟨_, exec_powerMeasure_over mw b hover hnew, State.logVec_power .., State.logVec_event _ _ _ _ (by decide), State.logVec_next ..⟩
  case within => exact fun mw b hin h => ⟨_, exec_powerMeasure_within mw b hin h, rfl⟩
  case capEnds => exact fun mw hin hover hqueue => ⟨_, exec_powerMeasure_ends mw hin hover hqueue, rfl⟩
  case thermal =>
    intro c hhot hnew
    exact ⟨_, exec_thermalWarn_hot c hhot hnew, State.logVec_power .., State.logVec_event _ _ _ _ (by decide), State.logVec_next ..⟩
  case cooler => exact fun c h => ⟨_, exec_thermalWarn_records c h, rfl⟩
  case thermalEnds => exact fun hqueue => ⟨_, exec_thermalWarnClear hqueue, rfl⟩
  case powerFail => exact fun hfail => ⟨_, exec_pwrGoodDeassert s, State.powerFailure_spec hfail⟩
  case failing => exact fun hfail => congrArg Host.Outcome.next (State.powerFailure_of_failed hfail)
  case failEnds => exact fun hfail hon hqueue hdrives => ⟨_, exec_powerFailEnd_settled hfail hon hqueue hdrives, rfl, rfl, rfl⟩
  case returned => exact fun x hlost hfail hstarted => ⟨_, exec_referenceRestored_logged x hlost hfail hstarted, rfl, rfl, rfl⟩
  case offsetLow => exact ⟨_, exec_timebaseOffsetWrite_low i v s, s.latchLow_get i _ v, rfl⟩
  case readWord =>
    intro a hnarrow hlatch
    rw [exec_lowWordRead, State.readBy_unlatched hnarrow hlatch]
    rfl

end Sys2Proof.Machine
